-- ==== Sys2Proof/Word.lean ====
section
/-!
DEFINITION. The plain words the module's data is written in, and the index types its commands
carry.  Register contents, addresses and counts are kept as natural numbers below their width
(every read masks, `Machine.rd`), bytes of memory and words of stored programs are bit vectors.
-/

namespace Sys2Proof

/-- One byte of a store. -/
abbrev Byte := BitVec 8

/-- A function number: 0 the physical function, 1 to 15 the virtual functions (R445). -/
abbrev Func := Fin 16
/-- A DAC port in the numbering of R83: 0 to 31 drive ports, 32 to 47 probe ports. -/
abbrev DacPort := Fin 48
/-- An acquisition port. -/
abbrev AcqPort := Fin 16
/-- A sequencer (R23). -/
abbrev SeqNo := Fin 64
/-- A region (R18). -/
abbrev Region := Fin 8
/-- A channel of the module. -/
abbrev Chan := Fin 512
/-- An Odric core. -/
abbrev CoreNo := Fin 16
/-- A bias channel. -/
abbrev BiasCh := Fin 64
/-- A Habor port. -/
abbrev HabPort := Fin 4

end Sys2Proof
end

