-- ==== Sys2Proof/Machine/Bits.lean ====
section
/-!
DEFINITION. Bit fields, sign extension, rounding and saturation of the numbers the spec writes, and
the sparse tables the state is kept in.
-/

namespace Sys2Proof.Machine

/-! ### Fields of numbers -/

/-- `n[lo + w - 1 : lo]`. -/
def field (n lo w : Nat) : Nat := n / 2 ^ lo % 2 ^ w

/-- `n` with its field `[lo + w - 1 : lo]` replaced by `v`. -/
def setField (n lo w v : Nat) : Nat :=
  n % 2 ^ lo + v % 2 ^ w * 2 ^ lo + n / 2 ^ (lo + w) * 2 ^ (lo + w)

/-- Bit `k` of `n`. -/
def bit (n k : Nat) : Bool := n / 2 ^ k % 2 == 1

/-- 1 for true, 0 for false. -/
def b2n (b : Bool) : Nat := if b then 1 else 0

/-- The signed value of a `w`-bit two's-complement word. -/
def toS (w n : Nat) : Int :=
  let m := n % 2 ^ w
  if m < 2 ^ (w - 1) then (m : Int) else (m : Int) - 2 ^ w

/-- The `w`-bit two's-complement word of an integer. -/
def ofS (w : Nat) (x : Int) : Nat := (x % (2 ^ w : Int)).toNat

/-- `x` clamped to `[lo, hi]`. -/
def clampI (lo hi x : Int) : Int := if x < lo then lo else if hi < x then hi else x

/-- `x` saturated to `w` signed bits. -/
def satS (w : Nat) (x : Int) : Int := clampI (-(2 ^ (w - 1))) (2 ^ (w - 1) - 1) x

/-- `x / 2 ^ s` rounded half up (toward plus infinity at the half). -/
def rndShift (x : Int) (s : Nat) : Int :=
  if s = 0 then x else (x + 2 ^ (s - 1)) / 2 ^ s

/-- `x / d` rounded half up, for a positive divisor. -/
def rndDiv (x d : Int) : Int := (2 * x + d) / (2 * d)

/-- Number of one bits among the low `w` bits. -/
def popcount : Nat → Nat → Nat
  | 0, _ => 0
  | w + 1, n => n % 2 + popcount w (n / 2)

/-- `n` with bits `w - 1 : 0` in reverse order. -/
def revBits : Nat → Nat → Nat
  | 0, _ => 0
  | w + 1, n => n % 2 * 2 ^ w + revBits w (n / 2)

/-- The smallest multiple of `m` at or after `t`; `t` itself for `m = 0`. -/
def alignUp (t m : Nat) : Nat := if m = 0 then t else (t + m - 1) / m * m

/-- `n + k`, stopping at the largest value of a `w`-bit counter. -/
def satAdd (w n k : Nat) : Nat := min (n + k) (2 ^ w - 1)

/-- Bitwise AND, OR and XOR of `w`-bit words. -/
def andW (w a b : Nat) : Nat := (a &&& b) % 2 ^ w
def orW (w a b : Nat) : Nat := (a ||| b) % 2 ^ w
def xorW (w a b : Nat) : Nat := (a ^^^ b) % 2 ^ w

/-- The little-endian value of a list of bytes. -/
def leNat : List Byte → Nat
  | [] => 0
  | x :: xs => x.toNat + 256 * leNat xs

/-- The `k` little-endian bytes of a number. -/
def leBytes : Nat → Nat → List Byte
  | 0, _ => []
  | k + 1, n => BitVec.ofNat 8 n :: leBytes k (n / 256)

/-! ### Sparse tables

`Tab κ α` lists the entries that differ from a default; `Tab.get d` reads an unlisted entry as `d`. -/

abbrev Tab (κ α : Type) := List (κ × α)

def Tab.get {κ α : Type} [DecidableEq κ] (d : α) : Tab κ α → κ → α
  | [], _ => d
  | (k, v) :: t, i => if k = i then v else Tab.get d t i

def Tab.find {κ α : Type} [DecidableEq κ] : Tab κ α → κ → Option α
  | [], _ => none
  | (k, v) :: t, i => if k = i then some v else Tab.find t i

def Tab.set {κ α : Type} [DecidableEq κ] : Tab κ α → κ → α → Tab κ α
  | [], i, x => [(i, x)]
  | (k, v) :: t, i, x => if k = i then (i, x) :: t else (k, v) :: Tab.set t i x

/-- Every entry of `i` removed. -/
def Tab.erase {κ α : Type} [DecidableEq κ] (t : Tab κ α) (i : κ) : Tab κ α :=
  t.filter (fun e => decide (e.1 ≠ i))

end Sys2Proof.Machine
end

