-- ==== Sys2Proof/Config.lean ====
section
/-!
DEFINITION. What one implementation of the module fixes and the spec does not give: constants with
no body.  Nothing in Lean can evaluate one or prove a value of one, so a statement that holds, holds
whatever they are.  Each is named in the assumption log.
-/

namespace Sys2Proof.Config

/-- R605, R606: the module's serial number ("an opaque 64-bit value"). Log 107 (DESIGN CHOICE). -/
opaque serial : Nat

/-- R252: word `w` of the vendor control-store image, `w < 6144`. Log 107 (DESIGN CHOICE). -/
opaque vendorWord : Nat → Nat

/-- R248: the dispatch entry's ENTRY and HEAD bits for vendor opcode `o`, and the CLASS of STREAM,
which R223 lists in two classes. Log 107 (DESIGN CHOICE). -/
opaque vendorEntry : Nat → Nat
/-- Log 107 (DESIGN CHOICE). -/
opaque vendorHead : Nat → Nat
/-- Log 107 (DESIGN CHOICE). -/
opaque streamClass : Nat

/-- R531, R546, R547: the factory value of a calibration field: register (0 ACOEF, 1 DCOEF, 2 GCAL,
3 FMOD), index, lowest bit of the field. Log 107 (DESIGN CHOICE). -/
opaque factory : Nat → Nat → Nat → Nat

/-- R100: the DAC word before the clamp of R97 in NRZ1 and MIX2, from the baseband samples of the
port up to this tick (newest first, I and Q in units of 2⁻¹⁷) and the coarse NCO phase of the DAC
sample.  The spec gives the interpolator's ripple and rejection, not its coefficients. Log 39 (DESIGN CHOICE). -/
opaque upconvert : List (Int × Int) → Nat → Int

/-- R113: how the DAC word after the mute gain of ramp tick `k` out of 800 is rounded, which the spec does
not give: 1 rounds the exact product of gain and word `d` up, anything else down. Log 40 (DESIGN CHOICE). -/
opaque muteRound : Nat → Int → Nat

/-- R320: how the tick energy is rounded to 2⁻¹⁶ aJ, which the spec does not give: 1 rounds the exact
energy up, anything else down.  The argument numbers the ticks counted. Log 41 (DESIGN CHOICE). -/
opaque tallyRound : Nat → Nat

/-- R392: field with lowest bit `lsb` of vendor entry `e` of the Firn sequence (entries 112 to 127).
Log 107 (DESIGN CHOICE). -/
opaque vendorSeq : Nat → Nat → Nat

/-- R366: whether a cycle of the Firn oscillator begins in elapsed tick `n`; the spec gives 50 MHz within
100 ppm. Log 59 (DESIGN CHOICE). -/
opaque firnCycle : Nat → Bool

/-- A fresh free value for each argument: values the spec leaves open (log entry of each use).
Log 8 (DESIGN CHOICE). -/
opaque free : Nat → Nat

end Sys2Proof.Config
end

