-- ==== Sys2Proof/Machine/RegFile.lean ====
section
/-!
DEFINITION. The register file's shape: every register of R608 (and the doorbell page of R476 and
VIEW_ADDR of R449, which lie outside BAR0), every field with its position, width, access code,
effect code and reset value, and where each register lies in BAR0 (R595).

A register here is a register NAME with up to two indices `i` and `j`.  The DRV and PRB register
sets, which R129 makes one set read under two prefixes, are one set of names with `i` = 0 to 31 for
drive ports and 32 to 47 for probe ports, the port numbering of R83.  ODR_GMASK(n, k, w) has
`j = 12 k + w` and ACQ_KDESC(k, s, i) has `j = 4 s + i`.
-/

namespace Sys2Proof.Machine

/-- The registers of the module, R608. -/
inductive Reg where
  | glbId | glbVariant | glbSerial | glbCap | glbStrap | glbAccerr
  | glbScratch | glbPwr | glbBrst | glbLc | glbChmapStage | glbChmapCtrl
  | glbChmapAct | timRefCfg | timStatus | timNow | timMsyncCtrl | timMsyncLoad
  | timMsyncOutAt | timMsyncCapt | timMsyncCapi | timDlPolicy | timDlMiss | timDtrim
  | timAtrim | hifLink | hifGstat | hifOwn | hifFctrl | hifFstat
  | hifIrqmap | hifSpart | hifDpart | hifRbase | hifRcfg | hifAp
  | evfStatus | evfFire | evfFstat | evfLogq | evfSrcmap | evfLink
  | evfChcfg | evfChstat | evfTin | cntCtrl | cntStatus | cntFstat
  | cntCfg | cntVal | memDctrl | memDstat | memTrain | memSload
  | memDdly | memPanic | memEcc | lnkGcfg | lnkPeers | lnkPcfg
  | lnkPstat | lnkXch | lnkCnt | lnkFbuf | lnkFptr | lnkLane
  | netCfg | netStat | netTxq | netRxq | netDb | netPtpIncr
  | netPtpNs | netPtpSec | netPtpAdj | netPtpCtrl | netPtpCtrl2 | netPairTick
  | netPairSec | netPairNs | netTxts0 | netTxts1 | rcvCtrl | rcvStatus
  | rcvLog | rcvLogptr | rcvRctl | rcvRstat | rcvResume | calCtrl
  | calStatus | calRot | calActl | calAcoef | calDcoef | calGcal
  | calFmod | calBias | govCtrl | govWin | govStatus | govBuds
  | govBudl | govCeils | govCeill | govTals | govTall | govLcfg
  | govLcnt | govAllot | govBload | govBlim | govBslew | govBstat
  | frnCtrl | frnStatus | frnTime | frnTherm | frnWake | frnSeq
  | frnRes | frnCmp | frnCmps | frnTemp | frnRcfg | frnRcond
  | frnRmask | frnRstat | frnBset | biaCfg | biaCode | biaClr
  | biaTrim | biaAct | biaStat | biaPcmd | biaPstat | biaGlb
  | trgMcmd | trgXin | trgGcfg | trgGlev | trgGtime | trgGstat
  | trgCcfg | trgCbuf | trgCwin | trgCcmd | trgCstat | trgMcfg
  | trgMstat | trgMts | trgPat | trgPlen | trgTcfg | trgTlev
  | trgTstat | trgTcnt | drvCtrl | drvCnco | drvCncoAct | drvLevel
  | drvLevelAct | drvPscale | drvStatus | drvClipcnt | drvStream | drvRfill
  | drvSfreq | drvSphase | drvSamp | drvSctrl | prbSenv | prbEstopcnt
  | acqCtrl | acqCnco | acqCncoAct | acqStatus | acqCnt | acqCfgCtrl
  | acqTrack | acqTrack2 | acqCrev | acqDslot | acqDslotAct | acqKdesc
  | acqDtrk | acqDtrks | dscCfg | dscAxa | dscAxb | dscDrift
  | dscBnda | dscBndb | dscErase | dscStat | dscRsel0 | dscRsel1
  | dscRtab | dscColq | dscCollost | dscColstat | dscXmask | dscFwd
  | dscXcnt | dscImport | dscDv | seqCtrl | seqCmd | seqStart
  | seqJreq | seqStatus | seqPc | seqShot | seqCnt | seqCnt2
  | seqSreg | seqLoop | ucsCtrl | ucsStatus | ucsScnt | ucsDisp
  | ucsWord | odrCtrl | odrStatus | odrPc | odrCnt | odrIrq
  | odrVbase | odrMbmask | odrGmask | odrGrp | odrEvsub | odrMainG
  | odrMainA | odrM | odrShadowG | odrShadowA | odrMainCre | odrMainCim
  | odrShadowCre | odrShadowCim | dbCmd | dbRing | msixPba | msixTable
  | viewAddr
  deriving DecidableEq, Repr

/-- Access codes of R7. -/
inductive Acc where
  | rw | ro | wo | w1c | w1s | rc
  deriving DecidableEq, Repr

/-- Effect codes of R9 (`none` where the table's Effect column holds a dash). -/
inductive Eff where
  | imm | tick | gran | frame | grad | none
  deriving DecidableEq, Repr

/-- A field: its register, its lowest bit and its width. -/
structure Fld where
  reg : Reg
  lsb : Nat
  wid : Nat
  deriving DecidableEq, Repr

/-- One field of one copy of a register. -/
structure Key where
  reg : Reg
  i : Nat
  j : Nat
  lsb : Nat
  deriving DecidableEq, Repr

/-- The key of field `f` in the register copy `(i, j)`. -/
@[simp] def Fld.key (f : Fld) (i j : Nat) : Key := ⟨f.reg, i, j, f.lsb⟩

/-- A row of a field table: field, access, effect, reset value where it is one number. -/
structure FieldSpec where
  fld : Fld
  acc : Acc
  eff : Eff
  res : Nat
  deriving DecidableEq, Repr

/-- Where a register lies: BAR0 offset of copy (0, 0), width in bits, and up to three strides
with their counts (stride 0 where the register has no such index). -/
structure Layout where
  base : Nat
  width : Nat
  si : Nat
  ni : Nat
  sj : Nat
  nj : Nat
  sk : Nat
  nk : Nat
  deriving DecidableEq, Repr

namespace F

-- GLB_ID: R606
abbrev GLB_ID_FAMILY : Fld := ⟨.glbId, 48, 16⟩
abbrev GLB_ID_PART : Fld := ⟨.glbId, 32, 16⟩
abbrev GLB_ID_STEP_MAJ : Fld := ⟨.glbId, 24, 8⟩
abbrev GLB_ID_STEP_MIN : Fld := ⟨.glbId, 16, 8⟩
abbrev GLB_ID_UIMG : Fld := ⟨.glbId, 0, 16⟩
-- GLB_VARIANT: R606
abbrev GLB_VARIANT_BUDGET : Fld := ⟨.glbVariant, 24, 8⟩
abbrev GLB_VARIANT_USABLE_GIB : Fld := ⟨.glbVariant, 16, 8⟩
abbrev GLB_VARIANT_DRAM_CH : Fld := ⟨.glbVariant, 8, 8⟩
abbrev GLB_VARIANT_CODE : Fld := ⟨.glbVariant, 0, 2⟩
-- GLB_SERIAL: R606
abbrev GLB_SERIAL_SERIAL : Fld := ⟨.glbSerial, 0, 64⟩
-- GLB_CAP: R606
abbrev GLB_CAP_NVF : Fld := ⟨.glbCap, 52, 4⟩
abbrev GLB_CAP_NHAB : Fld := ⟨.glbCap, 48, 4⟩
abbrev GLB_CAP_NBIAS : Fld := ⟨.glbCap, 40, 8⟩
abbrev GLB_CAP_NODR : Fld := ⟨.glbCap, 32, 8⟩
abbrev GLB_CAP_NSEQ : Fld := ⟨.glbCap, 24, 8⟩
abbrev GLB_CAP_NACQ : Fld := ⟨.glbCap, 16, 8⟩
abbrev GLB_CAP_NPRB : Fld := ⟨.glbCap, 8, 8⟩
abbrev GLB_CAP_NDRV : Fld := ⟨.glbCap, 0, 8⟩
-- GLB_STRAP: R607
abbrev GLB_STRAP_STRAP : Fld := ⟨.glbStrap, 0, 6⟩
-- GLB_ACCERR: R607
abbrev GLB_ACCERR_ADDR : Fld := ⟨.glbAccerr, 32, 22⟩
abbrev GLB_ACCERR_FUNC : Fld := ⟨.glbAccerr, 28, 4⟩
abbrev GLB_ACCERR_RSVD_SET : Fld := ⟨.glbAccerr, 3, 1⟩
abbrev GLB_ACCERR_PAIR_REFUSED : Fld := ⟨.glbAccerr, 2, 1⟩
abbrev GLB_ACCERR_PARTIAL : Fld := ⟨.glbAccerr, 1, 1⟩
-- GLB_SCRATCH: R607
abbrev GLB_SCRATCH_VALUE : Fld := ⟨.glbScratch, 0, 64⟩
-- GLB_PWR: R586
abbrev GLB_PWR_HIB_WAIT : Fld := ⟨.glbPwr, 16, 16⟩
abbrev GLB_PWR_LOCK_NEEDED : Fld := ⟨.glbPwr, 9, 1⟩
abbrev GLB_PWR_REFUSED : Fld := ⟨.glbPwr, 8, 1⟩
abbrev GLB_PWR_STATE : Fld := ⟨.glbPwr, 4, 2⟩
abbrev GLB_PWR_REQ : Fld := ⟨.glbPwr, 0, 2⟩
-- GLB_BRST: R586
abbrev GLB_BRST_BUSY : Fld := ⟨.glbBrst, 31, 1⟩
abbrev GLB_BRST_REFUSED : Fld := ⟨.glbBrst, 30, 1⟩
abbrev GLB_BRST_KIND : Fld := ⟨.glbBrst, 12, 4⟩
abbrev GLB_BRST_INDEX : Fld := ⟨.glbBrst, 0, 6⟩
-- GLB_LC: R586
abbrev GLB_LC_CONFIRM : Fld := ⟨.glbLc, 24, 8⟩
abbrev GLB_LC_TARGET : Fld := ⟨.glbLc, 16, 2⟩
abbrev GLB_LC_REF_CAUSE : Fld := ⟨.glbLc, 8, 4⟩
abbrev GLB_LC_SWEEP_PEND : Fld := ⟨.glbLc, 7, 1⟩
abbrev GLB_LC_REFUSED : Fld := ⟨.glbLc, 6, 1⟩
abbrev GLB_LC_STATE : Fld := ⟨.glbLc, 0, 2⟩
-- GLB_CHMAP_STAGE: R32
abbrev GLB_CHMAP_STAGE_RD_IDX : Fld := ⟨.glbChmapStage, 8, 6⟩
abbrev GLB_CHMAP_STAGE_DRV_IDX : Fld := ⟨.glbChmapStage, 0, 6⟩
-- GLB_CHMAP_CTRL: R34
abbrev GLB_CHMAP_CTRL_APPLY_COUNT : Fld := ⟨.glbChmapCtrl, 32, 16⟩
abbrev GLB_CHMAP_CTRL_DUP_ENTRY : Fld := ⟨.glbChmapCtrl, 8, 6⟩
abbrev GLB_CHMAP_CTRL_STATUS : Fld := ⟨.glbChmapCtrl, 4, 4⟩
abbrev GLB_CHMAP_CTRL_APPLY : Fld := ⟨.glbChmapCtrl, 0, 1⟩
-- GLB_CHMAP_ACT: R33
abbrev GLB_CHMAP_ACT_RD_IDX : Fld := ⟨.glbChmapAct, 8, 6⟩
abbrev GLB_CHMAP_ACT_DRV_IDX : Fld := ⟨.glbChmapAct, 0, 6⟩
-- TIM_REF_CFG: R77
abbrev TIM_REF_CFG_REFOUT_EN : Fld := ⟨.timRefCfg, 6, 1⟩
abbrev TIM_REF_CFG_CLEAN_100 : Fld := ⟨.timRefCfg, 5, 1⟩
abbrev TIM_REF_CFG_REF_SEL : Fld := ⟨.timRefCfg, 0, 2⟩
-- TIM_STATUS: R78
abbrev TIM_STATUS_DL_COLLIDE : Fld := ⟨.timStatus, 11, 1⟩
abbrev TIM_STATUS_LOAD_REFUSED : Fld := ⟨.timStatus, 10, 1⟩
abbrev TIM_STATUS_MSYNC_MARGIN_LOW : Fld := ⟨.timStatus, 9, 1⟩
abbrev TIM_STATUS_REF_LOST : Fld := ⟨.timStatus, 8, 1⟩
abbrev TIM_STATUS_REF_MISMATCH : Fld := ⟨.timStatus, 7, 1⟩
abbrev TIM_STATUS_HOLDOVER : Fld := ⟨.timStatus, 5, 1⟩
abbrev TIM_STATUS_ALIGNED : Fld := ⟨.timStatus, 4, 1⟩
abbrev TIM_STATUS_SCLK_LOCK : Fld := ⟨.timStatus, 3, 1⟩
abbrev TIM_STATUS_CLEAN_LOCK : Fld := ⟨.timStatus, 2, 1⟩
abbrev TIM_STATUS_REF_IS_10M : Fld := ⟨.timStatus, 1, 1⟩
abbrev TIM_STATUS_REF_PRESENT : Fld := ⟨.timStatus, 0, 1⟩
-- TIM_NOW: R79
abbrev TIM_NOW_NOW : Fld := ⟨.timNow, 0, 64⟩
-- TIM_MSYNC_CTRL: R80
abbrev TIM_MSYNC_CTRL_COMP : Fld := ⟨.timMsyncCtrl, 32, 16⟩
abbrev TIM_MSYNC_CTRL_OUT_MODE : Fld := ⟨.timMsyncCtrl, 10, 2⟩
abbrev TIM_MSYNC_CTRL_ARM : Fld := ⟨.timMsyncCtrl, 4, 2⟩
abbrev TIM_MSYNC_CTRL_SOFT : Fld := ⟨.timMsyncCtrl, 0, 1⟩
-- TIM_MSYNC_LOAD: R79
abbrev TIM_MSYNC_LOAD_LOAD : Fld := ⟨.timMsyncLoad, 0, 64⟩
-- TIM_MSYNC_OUT_AT: R79
abbrev TIM_MSYNC_OUT_AT_OUT_AT : Fld := ⟨.timMsyncOutAt, 0, 64⟩
-- TIM_MSYNC_CAPT: R79
abbrev TIM_MSYNC_CAPT_CAP_TICK : Fld := ⟨.timMsyncCapt, 0, 64⟩
-- TIM_MSYNC_CAPI: R81
abbrev TIM_MSYNC_CAPI_MARGIN : Fld := ⟨.timMsyncCapi, 8, 8⟩
abbrev TIM_MSYNC_CAPI_FRAC : Fld := ⟨.timMsyncCapi, 4, 4⟩
abbrev TIM_MSYNC_CAPI_LOADED : Fld := ⟨.timMsyncCapi, 1, 1⟩
abbrev TIM_MSYNC_CAPI_VALID : Fld := ⟨.timMsyncCapi, 0, 1⟩
-- TIM_DL_POLICY: R82
abbrev TIM_DL_POLICY_POLICY_0 : Fld := ⟨.timDlPolicy, 0, 2⟩
abbrev TIM_DL_POLICY_POLICY_1 : Fld := ⟨.timDlPolicy, 2, 2⟩
abbrev TIM_DL_POLICY_POLICY_2 : Fld := ⟨.timDlPolicy, 4, 2⟩
abbrev TIM_DL_POLICY_POLICY_3 : Fld := ⟨.timDlPolicy, 6, 2⟩
abbrev TIM_DL_POLICY_POLICY_4 : Fld := ⟨.timDlPolicy, 8, 2⟩
abbrev TIM_DL_POLICY_POLICY_5 : Fld := ⟨.timDlPolicy, 10, 2⟩
-- TIM_DL_MISS: R82
abbrev TIM_DL_MISS_RANGE_COUNT : Fld := ⟨.timDlMiss, 32, 16⟩
abbrev TIM_DL_MISS_MISS_COUNT : Fld := ⟨.timDlMiss, 0, 32⟩
-- TIM_DTRIM: R83
abbrev TIM_DTRIM_DLY : Fld := ⟨.timDtrim, 0, 8⟩
-- TIM_ATRIM: R83
abbrev TIM_ATRIM_DLY : Fld := ⟨.timAtrim, 0, 7⟩
-- HIF_LINK: R473
abbrev HIF_LINK_UP : Fld := ⟨.hifLink, 16, 1⟩
abbrev HIF_LINK_WIDTH : Fld := ⟨.hifLink, 4, 6⟩
abbrev HIF_LINK_SPEED : Fld := ⟨.hifLink, 0, 4⟩
-- HIF_GSTAT: R473
abbrev HIF_GSTAT_OWN_IDX : Fld := ⟨.hifGstat, 32, 8⟩
abbrev HIF_GSTAT_NUMVF : Fld := ⟨.hifGstat, 8, 4⟩
abbrev HIF_GSTAT_OWN_REFUSED : Fld := ⟨.hifGstat, 1, 1⟩
-- HIF_OWN: R473
abbrev HIF_OWN_OWNER_0 : Fld := ⟨.hifOwn, 0, 4⟩
abbrev HIF_OWN_OWNER_1 : Fld := ⟨.hifOwn, 4, 4⟩
abbrev HIF_OWN_OWNER_2 : Fld := ⟨.hifOwn, 8, 4⟩
abbrev HIF_OWN_OWNER_3 : Fld := ⟨.hifOwn, 12, 4⟩
abbrev HIF_OWN_OWNER_4 : Fld := ⟨.hifOwn, 16, 4⟩
abbrev HIF_OWN_OWNER_5 : Fld := ⟨.hifOwn, 20, 4⟩
abbrev HIF_OWN_OWNER_6 : Fld := ⟨.hifOwn, 24, 4⟩
abbrev HIF_OWN_OWNER_7 : Fld := ⟨.hifOwn, 28, 4⟩
abbrev HIF_OWN_OWNER_8 : Fld := ⟨.hifOwn, 32, 4⟩
abbrev HIF_OWN_OWNER_9 : Fld := ⟨.hifOwn, 36, 4⟩
abbrev HIF_OWN_OWNER_10 : Fld := ⟨.hifOwn, 40, 4⟩
abbrev HIF_OWN_OWNER_11 : Fld := ⟨.hifOwn, 44, 4⟩
abbrev HIF_OWN_OWNER_12 : Fld := ⟨.hifOwn, 48, 4⟩
abbrev HIF_OWN_OWNER_13 : Fld := ⟨.hifOwn, 52, 4⟩
abbrev HIF_OWN_OWNER_14 : Fld := ⟨.hifOwn, 56, 4⟩
abbrev HIF_OWN_OWNER_15 : Fld := ⟨.hifOwn, 60, 4⟩
-- HIF_FCTRL: R474
abbrev HIF_FCTRL_SUMMARY_EN : Fld := ⟨.hifFctrl, 1, 1⟩
abbrev HIF_FCTRL_EN : Fld := ⟨.hifFctrl, 0, 1⟩
-- HIF_FSTAT: R474
abbrev HIF_FSTAT_DISCARDS : Fld := ⟨.hifFstat, 32, 32⟩
abbrev HIF_FSTAT_DRAM_DENIED : Fld := ⟨.hifFstat, 7, 1⟩
abbrev HIF_FSTAT_ENV_DENIED : Fld := ⟨.hifFstat, 6, 1⟩
abbrev HIF_FSTAT_DMA_ERR : Fld := ⟨.hifFstat, 5, 1⟩
abbrev HIF_FSTAT_ACCESS_DENIED : Fld := ⟨.hifFstat, 4, 1⟩
abbrev HIF_FSTAT_RING_ERR : Fld := ⟨.hifFstat, 3, 1⟩
abbrev HIF_FSTAT_SWEEP : Fld := ⟨.hifFstat, 2, 1⟩
abbrev HIF_FSTAT_FLUSHING : Fld := ⟨.hifFstat, 1, 1⟩
abbrev HIF_FSTAT_ACTIVE : Fld := ⟨.hifFstat, 0, 1⟩
-- HIF_IRQMAP: R474
abbrev HIF_IRQMAP_EN_0 : Fld := ⟨.hifIrqmap, 7, 1⟩
abbrev HIF_IRQMAP_EN_1 : Fld := ⟨.hifIrqmap, 15, 1⟩
abbrev HIF_IRQMAP_EN_2 : Fld := ⟨.hifIrqmap, 23, 1⟩
abbrev HIF_IRQMAP_EN_3 : Fld := ⟨.hifIrqmap, 31, 1⟩
abbrev HIF_IRQMAP_EN_4 : Fld := ⟨.hifIrqmap, 39, 1⟩
abbrev HIF_IRQMAP_EN_5 : Fld := ⟨.hifIrqmap, 47, 1⟩
abbrev HIF_IRQMAP_EN_6 : Fld := ⟨.hifIrqmap, 55, 1⟩
abbrev HIF_IRQMAP_VEC_0 : Fld := ⟨.hifIrqmap, 0, 7⟩
abbrev HIF_IRQMAP_VEC_1 : Fld := ⟨.hifIrqmap, 8, 7⟩
abbrev HIF_IRQMAP_VEC_2 : Fld := ⟨.hifIrqmap, 16, 7⟩
abbrev HIF_IRQMAP_VEC_3 : Fld := ⟨.hifIrqmap, 24, 7⟩
abbrev HIF_IRQMAP_VEC_4 : Fld := ⟨.hifIrqmap, 32, 7⟩
abbrev HIF_IRQMAP_VEC_5 : Fld := ⟨.hifIrqmap, 40, 7⟩
abbrev HIF_IRQMAP_VEC_6 : Fld := ⟨.hifIrqmap, 48, 7⟩
-- HIF_SPART: R474
abbrev HIF_SPART_SIZE : Fld := ⟨.hifSpart, 32, 16⟩
abbrev HIF_SPART_BASE : Fld := ⟨.hifSpart, 0, 8⟩
-- HIF_DPART: R474
abbrev HIF_DPART_SIZE : Fld := ⟨.hifDpart, 32, 16⟩
abbrev HIF_DPART_BASE : Fld := ⟨.hifDpart, 0, 9⟩
-- HIF_RBASE: R475
abbrev HIF_RBASE_ADDR : Fld := ⟨.hifRbase, 12, 52⟩
-- HIF_RCFG: R475
abbrev HIF_RCFG_EN : Fld := ⟨.hifRcfg, 31, 1⟩
abbrev HIF_RCFG_LOG2N : Fld := ⟨.hifRcfg, 16, 4⟩
abbrev HIF_RCFG_MODER : Fld := ⟨.hifRcfg, 0, 16⟩
-- HIF_AP: R474
abbrev HIF_AP_EN : Fld := ⟨.hifAp, 31, 1⟩
abbrev HIF_AP_PAGE : Fld := ⟨.hifAp, 0, 10⟩
-- EVF_STATUS: R442
abbrev EVF_STATUS_QUOTA_ERR : Fld := ⟨.evfStatus, 1, 1⟩
abbrev EVF_STATUS_LOOP : Fld := ⟨.evfStatus, 0, 1⟩
-- EVF_FIRE: R442
abbrev EVF_FIRE_CH : Fld := ⟨.evfFire, 0, 8⟩
-- EVF_FSTAT: R442
abbrev EVF_FSTAT_LOG_LOST : Fld := ⟨.evfFstat, 32, 32⟩
abbrev EVF_FSTAT_MAP_REFUSED : Fld := ⟨.evfFstat, 2, 1⟩
abbrev EVF_FSTAT_FIRE_REFUSED : Fld := ⟨.evfFstat, 1, 1⟩
-- EVF_LOGQ: R442
abbrev EVF_LOGQ_FILL : Fld := ⟨.evfLogq, 16, 11⟩
abbrev EVF_LOGQ_QUOTA : Fld := ⟨.evfLogq, 0, 11⟩
-- EVF_SRCMAP: R442
abbrev EVF_SRCMAP_EN : Fld := ⟨.evfSrcmap, 31, 1⟩
abbrev EVF_SRCMAP_CH : Fld := ⟨.evfSrcmap, 0, 8⟩
-- EVF_LINK: R442
abbrev EVF_LINK_DELAY : Fld := ⟨.evfLink, 32, 16⟩
abbrev EVF_LINK_EN : Fld := ⟨.evfLink, 31, 1⟩
abbrev EVF_LINK_LOOP : Fld := ⟨.evfLink, 30, 1⟩
abbrev EVF_LINK_OVF : Fld := ⟨.evfLink, 29, 1⟩
abbrev EVF_LINK_DST : Fld := ⟨.evfLink, 8, 8⟩
abbrev EVF_LINK_SRC : Fld := ⟨.evfLink, 0, 8⟩
-- EVF_CHCFG: R442
abbrev EVF_CHCFG_EN : Fld := ⟨.evfChcfg, 31, 1⟩
abbrev EVF_CHCFG_OKIND : Fld := ⟨.evfChcfg, 20, 2⟩
abbrev EVF_CHCFG_OIDX : Fld := ⟨.evfChcfg, 16, 4⟩
abbrev EVF_CHCFG_SEC : Fld := ⟨.evfChcfg, 8, 2⟩
abbrev EVF_CHCFG_IRQ : Fld := ⟨.evfChcfg, 1, 1⟩
abbrev EVF_CHCFG_LOG : Fld := ⟨.evfChcfg, 0, 1⟩
-- EVF_CHSTAT: R442
abbrev EVF_CHSTAT_PUBLISHED : Fld := ⟨.evfChstat, 32, 32⟩
abbrev EVF_CHSTAT_DROPS : Fld := ⟨.evfChstat, 16, 16⟩
abbrev EVF_CHSTAT_DENIED : Fld := ⟨.evfChstat, 1, 1⟩
abbrev EVF_CHSTAT_LOOP : Fld := ⟨.evfChstat, 0, 1⟩
-- EVF_TIN: R442
abbrev EVF_TIN_CCOUNT : Fld := ⟨.evfTin, 48, 16⟩
abbrev EVF_TIN_ACTS : Fld := ⟨.evfTin, 16, 32⟩
abbrev EVF_TIN_COINC : Fld := ⟨.evfTin, 0, 1⟩
-- CNT_CTRL: R443
abbrev CNT_CTRL_PERIOD : Fld := ⟨.cntCtrl, 32, 32⟩
abbrev CNT_CTRL_SNAP : Fld := ⟨.cntCtrl, 1, 1⟩
abbrev CNT_CTRL_DUMP_EN : Fld := ⟨.cntCtrl, 0, 1⟩
-- CNT_STATUS: R443
abbrev CNT_STATUS_DUMP_SEQ : Fld := ⟨.cntStatus, 48, 16⟩
abbrev CNT_STATUS_LAST_SNAP : Fld := ⟨.cntStatus, 0, 48⟩
-- CNT_FSTAT: R443
abbrev CNT_FSTAT_DUMP_MISS : Fld := ⟨.cntFstat, 16, 16⟩
abbrev CNT_FSTAT_SEL_DENIED : Fld := ⟨.cntFstat, 0, 1⟩
-- CNT_CFG: R443
abbrev CNT_CFG_EN : Fld := ⟨.cntCfg, 31, 1⟩
abbrev CNT_CFG_OWNER : Fld := ⟨.cntCfg, 24, 4⟩
abbrev CNT_CFG_MODE : Fld := ⟨.cntCfg, 16, 2⟩
abbrev CNT_CFG_SEL : Fld := ⟨.cntCfg, 0, 12⟩
-- CNT_VAL: R443
abbrev CNT_VAL_WRAP : Fld := ⟨.cntVal, 48, 1⟩
abbrev CNT_VAL_VALUE : Fld := ⟨.cntVal, 0, 48⟩
-- MEM_DCTRL: R498
abbrev MEM_DCTRL_SCRUB_H : Fld := ⟨.memDctrl, 16, 16⟩
abbrev MEM_DCTRL_PASR : Fld := ⟨.memDctrl, 2, 2⟩
abbrev MEM_DCTRL_TRAINED : Fld := ⟨.memDctrl, 0, 1⟩
-- MEM_DSTAT: R498
abbrev MEM_DSTAT_RETRAINS : Fld := ⟨.memDstat, 48, 16⟩
abbrev MEM_DSTAT_TFAULT : Fld := ⟨.memDstat, 32, 8⟩
abbrev MEM_DSTAT_DLY_REFUSED : Fld := ⟨.memDstat, 5, 1⟩
abbrev MEM_DSTAT_SWEEP_BUSY : Fld := ⟨.memDstat, 4, 1⟩
abbrev MEM_DSTAT_DRAM_READY : Fld := ⟨.memDstat, 3, 1⟩
abbrev MEM_DSTAT_SELF_REFRESH : Fld := ⟨.memDstat, 2, 1⟩
-- MEM_TRAIN: R499
abbrev MEM_TRAIN_ERRCNT : Fld := ⟨.memTrain, 32, 16⟩
abbrev MEM_TRAIN_RUN : Fld := ⟨.memTrain, 31, 1⟩
abbrev MEM_TRAIN_BUSY : Fld := ⟨.memTrain, 30, 1⟩
abbrev MEM_TRAIN_DLY : Fld := ⟨.memTrain, 16, 9⟩
abbrev MEM_TRAIN_DIR : Fld := ⟨.memTrain, 8, 1⟩
abbrev MEM_TRAIN_BYTE : Fld := ⟨.memTrain, 4, 2⟩
abbrev MEM_TRAIN_CH : Fld := ⟨.memTrain, 0, 3⟩
-- MEM_SLOAD: R498
abbrev MEM_SLOAD_OVERBUDGET : Fld := ⟨.memSload, 31, 1⟩
abbrev MEM_SLOAD_PEAK : Fld := ⟨.memSload, 16, 9⟩
abbrev MEM_SLOAD_LOAD : Fld := ⟨.memSload, 0, 9⟩
-- MEM_DDLY: R499
abbrev MEM_DDLY_WR_ACT : Fld := ⟨.memDdly, 48, 9⟩
abbrev MEM_DDLY_RD_ACT : Fld := ⟨.memDdly, 32, 9⟩
abbrev MEM_DDLY_WR_DLY : Fld := ⟨.memDdly, 16, 9⟩
abbrev MEM_DDLY_RD_DLY : Fld := ⟨.memDdly, 0, 9⟩
-- MEM_PANIC: R500
abbrev MEM_PANIC_PANIC_TICKS : Fld := ⟨.memPanic, 32, 32⟩
abbrev MEM_PANIC_PANIC : Fld := ⟨.memPanic, 31, 1⟩
abbrev MEM_PANIC_LEVEL : Fld := ⟨.memPanic, 0, 17⟩
-- MEM_ECC: R500
abbrev MEM_ECC_CORR_COUNT : Fld := ⟨.memEcc, 48, 16⟩
abbrev MEM_ECC_POISON_COUNT : Fld := ⟨.memEcc, 32, 16⟩
abbrev MEM_ECC_LAST_WORD : Fld := ⟨.memEcc, 0, 32⟩
-- LNK_GCFG: R528
abbrev LNK_GCFG_MODNUM : Fld := ⟨.lnkGcfg, 0, 6⟩
-- LNK_PEERS: R528
abbrev LNK_PEERS_PEERS : Fld := ⟨.lnkPeers, 0, 64⟩
-- LNK_PCFG: R528
abbrev LNK_PCFG_LT : Fld := ⟨.lnkPcfg, 24, 8⟩
abbrev LNK_PCFG_FOM_MIN : Fld := ⟨.lnkPcfg, 16, 8⟩
abbrev LNK_PCFG_RXPARAM_EN : Fld := ⟨.lnkPcfg, 9, 1⟩
abbrev LNK_PCFG_RAWPAT : Fld := ⟨.lnkPcfg, 8, 1⟩
abbrev LNK_PCFG_MODE : Fld := ⟨.lnkPcfg, 4, 2⟩
abbrev LNK_PCFG_EN : Fld := ⟨.lnkPcfg, 0, 1⟩
-- LNK_PSTAT: R528
abbrev LNK_PSTAT_LT_MIN : Fld := ⟨.lnkPstat, 48, 8⟩
abbrev LNK_PSTAT_PEER_MOD : Fld := ⟨.lnkPstat, 42, 6⟩
abbrev LNK_PSTAT_MODNUM_CLASH : Fld := ⟨.lnkPstat, 7, 1⟩
abbrev LNK_PSTAT_LT_SHORT : Fld := ⟨.lnkPstat, 6, 1⟩
abbrev LNK_PSTAT_XVALID : Fld := ⟨.lnkPstat, 5, 1⟩
abbrev LNK_PSTAT_STATE : Fld := ⟨.lnkPstat, 0, 3⟩
-- LNK_XCH: R528
abbrev LNK_XCH_OFS : Fld := ⟨.lnkXch, 12, 52⟩
abbrev LNK_XCH_DELAY : Fld := ⟨.lnkXch, 0, 12⟩
-- LNK_CNT: R528
abbrev LNK_CNT_BIP_ERR : Fld := ⟨.lnkCnt, 48, 16⟩
abbrev LNK_CNT_CHK_ERR : Fld := ⟨.lnkCnt, 32, 16⟩
abbrev LNK_CNT_RX_DROP : Fld := ⟨.lnkCnt, 16, 16⟩
abbrev LNK_CNT_PARAM_REF : Fld := ⟨.lnkCnt, 0, 16⟩
-- LNK_FBUF: R528
abbrev LNK_FBUF_BASE : Fld := ⟨.lnkFbuf, 40, 24⟩
abbrev LNK_FBUF_LOG2SZ : Fld := ⟨.lnkFbuf, 32, 5⟩
-- LNK_FPTR: R528
abbrev LNK_FPTR_PROD : Fld := ⟨.lnkFptr, 32, 32⟩
abbrev LNK_FPTR_CONS : Fld := ⟨.lnkFptr, 0, 32⟩
-- LNK_LANE: R528
abbrev LNK_LANE_FOM : Fld := ⟨.lnkLane, 32, 8⟩
abbrev LNK_LANE_SLIPS : Fld := ⟨.lnkLane, 8, 8⟩
abbrev LNK_LANE_PRBS_ERR : Fld := ⟨.lnkLane, 2, 1⟩
abbrev LNK_LANE_BLOCK_LOCK : Fld := ⟨.lnkLane, 1, 1⟩
abbrev LNK_LANE_SLIP : Fld := ⟨.lnkLane, 0, 1⟩
-- NET_CFG: R529
abbrev NET_CFG_FEC : Fld := ⟨.netCfg, 6, 2⟩
abbrev NET_CFG_RXTS_ALL : Fld := ⟨.netCfg, 5, 1⟩
abbrev NET_CFG_CORR_EN : Fld := ⟨.netCfg, 4, 1⟩
abbrev NET_CFG_SPEED : Fld := ⟨.netCfg, 1, 1⟩
abbrev NET_CFG_EN : Fld := ⟨.netCfg, 0, 1⟩
-- NET_STAT: R529
abbrev NET_STAT_TXTS_DROP : Fld := ⟨.netStat, 48, 16⟩
abbrev NET_STAT_RX_DROP : Fld := ⟨.netStat, 32, 16⟩
abbrev NET_STAT_JUMP_PEND : Fld := ⟨.netStat, 4, 1⟩
abbrev NET_STAT_UNSET : Fld := ⟨.netStat, 3, 1⟩
abbrev NET_STAT_INCR_REFUSED : Fld := ⟨.netStat, 2, 1⟩
abbrev NET_STAT_LINK : Fld := ⟨.netStat, 0, 1⟩
-- NET_TXQ: R529
abbrev NET_TXQ_BASE : Fld := ⟨.netTxq, 32, 32⟩
abbrev NET_TXQ_LOG2N : Fld := ⟨.netTxq, 4, 4⟩
abbrev NET_TXQ_EN : Fld := ⟨.netTxq, 0, 1⟩
-- NET_RXQ: R529
abbrev NET_RXQ_BASE : Fld := ⟨.netRxq, 32, 32⟩
abbrev NET_RXQ_LOG2N : Fld := ⟨.netRxq, 4, 4⟩
abbrev NET_RXQ_EN : Fld := ⟨.netRxq, 0, 1⟩
-- NET_DB: R529
abbrev NET_DB_RX : Fld := ⟨.netDb, 1, 1⟩
abbrev NET_DB_TX : Fld := ⟨.netDb, 0, 1⟩
-- NET_PTP_INCR: R529
abbrev NET_PTP_INCR_INCR : Fld := ⟨.netPtpIncr, 0, 40⟩
-- NET_PTP_NS: R529
abbrev NET_PTP_NS_NS : Fld := ⟨.netPtpNs, 32, 30⟩
abbrev NET_PTP_NS_FRAC : Fld := ⟨.netPtpNs, 0, 32⟩
-- NET_PTP_SEC: R529
abbrev NET_PTP_SEC_SEC : Fld := ⟨.netPtpSec, 0, 64⟩
-- NET_PTP_ADJ: R529
abbrev NET_PTP_ADJ_ADJ : Fld := ⟨.netPtpAdj, 0, 64⟩
-- NET_PTP_CTRL: R529
abbrev NET_PTP_CTRL_JUMP_THR : Fld := ⟨.netPtpCtrl, 0, 32⟩
-- NET_PTP_CTRL2: R529
abbrev NET_PTP_CTRL2_PAIR_CNT : Fld := ⟨.netPtpCtrl2, 3, 16⟩
abbrev NET_PTP_CTRL2_PAIR_AUTO : Fld := ⟨.netPtpCtrl2, 2, 1⟩
abbrev NET_PTP_CTRL2_PAIR : Fld := ⟨.netPtpCtrl2, 1, 1⟩
abbrev NET_PTP_CTRL2_ACCEPT : Fld := ⟨.netPtpCtrl2, 0, 1⟩
-- NET_PAIR_TICK: R529
abbrev NET_PAIR_TICK_TICK : Fld := ⟨.netPairTick, 0, 64⟩
-- NET_PAIR_SEC: R529
abbrev NET_PAIR_SEC_SEC : Fld := ⟨.netPairSec, 0, 64⟩
-- NET_PAIR_NS: R529
abbrev NET_PAIR_NS_NS : Fld := ⟨.netPairNs, 32, 30⟩
abbrev NET_PAIR_NS_FRAC : Fld := ⟨.netPairNs, 0, 32⟩
-- NET_TXTS0: R529
abbrev NET_TXTS0_VALID : Fld := ⟨.netTxts0, 63, 1⟩
abbrev NET_TXTS0_ID : Fld := ⟨.netTxts0, 34, 16⟩
abbrev NET_TXTS0_QNS : Fld := ⟨.netTxts0, 32, 2⟩
abbrev NET_TXTS0_NS : Fld := ⟨.netTxts0, 0, 30⟩
-- NET_TXTS1: R529
abbrev NET_TXTS1_SEC : Fld := ⟨.netTxts1, 0, 64⟩
-- RCV_CTRL: R567
abbrev RCV_CTRL_HB_TMO : Fld := ⟨.rcvCtrl, 24, 8⟩
abbrev RCV_CTRL_PERSIST_MAX : Fld := ⟨.rcvCtrl, 8, 8⟩
abbrev RCV_CTRL_FN_ALL : Fld := ⟨.rcvCtrl, 0, 1⟩
-- RCV_STATUS: R567
abbrev RCV_STATUS_RECOVERIES : Fld := ⟨.rcvStatus, 48, 16⟩
abbrev RCV_STATUS_ISL_BUSY : Fld := ⟨.rcvStatus, 16, 6⟩
abbrev RCV_STATUS_CONTAINED : Fld := ⟨.rcvStatus, 8, 8⟩
abbrev RCV_STATUS_TIMING : Fld := ⟨.rcvStatus, 2, 1⟩
abbrev RCV_STATUS_TILE_OFF : Fld := ⟨.rcvStatus, 0, 2⟩
-- RCV_LOG: R568
abbrev RCV_LOG_TICK : Fld := ⟨.rcvLog, 16, 48⟩
abbrev RCV_LOG_INDEX : Fld := ⟨.rcvLog, 8, 6⟩
abbrev RCV_LOG_CAUSE : Fld := ⟨.rcvLog, 0, 8⟩
-- RCV_LOGPTR: R568
abbrev RCV_LOGPTR_TOTAL : Fld := ⟨.rcvLogptr, 4, 16⟩
abbrev RCV_LOGPTR_NEXT : Fld := ⟨.rcvLogptr, 0, 4⟩
-- RCV_RCTL: R569
abbrev RCV_RCTL_RESUME : Fld := ⟨.rcvRctl, 2, 1⟩
abbrev RCV_RCTL_RELEASE : Fld := ⟨.rcvRctl, 1, 1⟩
abbrev RCV_RCTL_HOLD : Fld := ⟨.rcvRctl, 0, 1⟩
-- RCV_RSTAT: R569
abbrev RCV_RSTAT_FAULTS : Fld := ⟨.rcvRstat, 32, 32⟩
abbrev RCV_RSTAT_HELD_MSGS : Fld := ⟨.rcvRstat, 16, 16⟩
abbrev RCV_RSTAT_PERSIST : Fld := ⟨.rcvRstat, 3, 1⟩
abbrev RCV_RSTAT_STATE : Fld := ⟨.rcvRstat, 0, 2⟩
-- RCV_RESUME: R569
abbrev RCV_RESUME_VALID : Fld := ⟨.rcvResume, 31, 1⟩
abbrev RCV_RESUME_PC : Fld := ⟨.rcvResume, 0, 12⟩
-- CAL_CTRL: R546
abbrev CAL_CTRL_BPER : Fld := ⟨.calCtrl, 24, 8⟩
abbrev CAL_CTRL_FPER : Fld := ⟨.calCtrl, 16, 8⟩
abbrev CAL_CTRL_APER : Fld := ⟨.calCtrl, 8, 8⟩
abbrev CAL_CTRL_RELOAD : Fld := ⟨.calCtrl, 4, 1⟩
abbrev CAL_CTRL_BIAS_EN : Fld := ⟨.calCtrl, 3, 1⟩
abbrev CAL_CTRL_FMOD_EN : Fld := ⟨.calCtrl, 2, 1⟩
abbrev CAL_CTRL_ADC_EN : Fld := ⟨.calCtrl, 1, 1⟩
abbrev CAL_CTRL_DAC_EN : Fld := ⟨.calCtrl, 0, 1⟩
-- CAL_STATUS: R546
abbrev CAL_STATUS_FORCED : Fld := ⟨.calStatus, 32, 16⟩
abbrev CAL_STATUS_FSTARVED : Fld := ⟨.calStatus, 16, 2⟩
abbrev CAL_STATUS_ASTARVED : Fld := ⟨.calStatus, 0, 16⟩
-- CAL_ROT: R546
abbrev CAL_ROT_HANDOVERS : Fld := ⟨.calRot, 48, 16⟩
abbrev CAL_ROT_FORCED : Fld := ⟨.calRot, 32, 16⟩
abbrev CAL_ROT_PER_MS : Fld := ⟨.calRot, 8, 16⟩
abbrev CAL_ROT_PHASE : Fld := ⟨.calRot, 4, 3⟩
abbrev CAL_ROT_CUR : Fld := ⟨.calRot, 0, 3⟩
-- CAL_ACTL: R547
abbrev CAL_ACTL_STEPS : Fld := ⟨.calActl, 32, 8⟩
abbrev CAL_ACTL_FORCE_EN : Fld := ⟨.calActl, 1, 1⟩
abbrev CAL_ACTL_EN : Fld := ⟨.calActl, 0, 1⟩
-- CAL_ACOEF: R547
abbrev CAL_ACOEF_GAIN : Fld := ⟨.calAcoef, 32, 16⟩
abbrev CAL_ACOEF_OFFSET : Fld := ⟨.calAcoef, 16, 16⟩
abbrev CAL_ACOEF_TSKEW : Fld := ⟨.calAcoef, 0, 8⟩
-- CAL_DCOEF: R547
abbrev CAL_DCOEF_GAIN : Fld := ⟨.calDcoef, 32, 16⟩
abbrev CAL_DCOEF_OFFSET : Fld := ⟨.calDcoef, 16, 16⟩
abbrev CAL_DCOEF_TSKEW : Fld := ⟨.calDcoef, 0, 8⟩
-- CAL_GCAL: R547
abbrev CAL_GCAL_GCAL : Fld := ⟨.calGcal, 0, 16⟩
-- CAL_FMOD: R547
abbrev CAL_FMOD_GAIN : Fld := ⟨.calFmod, 32, 16⟩
abbrev CAL_FMOD_OFFSET : Fld := ⟨.calFmod, 16, 16⟩
abbrev CAL_FMOD_FORCE_EN : Fld := ⟨.calFmod, 9, 1⟩
abbrev CAL_FMOD_GAP_EN : Fld := ⟨.calFmod, 8, 1⟩
abbrev CAL_FMOD_GAP_AFTER : Fld := ⟨.calFmod, 0, 7⟩
-- CAL_BIAS: R547
abbrev CAL_BIAS_AUTO : Fld := ⟨.calBias, 0, 64⟩
-- GOV_CTRL: R339
abbrev GOV_CTRL_LOCK : Fld := ⟨.govCtrl, 0, 1⟩
-- GOV_WIN: R339
abbrev GOV_WIN_LBIN : Fld := ⟨.govWin, 32, 26⟩
abbrev GOV_WIN_SBIN : Fld := ⟨.govWin, 0, 12⟩
-- GOV_STATUS: R339
abbrev GOV_STATUS_POOL_FB : Fld := ⟨.govStatus, 4, 4⟩
abbrev GOV_STATUS_WIN_REFUSED : Fld := ⟨.govStatus, 2, 1⟩
abbrev GOV_STATUS_WR_LOCKED : Fld := ⟨.govStatus, 1, 1⟩
abbrev GOV_STATUS_LOCKED : Fld := ⟨.govStatus, 0, 1⟩
-- GOV_BUDS: R340
abbrev GOV_BUDS_BUD : Fld := ⟨.govBuds, 0, 64⟩
-- GOV_BUDL: R340
abbrev GOV_BUDL_BUD : Fld := ⟨.govBudl, 0, 64⟩
-- GOV_CEILS: R340
abbrev GOV_CEILS_CEIL : Fld := ⟨.govCeils, 0, 64⟩
-- GOV_CEILL: R340
abbrev GOV_CEILL_CEIL : Fld := ⟨.govCeill, 0, 64⟩
-- GOV_TALS: R340
abbrev GOV_TALS_TAL : Fld := ⟨.govTals, 0, 64⟩
-- GOV_TALL: R340
abbrev GOV_TALL_TAL : Fld := ⟨.govTall, 0, 64⟩
-- GOV_LCFG: R340
abbrev GOV_LCFG_STAGE : Fld := ⟨.govLcfg, 28, 2⟩
abbrev GOV_LCFG_PCOH : Fld := ⟨.govLcfg, 20, 6⟩
abbrev GOV_LCFG_SCALE_MIN : Fld := ⟨.govLcfg, 9, 9⟩
abbrev GOV_LCFG_POOL : Fld := ⟨.govLcfg, 8, 1⟩
abbrev GOV_LCFG_ACT : Fld := ⟨.govLcfg, 0, 2⟩
-- GOV_LCNT: R340
abbrev GOV_LCNT_MUTES : Fld := ⟨.govLcnt, 48, 16⟩
abbrev GOV_LCNT_VETOES : Fld := ⟨.govLcnt, 32, 16⟩
abbrev GOV_LCNT_SCALES : Fld := ⟨.govLcnt, 16, 16⟩
abbrev GOV_LCNT_GG : Fld := ⟨.govLcnt, 0, 9⟩
-- GOV_ALLOT: R340
abbrev GOV_ALLOT_ALLOT : Fld := ⟨.govAllot, 0, 64⟩
-- GOV_BLOAD: R341
abbrev GOV_BLOAD_L_NH : Fld := ⟨.govBload, 32, 32⟩
abbrev GOV_BLOAD_R_MOHM : Fld := ⟨.govBload, 0, 32⟩
-- GOV_BLIM: R341
abbrev GOV_BLIM_EMAX_NJ : Fld := ⟨.govBlim, 32, 32⟩
abbrev GOV_BLIM_VMAX_MV : Fld := ⟨.govBlim, 16, 16⟩
-- GOV_BSLEW: R341
abbrev GOV_BSLEW_SLEW : Fld := ⟨.govBslew, 0, 32⟩
-- GOV_BSTAT: R341
abbrev GOV_BSTAT_CFG_ERR : Fld := ⟨.govBstat, 2, 1⟩
abbrev GOV_BSTAT_IMM_DENIED : Fld := ⟨.govBstat, 1, 1⟩
abbrev GOV_BSTAT_CLAMP : Fld := ⟨.govBstat, 0, 1⟩
-- FRN_CTRL: R391
abbrev FRN_CTRL_LPER : Fld := ⟨.frnCtrl, 16, 16⟩
abbrev FRN_CTRL_TRIG_CH : Fld := ⟨.frnCtrl, 8, 8⟩
abbrev FRN_CTRL_TRIG_EN : Fld := ⟨.frnCtrl, 1, 1⟩
abbrev FRN_CTRL_SOFT_TRIG : Fld := ⟨.frnCtrl, 0, 1⟩
-- FRN_STATUS: R391
abbrev FRN_STATUS_TRIG_DROP : Fld := ⟨.frnStatus, 48, 16⟩
abbrev FRN_STATUS_EVQ_DROP : Fld := ⟨.frnStatus, 32, 16⟩
abbrev FRN_STATUS_RISE : Fld := ⟨.frnStatus, 6, 1⟩
abbrev FRN_STATUS_RULE_FAULT : Fld := ⟨.frnStatus, 5, 1⟩
abbrev FRN_STATUS_FAST_REFUSED : Fld := ⟨.frnStatus, 4, 1⟩
abbrev FRN_STATUS_SEQ_REFUSED : Fld := ⟨.frnStatus, 3, 1⟩
abbrev FRN_STATUS_TQPEND : Fld := ⟨.frnStatus, 1, 1⟩
abbrev FRN_STATUS_TRIG_BUSY : Fld := ⟨.frnStatus, 0, 1⟩
-- FRN_TIME: R391
abbrev FRN_TIME_FTIME : Fld := ⟨.frnTime, 0, 48⟩
-- FRN_THERM: R391
abbrev FRN_THERM_RISE_LIM : Fld := ⟨.frnTherm, 32, 16⟩
abbrev FRN_THERM_SHDN_SRC : Fld := ⟨.frnTherm, 16, 4⟩
abbrev FRN_THERM_RISE_SHDN : Fld := ⟨.frnTherm, 1, 1⟩
abbrev FRN_THERM_SHDN : Fld := ⟨.frnTherm, 0, 1⟩
-- FRN_WAKE: R391
abbrev FRN_WAKE_INDEX : Fld := ⟨.frnWake, 8, 8⟩
abbrev FRN_WAKE_LAST_SRC : Fld := ⟨.frnWake, 0, 3⟩
-- FRN_SEQ: R392
abbrev FRN_SEQ_POSTDLY : Fld := ⟨.frnSeq, 32, 16⟩
abbrev FRN_SEQ_REPEAT : Fld := ⟨.frnSeq, 24, 8⟩
abbrev FRN_SEQ_EN : Fld := ⟨.frnSeq, 23, 1⟩
abbrev FRN_SEQ_TRIG : Fld := ⟨.frnSeq, 22, 1⟩
abbrev FRN_SEQ_MOD : Fld := ⟨.frnSeq, 21, 1⟩
abbrev FRN_SEQ_FILT : Fld := ⟨.frnSeq, 20, 1⟩
abbrev FRN_SEQ_REV : Fld := ⟨.frnSeq, 19, 1⟩
abbrev FRN_SEQ_EXC : Fld := ⟨.frnSeq, 16, 3⟩
abbrev FRN_SEQ_RATE : Fld := ⟨.frnSeq, 12, 4⟩
abbrev FRN_SEQ_GAIN : Fld := ⟨.frnSeq, 8, 3⟩
abbrev FRN_SEQ_INPUT : Fld := ⟨.frnSeq, 0, 8⟩
-- FRN_RES: R392
abbrev FRN_RES_SEQCNT : Fld := ⟨.frnRes, 32, 8⟩
abbrev FRN_RES_READY : Fld := ⟨.frnRes, 25, 1⟩
abbrev FRN_RES_OVR : Fld := ⟨.frnRes, 24, 1⟩
abbrev FRN_RES_CODE : Fld := ⟨.frnRes, 0, 24⟩
-- FRN_CMP: R393
abbrev FRN_CMP_LMODE : Fld := ⟨.frnCmp, 37, 1⟩
abbrev FRN_CMP_WAKE_EN : Fld := ⟨.frnCmp, 36, 1⟩
abbrev FRN_CMP_EDGE : Fld := ⟨.frnCmp, 33, 3⟩
abbrev FRN_CMP_SEL : Fld := ⟨.frnCmp, 32, 1⟩
abbrev FRN_CMP_MODE : Fld := ⟨.frnCmp, 30, 2⟩
abbrev FRN_CMP_HYS : Fld := ⟨.frnCmp, 28, 2⟩
abbrev FRN_CMP_THHI : Fld := ⟨.frnCmp, 16, 10⟩
abbrev FRN_CMP_THLO : Fld := ⟨.frnCmp, 0, 10⟩
-- FRN_CMPS: R393
abbrev FRN_CMPS_LATCH : Fld := ⟨.frnCmps, 2, 3⟩
abbrev FRN_CMPS_STATE : Fld := ⟨.frnCmps, 0, 2⟩
-- FRN_TEMP: R393
abbrev FRN_TEMP_SEQCNT : Fld := ⟨.frnTemp, 32, 8⟩
abbrev FRN_TEMP_RATE : Fld := ⟨.frnTemp, 16, 16⟩
abbrev FRN_TEMP_TEMP : Fld := ⟨.frnTemp, 0, 16⟩
-- FRN_RCFG: R394
abbrev FRN_RCFG_BSET : Fld := ⟨.frnRcfg, 30, 2⟩
abbrev FRN_RCFG_A_SHDN : Fld := ⟨.frnRcfg, 28, 2⟩
abbrev FRN_RCFG_A_FAULT : Fld := ⟨.frnRcfg, 27, 1⟩
abbrev FRN_RCFG_A_RAMP : Fld := ⟨.frnRcfg, 26, 1⟩
abbrev FRN_RCFG_A_WAKE : Fld := ⟨.frnRcfg, 25, 1⟩
abbrev FRN_RCFG_A_EVENT : Fld := ⟨.frnRcfg, 24, 1⟩
abbrev FRN_RCFG_PERSIST : Fld := ⟨.frnRcfg, 20, 4⟩
abbrev FRN_RCFG_AUTO : Fld := ⟨.frnRcfg, 19, 1⟩
abbrev FRN_RCFG_FK : Fld := ⟨.frnRcfg, 16, 3⟩
abbrev FRN_RCFG_CMP : Fld := ⟨.frnRcfg, 12, 2⟩
abbrev FRN_RCFG_EN : Fld := ⟨.frnRcfg, 11, 1⟩
abbrev FRN_RCFG_SRCKIND : Fld := ⟨.frnRcfg, 8, 3⟩
abbrev FRN_RCFG_SRCIDX : Fld := ⟨.frnRcfg, 0, 8⟩
-- FRN_RCOND: R394
abbrev FRN_RCOND_THR2 : Fld := ⟨.frnRcond, 32, 24⟩
abbrev FRN_RCOND_THR1 : Fld := ⟨.frnRcond, 0, 24⟩
-- FRN_RMASK: R394
abbrev FRN_RMASK_MASK : Fld := ⟨.frnRmask, 0, 64⟩
-- FRN_RSTAT: R394
abbrev FRN_RSTAT_FVAL : Fld := ⟨.frnRstat, 8, 24⟩
abbrev FRN_RSTAT_TRUE : Fld := ⟨.frnRstat, 2, 1⟩
abbrev FRN_RSTAT_RELEASE : Fld := ⟨.frnRstat, 1, 1⟩
abbrev FRN_RSTAT_FIRED : Fld := ⟨.frnRstat, 0, 1⟩
-- FRN_BSET: R394
abbrev FRN_BSET_CODE : Fld := ⟨.frnBset, 0, 20⟩
-- BIA_CFG: R362
abbrev BIA_CFG_CLRMODE : Fld := ⟨.biaCfg, 6, 1⟩
abbrev BIA_CFG_SENSE_EN : Fld := ⟨.biaCfg, 4, 1⟩
abbrev BIA_CFG_RANGE : Fld := ⟨.biaCfg, 0, 3⟩
-- BIA_CODE: R362
abbrev BIA_CODE_CODE : Fld := ⟨.biaCode, 0, 20⟩
-- BIA_CLR: R362
abbrev BIA_CLR_CLRCODE : Fld := ⟨.biaClr, 0, 20⟩
-- BIA_TRIM: R362
abbrev BIA_TRIM_TRIM : Fld := ⟨.biaTrim, 0, 16⟩
-- BIA_ACT: R363
abbrev BIA_ACT_OUTCODE : Fld := ⟨.biaAct, 32, 20⟩
abbrev BIA_ACT_TRIM_ACT : Fld := ⟨.biaAct, 16, 16⟩
abbrev BIA_ACT_RANGE_ACT : Fld := ⟨.biaAct, 0, 3⟩
-- BIA_STAT: R363
abbrev BIA_STAT_STALLED : Fld := ⟨.biaStat, 10, 1⟩
abbrev BIA_STAT_COMPLIANCE : Fld := ⟨.biaStat, 9, 1⟩
abbrev BIA_STAT_WEAR_OUT : Fld := ⟨.biaStat, 8, 1⟩
abbrev BIA_STAT_CLR_DROP : Fld := ⟨.biaStat, 7, 1⟩
abbrev BIA_STAT_SENSE_OPEN : Fld := ⟨.biaStat, 6, 1⟩
abbrev BIA_STAT_PRESET_FAIL : Fld := ⟨.biaStat, 5, 1⟩
abbrev BIA_STAT_STATE : Fld := ⟨.biaStat, 0, 4⟩
-- BIA_PCMD: R364
abbrev BIA_PCMD_OP : Fld := ⟨.biaPcmd, 0, 4⟩
-- BIA_PSTAT: R364
abbrev BIA_PSTAT_SEQ : Fld := ⟨.biaPstat, 32, 32⟩
abbrev BIA_PSTAT_BUSY : Fld := ⟨.biaPstat, 7, 1⟩
abbrev BIA_PSTAT_RESULT : Fld := ⟨.biaPstat, 4, 3⟩
abbrev BIA_PSTAT_IN_FORCE : Fld := ⟨.biaPstat, 3, 1⟩
abbrev BIA_PSTAT_B_VALID : Fld := ⟨.biaPstat, 1, 1⟩
abbrev BIA_PSTAT_A_VALID : Fld := ⟨.biaPstat, 0, 1⟩
-- BIA_GLB: R364
abbrev BIA_GLB_CLEAR_ACT : Fld := ⟨.biaGlb, 1, 1⟩
abbrev BIA_GLB_PRESET_DONE : Fld := ⟨.biaGlb, 0, 1⟩
-- TRG_MCMD: R419
abbrev TRG_MCMD_MRK : Fld := ⟨.trgMcmd, 8, 4⟩
abbrev TRG_MCMD_PAT : Fld := ⟨.trgMcmd, 0, 8⟩
-- TRG_XIN: R417
abbrev TRG_XIN_XDROP : Fld := ⟨.trgXin, 48, 16⟩
abbrev TRG_XIN_SKEW : Fld := ⟨.trgXin, 32, 8⟩
abbrev TRG_XIN_DEB : Fld := ⟨.trgXin, 4, 4⟩
abbrev TRG_XIN_LEVEL : Fld := ⟨.trgXin, 2, 1⟩
abbrev TRG_XIN_EDGES : Fld := ⟨.trgXin, 0, 2⟩
-- TRG_GCFG: R417
abbrev TRG_GCFG_HOLD : Fld := ⟨.trgGcfg, 32, 32⟩
abbrev TRG_GCFG_EN : Fld := ⟨.trgGcfg, 24, 1⟩
abbrev TRG_GCFG_HMODE : Fld := ⟨.trgGcfg, 20, 2⟩
abbrev TRG_GCFG_POL : Fld := ⟨.trgGcfg, 19, 1⟩
abbrev TRG_GCFG_QUAL : Fld := ⟨.trgGcfg, 16, 3⟩
abbrev TRG_GCFG_SRCK : Fld := ⟨.trgGcfg, 12, 3⟩
abbrev TRG_GCFG_SRCIDX : Fld := ⟨.trgGcfg, 0, 9⟩
-- TRG_GLEV: R417
abbrev TRG_GLEV_LEVLO : Fld := ⟨.trgGlev, 32, 32⟩
abbrev TRG_GLEV_LEVHI : Fld := ⟨.trgGlev, 0, 32⟩
-- TRG_GTIME: R417
abbrev TRG_GTIME_T2 : Fld := ⟨.trgGtime, 32, 32⟩
abbrev TRG_GTIME_T1 : Fld := ⟨.trgGtime, 0, 32⟩
-- TRG_GSTAT: R417
abbrev TRG_GSTAT_STAMP : Fld := ⟨.trgGstat, 12, 52⟩
abbrev TRG_GSTAT_CFG_REFUSED : Fld := ⟨.trgGstat, 2, 1⟩
abbrev TRG_GSTAT_HOLDING : Fld := ⟨.trgGstat, 1, 1⟩
abbrev TRG_GSTAT_ARMED : Fld := ⟨.trgGstat, 0, 1⟩
-- TRG_CCFG: R418
abbrev TRG_CCFG_TMASK : Fld := ⟨.trgCcfg, 32, 32⟩
abbrev TRG_CCFG_TSELIDX : Fld := ⟨.trgCcfg, 12, 9⟩
abbrev TRG_CCFG_TSELK : Fld := ⟨.trgCcfg, 8, 3⟩
abbrev TRG_CCFG_PORT : Fld := ⟨.trgCcfg, 4, 4⟩
abbrev TRG_CCFG_TMODE : Fld := ⟨.trgCcfg, 2, 1⟩
abbrev TRG_CCFG_MODE : Fld := ⟨.trgCcfg, 0, 2⟩
-- TRG_CBUF: R418
abbrev TRG_CBUF_NSEG : Fld := ⟨.trgCbuf, 32, 8⟩
abbrev TRG_CBUF_NPAGE : Fld := ⟨.trgCbuf, 16, 13⟩
abbrev TRG_CBUF_BASE : Fld := ⟨.trgCbuf, 0, 13⟩
-- TRG_CWIN: R418
abbrev TRG_CWIN_POST : Fld := ⟨.trgCwin, 32, 32⟩
abbrev TRG_CWIN_FLUSH : Fld := ⟨.trgCwin, 16, 16⟩
abbrev TRG_CWIN_PRE : Fld := ⟨.trgCwin, 0, 16⟩
-- TRG_CCMD: R418
abbrev TRG_CCMD_SOFT : Fld := ⟨.trgCcmd, 2, 1⟩
abbrev TRG_CCMD_STOP : Fld := ⟨.trgCcmd, 1, 1⟩
abbrev TRG_CCMD_ARM : Fld := ⟨.trgCcmd, 0, 1⟩
-- TRG_CSTAT: R418
abbrev TRG_CSTAT_TRIG_MISS : Fld := ⟨.trgCstat, 48, 16⟩
abbrev TRG_CSTAT_TRIG_BUSY : Fld := ⟨.trgCstat, 32, 16⟩
abbrev TRG_CSTAT_STATUS : Fld := ⟨.trgCstat, 20, 4⟩
abbrev TRG_CSTAT_OVF : Fld := ⟨.trgCstat, 16, 1⟩
abbrev TRG_CSTAT_FREESEG : Fld := ⟨.trgCstat, 7, 9⟩
abbrev TRG_CSTAT_STATE : Fld := ⟨.trgCstat, 0, 3⟩
-- TRG_MCFG: R419
abbrev TRG_MCFG_SEQ : Fld := ⟨.trgMcfg, 16, 6⟩
abbrev TRG_MCFG_SKEW : Fld := ⟨.trgMcfg, 8, 6⟩
abbrev TRG_MCFG_EN : Fld := ⟨.trgMcfg, 0, 1⟩
-- TRG_MSTAT: R419
abbrev TRG_MSTAT_MRK_REFUSED : Fld := ⟨.trgMstat, 48, 16⟩
abbrev TRG_MSTAT_EDGE_DROP : Fld := ⟨.trgMstat, 32, 16⟩
abbrev TRG_MSTAT_LEVEL : Fld := ⟨.trgMstat, 8, 1⟩
abbrev TRG_MSTAT_LAST_PAT : Fld := ⟨.trgMstat, 0, 8⟩
-- TRG_MTS: R419
abbrev TRG_MTS_FALL : Fld := ⟨.trgMts, 8, 6⟩
abbrev TRG_MTS_RISE : Fld := ⟨.trgMts, 0, 6⟩
-- TRG_PAT: R419
abbrev TRG_PAT_BITS : Fld := ⟨.trgPat, 0, 64⟩
-- TRG_PLEN: R419
abbrev TRG_PLEN_LEN : Fld := ⟨.trgPlen, 0, 5⟩
-- TRG_TCFG: R416
abbrev TRG_TCFG_PREF : Fld := ⟨.trgTcfg, 48, 16⟩
abbrev TRG_TCFG_HOLD : Fld := ⟨.trgTcfg, 32, 16⟩
abbrev TRG_TCFG_SLEWN : Fld := ⟨.trgTcfg, 16, 8⟩
abbrev TRG_TCFG_WIDTH : Fld := ⟨.trgTcfg, 8, 8⟩
abbrev TRG_TCFG_AVG : Fld := ⟨.trgTcfg, 4, 3⟩
abbrev TRG_TCFG_POL : Fld := ⟨.trgTcfg, 2, 1⟩
abbrev TRG_TCFG_SIG : Fld := ⟨.trgTcfg, 1, 1⟩
abbrev TRG_TCFG_EN : Fld := ⟨.trgTcfg, 0, 1⟩
-- TRG_TLEV: R416
abbrev TRG_TLEV_SLEW : Fld := ⟨.trgTlev, 32, 16⟩
abbrev TRG_TLEV_HYS : Fld := ⟨.trgTlev, 16, 16⟩
abbrev TRG_TLEV_LEV : Fld := ⟨.trgTlev, 0, 16⟩
-- TRG_TSTAT: R416
abbrev TRG_TSTAT_STAMP : Fld := ⟨.trgTstat, 12, 52⟩
abbrev TRG_TSTAT_STATE : Fld := ⟨.trgTstat, 0, 2⟩
-- TRG_TCNT: R416
abbrev TRG_TCNT_HITS : Fld := ⟨.trgTcnt, 0, 32⟩
-- DRV_CTRL: R123
abbrev DRV_CTRL_MODE : Fld := ⟨.drvCtrl, 8, 2⟩
abbrev DRV_CTRL_EN : Fld := ⟨.drvCtrl, 0, 1⟩
-- DRV_CNCO: R124
abbrev DRV_CNCO_CNCO : Fld := ⟨.drvCnco, 0, 32⟩
-- DRV_CNCO_ACT: R124
abbrev DRV_CNCO_ACT_CNCO : Fld := ⟨.drvCncoAct, 0, 32⟩
-- DRV_LEVEL: R125
abbrev DRV_LEVEL_FSCODE : Fld := ⟨.drvLevel, 8, 6⟩
abbrev DRV_LEVEL_ATT : Fld := ⟨.drvLevel, 0, 6⟩
-- DRV_LEVEL_ACT: R125
abbrev DRV_LEVEL_ACT_FSCODE : Fld := ⟨.drvLevelAct, 8, 6⟩
abbrev DRV_LEVEL_ACT_ATT : Fld := ⟨.drvLevelAct, 0, 6⟩
-- DRV_PSCALE: R124
abbrev DRV_PSCALE_PSCALE : Fld := ⟨.drvPscale, 0, 16⟩
-- DRV_STATUS: R126
abbrev DRV_STATUS_MODE_ACT : Fld := ⟨.drvStatus, 16, 2⟩
abbrev DRV_STATUS_LEVEL_PEND : Fld := ⟨.drvStatus, 15, 1⟩
abbrev DRV_STATUS_MODE_BUSY : Fld := ⟨.drvStatus, 14, 1⟩
abbrev DRV_STATUS_STREAM_ACT : Fld := ⟨.drvStatus, 13, 1⟩
abbrev DRV_STATUS_OSTATE : Fld := ⟨.drvStatus, 8, 3⟩
abbrev DRV_STATUS_STREAM_REFUSED : Fld := ⟨.drvStatus, 7, 1⟩
abbrev DRV_STATUS_CNCO_REFUSED : Fld := ⟨.drvStatus, 6, 1⟩
abbrev DRV_STATUS_MODE_REFUSED : Fld := ⟨.drvStatus, 5, 1⟩
abbrev DRV_STATUS_HOLD_CUT : Fld := ⟨.drvStatus, 4, 1⟩
abbrev DRV_STATUS_POISON : Fld := ⟨.drvStatus, 3, 1⟩
abbrev DRV_STATUS_SAT : Fld := ⟨.drvStatus, 2, 1⟩
-- DRV_CLIPCNT: R127
abbrev DRV_CLIPCNT_CUT_COUNT : Fld := ⟨.drvClipcnt, 32, 32⟩
abbrev DRV_CLIPCNT_SAT_COUNT : Fld := ⟨.drvClipcnt, 0, 32⟩
-- DRV_STREAM: R127
abbrev DRV_STREAM_SSLOT : Fld := ⟨.drvStream, 8, 5⟩
abbrev DRV_STREAM_SMODE : Fld := ⟨.drvStream, 0, 3⟩
-- DRV_RFILL: R124
abbrev DRV_RFILL_LEVEL : Fld := ⟨.drvRfill, 0, 17⟩
-- DRV_SFREQ: R128
abbrev DRV_SFREQ_FTW : Fld := ⟨.drvSfreq, 0, 48⟩
-- DRV_SPHASE: R128
abbrev DRV_SPHASE_POFF : Fld := ⟨.drvSphase, 0, 32⟩
-- DRV_SAMP: R128
abbrev DRV_SAMP_ASCL : Fld := ⟨.drvSamp, 0, 16⟩
-- DRV_SCTRL: R128
abbrev DRV_SCTRL_PHRST : Fld := ⟨.drvSctrl, 8, 1⟩
abbrev DRV_SCTRL_ERATE : Fld := ⟨.drvSctrl, 4, 1⟩
abbrev DRV_SCTRL_PMODE : Fld := ⟨.drvSctrl, 0, 2⟩
-- PRB_SENV: R162
abbrev PRB_SENV_ESTOP : Fld := ⟨.prbSenv, 16, 1⟩
abbrev PRB_SENV_RAMP_LEN : Fld := ⟨.prbSenv, 8, 6⟩
abbrev PRB_SENV_ENVMODE : Fld := ⟨.prbSenv, 0, 1⟩
-- PRB_ESTOPCNT: R162
abbrev PRB_ESTOPCNT_COUNT : Fld := ⟨.prbEstopcnt, 0, 32⟩
-- ACQ_CTRL: R164
abbrev ACQ_CTRL_AGAIN : Fld := ⟨.acqCtrl, 8, 4⟩
abbrev ACQ_CTRL_AZONE : Fld := ⟨.acqCtrl, 4, 1⟩
abbrev ACQ_CTRL_EN : Fld := ⟨.acqCtrl, 0, 1⟩
-- ACQ_CNCO: R164
abbrev ACQ_CNCO_ACNCO : Fld := ⟨.acqCnco, 0, 32⟩
-- ACQ_CNCO_ACT: R164
abbrev ACQ_CNCO_ACT_ACNCO : Fld := ⟨.acqCncoAct, 0, 32⟩
-- ACQ_STATUS: R165
abbrev ACQ_STATUS_CREV : Fld := ⟨.acqStatus, 23, 1⟩
abbrev ACQ_STATUS_GAIN_BUSY : Fld := ⟨.acqStatus, 22, 1⟩
abbrev ACQ_STATUS_READY : Fld := ⟨.acqStatus, 21, 1⟩
abbrev ACQ_STATUS_TRK_LOST : Fld := ⟨.acqStatus, 10, 1⟩
abbrev ACQ_STATUS_TRK_LIMIT : Fld := ⟨.acqStatus, 9, 1⟩
abbrev ACQ_STATUS_WIN_EMPTY : Fld := ⟨.acqStatus, 8, 1⟩
abbrev ACQ_STATUS_WIN_COLLIDE : Fld := ⟨.acqStatus, 7, 1⟩
abbrev ACQ_STATUS_WIN_OFF : Fld := ⟨.acqStatus, 6, 1⟩
abbrev ACQ_STATUS_SETTLE : Fld := ⟨.acqStatus, 5, 1⟩
abbrev ACQ_STATUS_CNCO_REFUSED : Fld := ⟨.acqStatus, 4, 1⟩
abbrev ACQ_STATUS_POISON : Fld := ⟨.acqStatus, 3, 1⟩
abbrev ACQ_STATUS_ACC_SAT : Fld := ⟨.acqStatus, 2, 1⟩
abbrev ACQ_STATUS_OVR : Fld := ⟨.acqStatus, 1, 1⟩
-- ACQ_CNT: R164
abbrev ACQ_CNT_SAT_COUNT : Fld := ⟨.acqCnt, 32, 32⟩
abbrev ACQ_CNT_OVR_COUNT : Fld := ⟨.acqCnt, 0, 32⟩
-- ACQ_CFG_CTRL: R166
abbrev ACQ_CFG_CTRL_APPLY_COUNT : Fld := ⟨.acqCfgCtrl, 32, 16⟩
abbrev ACQ_CFG_CTRL_LOAD_COST : Fld := ⟨.acqCfgCtrl, 16, 10⟩
abbrev ACQ_CFG_CTRL_FAULT_SLOT : Fld := ⟨.acqCfgCtrl, 8, 5⟩
abbrev ACQ_CFG_CTRL_STATUS : Fld := ⟨.acqCfgCtrl, 4, 4⟩
abbrev ACQ_CFG_CTRL_APPLY : Fld := ⟨.acqCfgCtrl, 0, 1⟩
-- ACQ_TRACK: R168
abbrev ACQ_TRACK_MAXSTEP : Fld := ⟨.acqTrack, 40, 24⟩
abbrev ACQ_TRACK_AVG_LOG2 : Fld := ⟨.acqTrack, 16, 4⟩
abbrev ACQ_TRACK_REF_PERIOD : Fld := ⟨.acqTrack, 0, 16⟩
-- ACQ_TRACK2: R168
abbrev ACQ_TRACK2_SPAN : Fld := ⟨.acqTrack2, 32, 30⟩
abbrev ACQ_TRACK2_MINMAG : Fld := ⟨.acqTrack2, 0, 24⟩
-- ACQ_CREV: R164
abbrev ACQ_CREV_CREV_COUNT : Fld := ⟨.acqCrev, 32, 32⟩
abbrev ACQ_CREV_CREV_LEFT : Fld := ⟨.acqCrev, 0, 32⟩
-- ACQ_DSLOT: R167
abbrev ACQ_DSLOT_FNW : Fld := ⟨.acqDslot, 32, 32⟩
abbrev ACQ_DSLOT_SHIFT : Fld := ⟨.acqDslot, 16, 5⟩
abbrev ACQ_DSLOT_BIN : Fld := ⟨.acqDslot, 8, 5⟩
abbrev ACQ_DSLOT_MODE : Fld := ⟨.acqDslot, 0, 2⟩
-- ACQ_DSLOT_ACT: R167
abbrev ACQ_DSLOT_ACT_FNW : Fld := ⟨.acqDslotAct, 32, 32⟩
abbrev ACQ_DSLOT_ACT_SHIFT : Fld := ⟨.acqDslotAct, 16, 5⟩
abbrev ACQ_DSLOT_ACT_BIN : Fld := ⟨.acqDslotAct, 8, 5⟩
abbrev ACQ_DSLOT_ACT_MODE : Fld := ⟨.acqDslotAct, 0, 2⟩
-- ACQ_KDESC: R167
abbrev ACQ_KDESC_KLEN : Fld := ⟨.acqKdesc, 0, 12⟩
-- ACQ_DTRK: R168
abbrev ACQ_DTRK_KGAIN : Fld := ⟨.acqDtrk, 48, 16⟩
abbrev ACQ_DTRK_PHI0 : Fld := ⟨.acqDtrk, 32, 16⟩
abbrev ACQ_DTRK_TRK_EN : Fld := ⟨.acqDtrk, 0, 1⟩
-- ACQ_DTRKS: R168
abbrev ACQ_DTRKS_LOST : Fld := ⟨.acqDtrks, 49, 1⟩
abbrev ACQ_DTRKS_LIMIT : Fld := ⟨.acqDtrks, 48, 1⟩
abbrev ACQ_DTRKS_STEPS : Fld := ⟨.acqDtrks, 32, 16⟩
abbrev ACQ_DTRKS_OFFSET : Fld := ⟨.acqDtrks, 0, 32⟩
-- DSC_CFG: R196
abbrev DSC_CFG_MINSTEP : Fld := ⟨.dscCfg, 16, 11⟩
abbrev DSC_CFG_CSHIFT : Fld := ⟨.dscCfg, 8, 5⟩
abbrev DSC_CFG_ERASE_EN : Fld := ⟨.dscCfg, 5, 1⟩
abbrev DSC_CFG_EARLY_EN : Fld := ⟨.dscCfg, 4, 1⟩
abbrev DSC_CFG_SMODE : Fld := ⟨.dscCfg, 0, 2⟩
-- DSC_AXA: R196
abbrev DSC_AXA_OFF_A : Fld := ⟨.dscAxa, 32, 32⟩
abbrev DSC_AXA_WQ_A : Fld := ⟨.dscAxa, 16, 16⟩
abbrev DSC_AXA_WI_A : Fld := ⟨.dscAxa, 0, 16⟩
-- DSC_AXB: R196
abbrev DSC_AXB_OFF_B : Fld := ⟨.dscAxb, 32, 32⟩
abbrev DSC_AXB_WQ_B : Fld := ⟨.dscAxb, 16, 16⟩
abbrev DSC_AXB_WI_B : Fld := ⟨.dscAxb, 0, 16⟩
-- DSC_DRIFT: R196
abbrev DSC_DRIFT_DRIFT_B : Fld := ⟨.dscDrift, 32, 32⟩
abbrev DSC_DRIFT_DRIFT_A : Fld := ⟨.dscDrift, 0, 32⟩
-- DSC_BNDA: R196
abbrev DSC_BNDA_HI_A : Fld := ⟨.dscBnda, 32, 32⟩
abbrev DSC_BNDA_LO_A : Fld := ⟨.dscBnda, 0, 32⟩
-- DSC_BNDB: R196
abbrev DSC_BNDB_HI_B : Fld := ⟨.dscBndb, 32, 32⟩
abbrev DSC_BNDB_LO_B : Fld := ⟨.dscBndb, 0, 32⟩
-- DSC_ERASE: R196
abbrev DSC_ERASE_EB_B : Fld := ⟨.dscErase, 32, 32⟩
abbrev DSC_ERASE_EB_A : Fld := ⟨.dscErase, 0, 32⟩
-- DSC_STAT: R197
abbrev DSC_STAT_DTICK : Fld := ⟨.dscStat, 16, 48⟩
abbrev DSC_STAT_CONF : Fld := ⟨.dscStat, 4, 4⟩
abbrev DSC_STAT_EARLY : Fld := ⟨.dscStat, 3, 1⟩
abbrev DSC_STAT_STATE : Fld := ⟨.dscStat, 0, 2⟩
-- DSC_RSEL0: R198
abbrev DSC_RSEL0_SRC_0 : Fld := ⟨.dscRsel0, 0, 10⟩
abbrev DSC_RSEL0_BIT_0 : Fld := ⟨.dscRsel0, 10, 1⟩
abbrev DSC_RSEL0_EN_0 : Fld := ⟨.dscRsel0, 15, 1⟩
abbrev DSC_RSEL0_SRC_1 : Fld := ⟨.dscRsel0, 16, 10⟩
abbrev DSC_RSEL0_BIT_1 : Fld := ⟨.dscRsel0, 26, 1⟩
abbrev DSC_RSEL0_EN_1 : Fld := ⟨.dscRsel0, 31, 1⟩
abbrev DSC_RSEL0_SRC_2 : Fld := ⟨.dscRsel0, 32, 10⟩
abbrev DSC_RSEL0_BIT_2 : Fld := ⟨.dscRsel0, 42, 1⟩
abbrev DSC_RSEL0_EN_2 : Fld := ⟨.dscRsel0, 47, 1⟩
abbrev DSC_RSEL0_SRC_3 : Fld := ⟨.dscRsel0, 48, 10⟩
abbrev DSC_RSEL0_BIT_3 : Fld := ⟨.dscRsel0, 58, 1⟩
abbrev DSC_RSEL0_EN_3 : Fld := ⟨.dscRsel0, 63, 1⟩
-- DSC_RSEL1: R198
abbrev DSC_RSEL1_SRC_0 : Fld := ⟨.dscRsel1, 0, 10⟩
abbrev DSC_RSEL1_BIT_0 : Fld := ⟨.dscRsel1, 10, 1⟩
abbrev DSC_RSEL1_EN_0 : Fld := ⟨.dscRsel1, 15, 1⟩
abbrev DSC_RSEL1_SRC_1 : Fld := ⟨.dscRsel1, 16, 10⟩
abbrev DSC_RSEL1_BIT_1 : Fld := ⟨.dscRsel1, 26, 1⟩
abbrev DSC_RSEL1_EN_1 : Fld := ⟨.dscRsel1, 31, 1⟩
abbrev DSC_RSEL1_SRC_2 : Fld := ⟨.dscRsel1, 32, 10⟩
abbrev DSC_RSEL1_BIT_2 : Fld := ⟨.dscRsel1, 42, 1⟩
abbrev DSC_RSEL1_EN_2 : Fld := ⟨.dscRsel1, 47, 1⟩
abbrev DSC_RSEL1_SRC_3 : Fld := ⟨.dscRsel1, 48, 10⟩
abbrev DSC_RSEL1_BIT_3 : Fld := ⟨.dscRsel1, 58, 1⟩
abbrev DSC_RSEL1_EN_3 : Fld := ⟨.dscRsel1, 63, 1⟩
-- DSC_RTAB: R198
abbrev DSC_RTAB_TARGET_0 : Fld := ⟨.dscRtab, 0, 12⟩
abbrev DSC_RTAB_TAKE_0 : Fld := ⟨.dscRtab, 12, 1⟩
abbrev DSC_RTAB_TARGET_1 : Fld := ⟨.dscRtab, 16, 12⟩
abbrev DSC_RTAB_TAKE_1 : Fld := ⟨.dscRtab, 28, 1⟩
abbrev DSC_RTAB_TARGET_2 : Fld := ⟨.dscRtab, 32, 12⟩
abbrev DSC_RTAB_TAKE_2 : Fld := ⟨.dscRtab, 44, 1⟩
abbrev DSC_RTAB_TARGET_3 : Fld := ⟨.dscRtab, 48, 12⟩
abbrev DSC_RTAB_TAKE_3 : Fld := ⟨.dscRtab, 60, 1⟩
-- DSC_COLQ: R199
abbrev DSC_COLQ_FILL : Fld := ⟨.dscColq, 16, 11⟩
abbrev DSC_COLQ_QUOTA : Fld := ⟨.dscColq, 0, 11⟩
-- DSC_COLLOST: R199
abbrev DSC_COLLOST_LOST_HOLD : Fld := ⟨.dscCollost, 32, 32⟩
abbrev DSC_COLLOST_LOST_QUOTA : Fld := ⟨.dscCollost, 0, 32⟩
-- DSC_COLSTAT: R199
abbrev DSC_COLSTAT_QUOTA_ERR : Fld := ⟨.dscColstat, 0, 1⟩
-- DSC_XMASK: R200
abbrev DSC_XMASK_MASK : Fld := ⟨.dscXmask, 0, 64⟩
-- DSC_FWD: R200
abbrev DSC_FWD_ORIGINS : Fld := ⟨.dscFwd, 0, 64⟩
-- DSC_XCNT: R200
abbrev DSC_XCNT_FWD_DROPS : Fld := ⟨.dscXcnt, 48, 16⟩
abbrev DSC_XCNT_OVERRUNS : Fld := ⟨.dscXcnt, 32, 16⟩
abbrev DSC_XCNT_SENT : Fld := ⟨.dscXcnt, 0, 32⟩
-- DSC_IMPORT: R200
abbrev DSC_IMPORT_VALID : Fld := ⟨.dscImport, 31, 1⟩
abbrev DSC_IMPORT_CHANNEL : Fld := ⟨.dscImport, 8, 9⟩
abbrev DSC_IMPORT_ORIGIN : Fld := ⟨.dscImport, 0, 6⟩
-- DSC_DV: R201
abbrev DSC_DV_CODE_0 : Fld := ⟨.dscDv, 0, 2⟩
abbrev DSC_DV_STATE_0 : Fld := ⟨.dscDv, 2, 2⟩
abbrev DSC_DV_EARLY_0 : Fld := ⟨.dscDv, 4, 1⟩
abbrev DSC_DV_OVERRUN_0 : Fld := ⟨.dscDv, 5, 1⟩
abbrev DSC_DV_CODE_1 : Fld := ⟨.dscDv, 8, 2⟩
abbrev DSC_DV_STATE_1 : Fld := ⟨.dscDv, 10, 2⟩
abbrev DSC_DV_EARLY_1 : Fld := ⟨.dscDv, 12, 1⟩
abbrev DSC_DV_OVERRUN_1 : Fld := ⟨.dscDv, 13, 1⟩
abbrev DSC_DV_CODE_2 : Fld := ⟨.dscDv, 16, 2⟩
abbrev DSC_DV_STATE_2 : Fld := ⟨.dscDv, 18, 2⟩
abbrev DSC_DV_EARLY_2 : Fld := ⟨.dscDv, 20, 1⟩
abbrev DSC_DV_OVERRUN_2 : Fld := ⟨.dscDv, 21, 1⟩
abbrev DSC_DV_CODE_3 : Fld := ⟨.dscDv, 24, 2⟩
abbrev DSC_DV_STATE_3 : Fld := ⟨.dscDv, 26, 2⟩
abbrev DSC_DV_EARLY_3 : Fld := ⟨.dscDv, 28, 1⟩
abbrev DSC_DV_OVERRUN_3 : Fld := ⟨.dscDv, 29, 1⟩
abbrev DSC_DV_CODE_4 : Fld := ⟨.dscDv, 32, 2⟩
abbrev DSC_DV_STATE_4 : Fld := ⟨.dscDv, 34, 2⟩
abbrev DSC_DV_EARLY_4 : Fld := ⟨.dscDv, 36, 1⟩
abbrev DSC_DV_OVERRUN_4 : Fld := ⟨.dscDv, 37, 1⟩
abbrev DSC_DV_CODE_5 : Fld := ⟨.dscDv, 40, 2⟩
abbrev DSC_DV_STATE_5 : Fld := ⟨.dscDv, 42, 2⟩
abbrev DSC_DV_EARLY_5 : Fld := ⟨.dscDv, 44, 1⟩
abbrev DSC_DV_OVERRUN_5 : Fld := ⟨.dscDv, 45, 1⟩
abbrev DSC_DV_CODE_6 : Fld := ⟨.dscDv, 48, 2⟩
abbrev DSC_DV_STATE_6 : Fld := ⟨.dscDv, 50, 2⟩
abbrev DSC_DV_EARLY_6 : Fld := ⟨.dscDv, 52, 1⟩
abbrev DSC_DV_OVERRUN_6 : Fld := ⟨.dscDv, 53, 1⟩
abbrev DSC_DV_CODE_7 : Fld := ⟨.dscDv, 56, 2⟩
abbrev DSC_DV_STATE_7 : Fld := ⟨.dscDv, 58, 2⟩
abbrev DSC_DV_EARLY_7 : Fld := ⟨.dscDv, 60, 1⟩
abbrev DSC_DV_OVERRUN_7 : Fld := ⟨.dscDv, 61, 1⟩
-- SEQ_CTRL: R234
abbrev SEQ_CTRL_START_CH : Fld := ⟨.seqCtrl, 24, 8⟩
abbrev SEQ_CTRL_UPOL : Fld := ⟨.seqCtrl, 8, 1⟩
abbrev SEQ_CTRL_TPOL : Fld := ⟨.seqCtrl, 4, 2⟩
abbrev SEQ_CTRL_TRIG_EN : Fld := ⟨.seqCtrl, 1, 1⟩
abbrev SEQ_CTRL_EN : Fld := ⟨.seqCtrl, 0, 1⟩
-- SEQ_CMD: R234
abbrev SEQ_CMD_STOP : Fld := ⟨.seqCmd, 1, 1⟩
abbrev SEQ_CMD_START : Fld := ⟨.seqCmd, 0, 1⟩
-- SEQ_START: R234
abbrev SEQ_START_START_DLY : Fld := ⟨.seqStart, 16, 16⟩
abbrev SEQ_START_START_PC : Fld := ⟨.seqStart, 0, 12⟩
-- SEQ_JREQ: R234
abbrev SEQ_JREQ_TARGET : Fld := ⟨.seqJreq, 0, 12⟩
-- SEQ_STATUS: R235
abbrev SEQ_STATUS_ERR_PC : Fld := ⟨.seqStatus, 16, 12⟩
abbrev SEQ_STATUS_PGM_REFUSED : Fld := ⟨.seqStatus, 15, 1⟩
abbrev SEQ_STATUS_REQ_REPLACED : Fld := ⟨.seqStatus, 14, 1⟩
abbrev SEQ_STATUS_FALLBACK : Fld := ⟨.seqStatus, 13, 1⟩
abbrev SEQ_STATUS_WAITD_EMPTY : Fld := ⟨.seqStatus, 12, 1⟩
abbrev SEQ_STATUS_WAITEV_TMO : Fld := ⟨.seqStatus, 11, 1⟩
abbrev SEQ_STATUS_WAITD_TMO : Fld := ⟨.seqStatus, 10, 1⟩
abbrev SEQ_STATUS_TRIG_LATE : Fld := ⟨.seqStatus, 9, 1⟩
abbrev SEQ_STATUS_UNDERRUN : Fld := ⟨.seqStatus, 8, 1⟩
abbrev SEQ_STATUS_GAP : Fld := ⟨.seqStatus, 7, 1⟩
abbrev SEQ_STATUS_STACK : Fld := ⟨.seqStatus, 6, 1⟩
abbrev SEQ_STATUS_ILLEGAL : Fld := ⟨.seqStatus, 5, 1⟩
abbrev SEQ_STATUS_QPEND : Fld := ⟨.seqStatus, 3, 1⟩
abbrev SEQ_STATUS_STATE : Fld := ⟨.seqStatus, 0, 2⟩
-- SEQ_PC: R235
abbrev SEQ_PC_LOOP_DEPTH : Fld := ⟨.seqPc, 20, 3⟩
abbrev SEQ_PC_CALL_DEPTH : Fld := ⟨.seqPc, 16, 4⟩
abbrev SEQ_PC_FPC : Fld := ⟨.seqPc, 0, 12⟩
-- SEQ_SHOT: R236
abbrev SEQ_SHOT_SHOTNO : Fld := ⟨.seqShot, 0, 32⟩
-- SEQ_CNT: R236
abbrev SEQ_CNT_TRIG_DROP : Fld := ⟨.seqCnt, 48, 16⟩
abbrev SEQ_CNT_REQ_DISCARD : Fld := ⟨.seqCnt, 32, 16⟩
abbrev SEQ_CNT_GAP_COUNT : Fld := ⟨.seqCnt, 16, 16⟩
abbrev SEQ_CNT_RESTARTS : Fld := ⟨.seqCnt, 0, 16⟩
-- SEQ_CNT2: R236
abbrev SEQ_CNT2_UNDERRUN_GRAN : Fld := ⟨.seqCnt2, 32, 32⟩
abbrev SEQ_CNT2_FALLBACKS : Fld := ⟨.seqCnt2, 16, 16⟩
abbrev SEQ_CNT2_TRIG_LATE_CNT : Fld := ⟨.seqCnt2, 0, 16⟩
-- SEQ_SREG: R236
abbrev SEQ_SREG_VALUE : Fld := ⟨.seqSreg, 0, 32⟩
-- SEQ_LOOP: R236
abbrev SEQ_LOOP_COUNT : Fld := ⟨.seqLoop, 0, 24⟩
-- UCS_CTRL: R262
abbrev UCS_CTRL_LOCK : Fld := ⟨.ucsCtrl, 1, 1⟩
abbrev UCS_CTRL_VERIFY : Fld := ⟨.ucsCtrl, 0, 1⟩
-- UCS_STATUS: R263
abbrev UCS_STATUS_VERIFY_COUNT : Fld := ⟨.ucsStatus, 32, 16⟩
abbrev UCS_STATUS_FAULT_ADDR : Fld := ⟨.ucsStatus, 19, 13⟩
abbrev UCS_STATUS_FAULT_OPC : Fld := ⟨.ucsStatus, 12, 7⟩
abbrev UCS_STATUS_LOCKED : Fld := ⟨.ucsStatus, 11, 1⟩
abbrev UCS_STATUS_WR_REFUSED : Fld := ⟨.ucsStatus, 10, 1⟩
abbrev UCS_STATUS_VERIFIED : Fld := ⟨.ucsStatus, 9, 1⟩
abbrev UCS_STATUS_VIMG_READY : Fld := ⟨.ucsStatus, 8, 1⟩
abbrev UCS_STATUS_STATUS : Fld := ⟨.ucsStatus, 4, 4⟩
-- UCS_SCNT: R265
abbrev UCS_SCNT_RESTARTS : Fld := ⟨.ucsScnt, 48, 16⟩
abbrev UCS_SCNT_DROPS : Fld := ⟨.ucsScnt, 32, 16⟩
abbrev UCS_SCNT_TRAPS : Fld := ⟨.ucsScnt, 16, 16⟩
abbrev UCS_SCNT_LAST_CAUSE : Fld := ⟨.ucsScnt, 0, 4⟩
-- UCS_DISP: R264
abbrev UCS_DISP_VALID : Fld := ⟨.ucsDisp, 31, 1⟩
abbrev UCS_DISP_HEAD : Fld := ⟨.ucsDisp, 30, 1⟩
abbrev UCS_DISP_KINDS : Fld := ⟨.ucsDisp, 27, 3⟩
abbrev UCS_DISP_CLASS : Fld := ⟨.ucsDisp, 25, 2⟩
abbrev UCS_DISP_ENTRY : Fld := ⟨.ucsDisp, 0, 13⟩
-- UCS_WORD: R266
abbrev UCS_WORD_WORD : Fld := ⟨.ucsWord, 0, 32⟩
-- ODR_CTRL: R312
abbrev ODR_CTRL_MODE : Fld := ⟨.odrCtrl, 8, 1⟩
abbrev ODR_CTRL_RUN : Fld := ⟨.odrCtrl, 0, 1⟩
-- ODR_STATUS: R313
abbrev ODR_STATUS_FAULT_PC : Fld := ⟨.odrStatus, 40, 16⟩
abbrev ODR_STATUS_FAULT_CAUSE : Fld := ⟨.odrStatus, 36, 4⟩
abbrev ODR_STATUS_PMEM_REFUSED : Fld := ⟨.odrStatus, 16, 1⟩
abbrev ODR_STATUS_HO_REFUSED : Fld := ⟨.odrStatus, 15, 1⟩
abbrev ODR_STATUS_HO_RANGE : Fld := ⟨.odrStatus, 14, 1⟩
abbrev ODR_STATUS_EV_REFUSED : Fld := ⟨.odrStatus, 13, 1⟩
abbrev ODR_STATUS_MB_LOST : Fld := ⟨.odrStatus, 12, 1⟩
abbrev ODR_STATUS_GMASK_BUSY : Fld := ⟨.odrStatus, 11, 1⟩
abbrev ODR_STATUS_POISON : Fld := ⟨.odrStatus, 10, 1⟩
abbrev ODR_STATUS_OVF : Fld := ⟨.odrStatus, 9, 1⟩
abbrev ODR_STATUS_SAT : Fld := ⟨.odrStatus, 8, 1⟩
abbrev ODR_STATUS_BANK : Fld := ⟨.odrStatus, 3, 1⟩
abbrev ODR_STATUS_IE : Fld := ⟨.odrStatus, 2, 1⟩
abbrev ODR_STATUS_STATE : Fld := ⟨.odrStatus, 0, 2⟩
-- ODR_PC: R312
abbrev ODR_PC_PC : Fld := ⟨.odrPc, 16, 16⟩
abbrev ODR_PC_START_PC : Fld := ⟨.odrPc, 0, 16⟩
-- ODR_CNT: R314
abbrev ODR_CNT_NOTICES_LOST : Fld := ⟨.odrCnt, 48, 16⟩
abbrev ODR_CNT_HO_REFUSALS : Fld := ⟨.odrCnt, 32, 16⟩
abbrev ODR_CNT_HO_STALL : Fld := ⟨.odrCnt, 0, 32⟩
-- ODR_IRQ: R314
abbrev ODR_IRQ_IPEND : Fld := ⟨.odrIrq, 32, 24⟩
abbrev ODR_IRQ_IEN : Fld := ⟨.odrIrq, 0, 24⟩
-- ODR_VBASE: R312
abbrev ODR_VBASE_VBASE : Fld := ⟨.odrVbase, 4, 12⟩
-- ODR_MBMASK: R315
abbrev ODR_MBMASK_MASK : Fld := ⟨.odrMbmask, 0, 64⟩
-- ODR_GMASK: R315
abbrev ODR_GMASK_MASK : Fld := ⟨.odrGmask, 0, 64⟩
-- ODR_GRP: R315
abbrev ODR_GRP_LAST_TICK : Fld := ⟨.odrGrp, 16, 48⟩
abbrev ODR_GRP_ANYEARLY : Fld := ⟨.odrGrp, 3, 1⟩
abbrev ODR_GRP_ANYERASE : Fld := ⟨.odrGrp, 2, 1⟩
abbrev ODR_GRP_ANYUNAV : Fld := ⟨.odrGrp, 1, 1⟩
abbrev ODR_GRP_ARM : Fld := ⟨.odrGrp, 0, 1⟩
-- ODR_EVSUB: R315
abbrev ODR_EVSUB_EN : Fld := ⟨.odrEvsub, 31, 1⟩
abbrev ODR_EVSUB_CH : Fld := ⟨.odrEvsub, 0, 8⟩
-- ODR_MAIN_G: R311
abbrev ODR_MAIN_G_VAL : Fld := ⟨.odrMainG, 0, 32⟩
-- ODR_MAIN_A: R311
abbrev ODR_MAIN_A_VAL : Fld := ⟨.odrMainA, 0, 23⟩
-- ODR_M: R311
abbrev ODR_M_VAL : Fld := ⟨.odrM, 0, 32⟩
-- ODR_SHADOW_G: R311
abbrev ODR_SHADOW_G_VAL : Fld := ⟨.odrShadowG, 0, 32⟩
-- ODR_SHADOW_A: R311
abbrev ODR_SHADOW_A_VAL : Fld := ⟨.odrShadowA, 0, 23⟩
-- ODR_MAIN_CRE: R311
abbrev ODR_MAIN_CRE_VAL : Fld := ⟨.odrMainCre, 0, 40⟩
-- ODR_MAIN_CIM: R311
abbrev ODR_MAIN_CIM_VAL : Fld := ⟨.odrMainCim, 0, 40⟩
-- ODR_SHADOW_CRE: R311
abbrev ODR_SHADOW_CRE_VAL : Fld := ⟨.odrShadowCre, 0, 40⟩
-- ODR_SHADOW_CIM: R311
abbrev ODR_SHADOW_CIM_VAL : Fld := ⟨.odrShadowCim, 0, 40⟩
-- DB_CMD: R476
abbrev DB_CMD_PROD : Fld := ⟨.dbCmd, 0, 32⟩
abbrev DB_CMD_CONSUMED : Fld := ⟨.dbCmd, 32, 32⟩
-- DB_RING: R476
abbrev DB_RING_CONS : Fld := ⟨.dbRing, 0, 32⟩
abbrev DB_RING_ARM : Fld := ⟨.dbRing, 32, 1⟩
abbrev DB_RING_PRODUCED : Fld := ⟨.dbRing, 33, 32⟩
-- MSIX_PBA: R476
abbrev MSIX_PBA_PEND : Fld := ⟨.msixPba, 0, 64⟩
-- MSIX_TABLE: R476
abbrev MSIX_TABLE_ADDR : Fld := ⟨.msixTable, 0, 64⟩
abbrev MSIX_TABLE_DATA : Fld := ⟨.msixTable, 64, 32⟩
abbrev MSIX_TABLE_CTL : Fld := ⟨.msixTable, 96, 32⟩
-- VIEW_ADDR: R449
abbrev VIEW_ADDR_ADDR : Fld := ⟨.viewAddr, 0, 32⟩

end F

def regs0 : List Reg :=
  [.glbId, .glbVariant, .glbSerial, .glbCap, .glbStrap, .glbAccerr, .glbScratch, .glbPwr,
   .glbBrst, .glbLc, .glbChmapStage, .glbChmapCtrl, .glbChmapAct, .timRefCfg, .timStatus, .timNow,
   .timMsyncCtrl, .timMsyncLoad, .timMsyncOutAt, .timMsyncCapt, .timMsyncCapi, .timDlPolicy, .timDlMiss, .timDtrim,
   .timAtrim, .hifLink, .hifGstat, .hifOwn, .hifFctrl, .hifFstat, .hifIrqmap, .hifSpart,
   .hifDpart, .hifRbase, .hifRcfg, .hifAp, .evfStatus, .evfFire, .evfFstat, .evfLogq,
   .evfSrcmap, .evfLink, .evfChcfg, .evfChstat, .evfTin, .cntCtrl, .cntStatus, .cntFstat]
def regs1 : List Reg :=
  [.cntCfg, .cntVal, .memDctrl, .memDstat, .memTrain, .memSload, .memDdly, .memPanic,
   .memEcc, .lnkGcfg, .lnkPeers, .lnkPcfg, .lnkPstat, .lnkXch, .lnkCnt, .lnkFbuf,
   .lnkFptr, .lnkLane, .netCfg, .netStat, .netTxq, .netRxq, .netDb, .netPtpIncr,
   .netPtpNs, .netPtpSec, .netPtpAdj, .netPtpCtrl, .netPtpCtrl2, .netPairTick, .netPairSec, .netPairNs,
   .netTxts0, .netTxts1, .rcvCtrl, .rcvStatus, .rcvLog, .rcvLogptr, .rcvRctl, .rcvRstat,
   .rcvResume, .calCtrl, .calStatus, .calRot, .calActl, .calAcoef, .calDcoef, .calGcal]
def regs2 : List Reg :=
  [.calFmod, .calBias, .govCtrl, .govWin, .govStatus, .govBuds, .govBudl, .govCeils,
   .govCeill, .govTals, .govTall, .govLcfg, .govLcnt, .govAllot, .govBload, .govBlim,
   .govBslew, .govBstat, .frnCtrl, .frnStatus, .frnTime, .frnTherm, .frnWake, .frnSeq,
   .frnRes, .frnCmp, .frnCmps, .frnTemp, .frnRcfg, .frnRcond, .frnRmask, .frnRstat,
   .frnBset, .biaCfg, .biaCode, .biaClr, .biaTrim, .biaAct, .biaStat, .biaPcmd,
   .biaPstat, .biaGlb, .trgMcmd, .trgXin, .trgGcfg, .trgGlev, .trgGtime, .trgGstat]
def regs3 : List Reg :=
  [.trgCcfg, .trgCbuf, .trgCwin, .trgCcmd, .trgCstat, .trgMcfg, .trgMstat, .trgMts,
   .trgPat, .trgPlen, .trgTcfg, .trgTlev, .trgTstat, .trgTcnt, .drvCtrl, .drvCnco,
   .drvCncoAct, .drvLevel, .drvLevelAct, .drvPscale, .drvStatus, .drvClipcnt, .drvStream, .drvRfill,
   .drvSfreq, .drvSphase, .drvSamp, .drvSctrl, .prbSenv, .prbEstopcnt, .acqCtrl, .acqCnco,
   .acqCncoAct, .acqStatus, .acqCnt, .acqCfgCtrl, .acqTrack, .acqTrack2, .acqCrev, .acqDslot,
   .acqDslotAct, .acqKdesc, .acqDtrk, .acqDtrks, .dscCfg, .dscAxa, .dscAxb, .dscDrift]
def regs4 : List Reg :=
  [.dscBnda, .dscBndb, .dscErase, .dscStat, .dscRsel0, .dscRsel1, .dscRtab, .dscColq,
   .dscCollost, .dscColstat, .dscXmask, .dscFwd, .dscXcnt, .dscImport, .dscDv, .seqCtrl,
   .seqCmd, .seqStart, .seqJreq, .seqStatus, .seqPc, .seqShot, .seqCnt, .seqCnt2,
   .seqSreg, .seqLoop, .ucsCtrl, .ucsStatus, .ucsScnt, .ucsDisp, .ucsWord, .odrCtrl,
   .odrStatus, .odrPc, .odrCnt, .odrIrq, .odrVbase, .odrMbmask, .odrGmask, .odrGrp,
   .odrEvsub, .odrMainG, .odrMainA, .odrM, .odrShadowG, .odrShadowA, .odrMainCre, .odrMainCim]
def regs5 : List Reg :=
  [.odrShadowCre, .odrShadowCim, .dbCmd, .dbRing, .msixPba, .msixTable, .viewAddr]

/-- Every register, in the order of R608. -/
def Reg.all : List Reg := regs0 ++ regs1 ++ regs2 ++ regs3 ++ regs4 ++ regs5

/-- Where each register lies in BAR0 (R595 and each chapter's offset table). `none`: outside BAR0. -/
def Reg.layout : Reg → Option Layout
  | .glbId => some ⟨0x0, 64, 0x0, 1, 0x0, 1, 0x0, 1⟩
  | .glbVariant => some ⟨0x8, 32, 0x0, 1, 0x0, 1, 0x0, 1⟩
  | .glbSerial => some ⟨0x10, 64, 0x0, 1, 0x0, 1, 0x0, 1⟩
  | .glbCap => some ⟨0x18, 64, 0x0, 1, 0x0, 1, 0x0, 1⟩
  | .glbStrap => some ⟨0x20, 32, 0x0, 1, 0x0, 1, 0x0, 1⟩
  | .glbAccerr => some ⟨0x28, 64, 0x0, 1, 0x0, 1, 0x0, 1⟩
  | .glbScratch => some ⟨0x30, 64, 0x0, 1, 0x0, 1, 0x0, 1⟩
  | .glbPwr => some ⟨0x100, 32, 0x0, 1, 0x0, 1, 0x0, 1⟩
  | .glbBrst => some ⟨0x108, 32, 0x0, 1, 0x0, 1, 0x0, 1⟩
  | .glbLc => some ⟨0x110, 32, 0x0, 1, 0x0, 1, 0x0, 1⟩
  | .glbChmapStage => some ⟨0x800, 32, 0x100, 8, 0x4, 64, 0x0, 1⟩
  | .glbChmapCtrl => some ⟨0x1000, 64, 0x8, 8, 0x0, 1, 0x0, 1⟩
  | .glbChmapAct => some ⟨0x1800, 32, 0x100, 8, 0x4, 64, 0x0, 1⟩
  | .timRefCfg => some ⟨0x10000, 32, 0x0, 1, 0x0, 1, 0x0, 1⟩
  | .timStatus => some ⟨0x10008, 32, 0x0, 1, 0x0, 1, 0x0, 1⟩
  | .timNow => some ⟨0x10010, 64, 0x0, 1, 0x0, 1, 0x0, 1⟩
  | .timMsyncCtrl => some ⟨0x10020, 64, 0x0, 1, 0x0, 1, 0x0, 1⟩
  | .timMsyncLoad => some ⟨0x10028, 64, 0x0, 1, 0x0, 1, 0x0, 1⟩
  | .timMsyncOutAt => some ⟨0x10030, 64, 0x0, 1, 0x0, 1, 0x0, 1⟩
  | .timMsyncCapt => some ⟨0x10038, 64, 0x0, 1, 0x0, 1, 0x0, 1⟩
  | .timMsyncCapi => some ⟨0x10040, 32, 0x0, 1, 0x0, 1, 0x0, 1⟩
  | .timDlPolicy => some ⟨0x10048, 32, 0x0, 1, 0x0, 1, 0x0, 1⟩
  | .timDlMiss => some ⟨0x10080, 64, 0x8, 8, 0x0, 1, 0x0, 1⟩
  | .timDtrim => some ⟨0x10100, 32, 0x4, 48, 0x0, 1, 0x0, 1⟩
  | .timAtrim => some ⟨0x10200, 32, 0x4, 16, 0x0, 1, 0x0, 1⟩
  | .hifLink => some ⟨0x20000, 32, 0x0, 1, 0x0, 1, 0x0, 1⟩
  | .hifGstat => some ⟨0x20008, 64, 0x0, 1, 0x0, 1, 0x0, 1⟩
  | .hifOwn => some ⟨0x28000, 64, 0x8, 14, 0x0, 1, 0x0, 1⟩
  | .hifFctrl => some ⟨0x21000, 32, 0x100, 16, 0x0, 1, 0x0, 1⟩
  | .hifFstat => some ⟨0x21008, 64, 0x100, 16, 0x0, 1, 0x0, 1⟩
  | .hifIrqmap => some ⟨0x21010, 64, 0x100, 16, 0x0, 1, 0x0, 1⟩
  | .hifSpart => some ⟨0x21018, 64, 0x100, 16, 0x0, 1, 0x0, 1⟩
  | .hifDpart => some ⟨0x21020, 64, 0x100, 16, 0x0, 1, 0x0, 1⟩
  | .hifRbase => some ⟨0x21040, 64, 0x100, 16, 0x10, 6, 0x0, 1⟩
  | .hifRcfg => some ⟨0x21048, 32, 0x100, 16, 0x10, 6, 0x0, 1⟩
  | .hifAp => some ⟨0x210C0, 32, 0x100, 16, 0x4, 8, 0x0, 1⟩
  | .evfStatus => some ⟨0x30000, 32, 0x0, 1, 0x0, 1, 0x0, 1⟩
  | .evfFire => some ⟨0x30100, 32, 0x8, 16, 0x0, 1, 0x0, 1⟩
  | .evfFstat => some ⟨0x30180, 64, 0x8, 16, 0x0, 1, 0x0, 1⟩
  | .evfLogq => some ⟨0x30200, 32, 0x8, 16, 0x0, 1, 0x0, 1⟩
  | .evfSrcmap => some ⟨0x31000, 32, 0x8, 1024, 0x0, 1, 0x0, 1⟩
  | .evfLink => some ⟨0x33000, 64, 0x8, 64, 0x0, 1, 0x0, 1⟩
  | .evfChcfg => some ⟨0x34000, 32, 0x10, 256, 0x0, 1, 0x0, 1⟩
  | .evfChstat => some ⟨0x34008, 64, 0x10, 256, 0x0, 1, 0x0, 1⟩
  | .evfTin => some ⟨0x36000, 64, 0x8, 401, 0x0, 1, 0x0, 1⟩
  | .cntCtrl => some ⟨0x40000, 64, 0x0, 1, 0x0, 1, 0x0, 1⟩
  | .cntStatus => some ⟨0x40008, 64, 0x0, 1, 0x0, 1, 0x0, 1⟩
  | .cntFstat => some ⟨0x40100, 32, 0x8, 16, 0x0, 1, 0x0, 1⟩
  | .cntCfg => some ⟨0x41000, 32, 0x10, 128, 0x0, 1, 0x0, 1⟩
  | .cntVal => some ⟨0x41008, 64, 0x10, 128, 0x0, 1, 0x0, 1⟩
  | .memDctrl => some ⟨0x50000, 32, 0x0, 1, 0x0, 1, 0x0, 1⟩
  | .memDstat => some ⟨0x50008, 64, 0x0, 1, 0x0, 1, 0x0, 1⟩
  | .memTrain => some ⟨0x50010, 64, 0x0, 1, 0x0, 1, 0x0, 1⟩
  | .memSload => some ⟨0x50018, 32, 0x0, 1, 0x0, 1, 0x0, 1⟩
  | .memDdly => some ⟨0x50100, 64, 0x20, 8, 0x8, 4, 0x0, 1⟩
  | .memPanic => some ⟨0x50400, 64, 0x8, 48, 0x0, 1, 0x0, 1⟩
  | .memEcc => some ⟨0x51000, 64, 0x8, 128, 0x0, 1, 0x0, 1⟩
  | .lnkGcfg => some ⟨0x60000, 32, 0x0, 1, 0x0, 1, 0x0, 1⟩
  | .lnkPeers => some ⟨0x60008, 64, 0x0, 1, 0x0, 1, 0x0, 1⟩
  | .lnkPcfg => some ⟨0x61000, 32, 0x100, 4, 0x0, 1, 0x0, 1⟩
  | .lnkPstat => some ⟨0x61008, 64, 0x100, 4, 0x0, 1, 0x0, 1⟩
  | .lnkXch => some ⟨0x61010, 64, 0x100, 4, 0x0, 1, 0x0, 1⟩
  | .lnkCnt => some ⟨0x61018, 64, 0x100, 4, 0x0, 1, 0x0, 1⟩
  | .lnkFbuf => some ⟨0x61020, 64, 0x100, 4, 0x8, 2, 0x0, 1⟩
  | .lnkFptr => some ⟨0x61030, 64, 0x100, 4, 0x8, 2, 0x0, 1⟩
  | .lnkLane => some ⟨0x61040, 64, 0x100, 4, 0x8, 2, 0x0, 1⟩
  | .netCfg => some ⟨0x70000, 32, 0x0, 1, 0x0, 1, 0x0, 1⟩
  | .netStat => some ⟨0x70008, 64, 0x0, 1, 0x0, 1, 0x0, 1⟩
  | .netTxq => some ⟨0x70010, 64, 0x0, 1, 0x0, 1, 0x0, 1⟩
  | .netRxq => some ⟨0x70018, 64, 0x0, 1, 0x0, 1, 0x0, 1⟩
  | .netDb => some ⟨0x70020, 32, 0x0, 1, 0x0, 1, 0x0, 1⟩
  | .netPtpIncr => some ⟨0x70040, 64, 0x0, 1, 0x0, 1, 0x0, 1⟩
  | .netPtpNs => some ⟨0x70048, 64, 0x0, 1, 0x0, 1, 0x0, 1⟩
  | .netPtpSec => some ⟨0x70050, 64, 0x0, 1, 0x0, 1, 0x0, 1⟩
  | .netPtpAdj => some ⟨0x70058, 64, 0x0, 1, 0x0, 1, 0x0, 1⟩
  | .netPtpCtrl => some ⟨0x70060, 32, 0x0, 1, 0x0, 1, 0x0, 1⟩
  | .netPtpCtrl2 => some ⟨0x70064, 32, 0x0, 1, 0x0, 1, 0x0, 1⟩
  | .netPairTick => some ⟨0x70068, 64, 0x0, 1, 0x0, 1, 0x0, 1⟩
  | .netPairSec => some ⟨0x70070, 64, 0x0, 1, 0x0, 1, 0x0, 1⟩
  | .netPairNs => some ⟨0x70078, 64, 0x0, 1, 0x0, 1, 0x0, 1⟩
  | .netTxts0 => some ⟨0x70080, 64, 0x0, 1, 0x0, 1, 0x0, 1⟩
  | .netTxts1 => some ⟨0x70088, 64, 0x0, 1, 0x0, 1, 0x0, 1⟩
  | .rcvCtrl => some ⟨0x80000, 32, 0x0, 1, 0x0, 1, 0x0, 1⟩
  | .rcvStatus => some ⟨0x80008, 64, 0x0, 1, 0x0, 1, 0x0, 1⟩
  | .rcvLog => some ⟨0x80100, 64, 0x8, 16, 0x0, 1, 0x0, 1⟩
  | .rcvLogptr => some ⟨0x80180, 32, 0x0, 1, 0x0, 1, 0x0, 1⟩
  | .rcvRctl => some ⟨0x80200, 32, 0x10, 8, 0x0, 1, 0x0, 1⟩
  | .rcvRstat => some ⟨0x80208, 64, 0x10, 8, 0x0, 1, 0x0, 1⟩
  | .rcvResume => some ⟨0x80300, 32, 0x4, 64, 0x0, 1, 0x0, 1⟩
  | .calCtrl => some ⟨0x90000, 32, 0x0, 1, 0x0, 1, 0x0, 1⟩
  | .calStatus => some ⟨0x90008, 64, 0x0, 1, 0x0, 1, 0x0, 1⟩
  | .calRot => some ⟨0x90100, 64, 0x8, 8, 0x0, 1, 0x0, 1⟩
  | .calActl => some ⟨0x90200, 64, 0x8, 16, 0x0, 1, 0x0, 1⟩
  | .calAcoef => some ⟨0x90300, 64, 0x8, 16, 0x0, 1, 0x0, 1⟩
  | .calDcoef => some ⟨0x90400, 64, 0x8, 56, 0x0, 1, 0x0, 1⟩
  | .calGcal => some ⟨0x90600, 32, 0x4, 48, 0x0, 1, 0x0, 1⟩
  | .calFmod => some ⟨0x90700, 64, 0x8, 2, 0x0, 1, 0x0, 1⟩
  | .calBias => some ⟨0x90710, 64, 0x0, 1, 0x0, 1, 0x0, 1⟩
  | .govCtrl => some ⟨0xA0000, 32, 0x0, 1, 0x0, 1, 0x0, 1⟩
  | .govWin => some ⟨0xA0008, 64, 0x0, 1, 0x0, 1, 0x0, 1⟩
  | .govStatus => some ⟨0xA0010, 32, 0x0, 1, 0x0, 1, 0x0, 1⟩
  | .govBuds => some ⟨0xA1000, 64, 0x40, 63, 0x0, 1, 0x0, 1⟩
  | .govBudl => some ⟨0xA1008, 64, 0x40, 63, 0x0, 1, 0x0, 1⟩
  | .govCeils => some ⟨0xA1010, 64, 0x40, 63, 0x0, 1, 0x0, 1⟩
  | .govCeill => some ⟨0xA1018, 64, 0x40, 63, 0x0, 1, 0x0, 1⟩
  | .govTals => some ⟨0xA1020, 64, 0x40, 63, 0x0, 1, 0x0, 1⟩
  | .govTall => some ⟨0xA1028, 64, 0x40, 63, 0x0, 1, 0x0, 1⟩
  | .govLcfg => some ⟨0xA1030, 32, 0x40, 63, 0x0, 1, 0x0, 1⟩
  | .govLcnt => some ⟨0xA1038, 64, 0x40, 63, 0x0, 1, 0x0, 1⟩
  | .govAllot => some ⟨0xA2000, 64, 0x10, 4, 0x8, 2, 0x0, 1⟩
  | .govBload => some ⟨0xA3000, 64, 0x20, 64, 0x0, 1, 0x0, 1⟩
  | .govBlim => some ⟨0xA3008, 64, 0x20, 64, 0x0, 1, 0x0, 1⟩
  | .govBslew => some ⟨0xA3010, 32, 0x20, 64, 0x0, 1, 0x0, 1⟩
  | .govBstat => some ⟨0xA3018, 32, 0x20, 64, 0x0, 1, 0x0, 1⟩
  | .frnCtrl => some ⟨0xB0000, 32, 0x0, 1, 0x0, 1, 0x0, 1⟩
  | .frnStatus => some ⟨0xB0008, 64, 0x0, 1, 0x0, 1, 0x0, 1⟩
  | .frnTime => some ⟨0xB0010, 64, 0x0, 1, 0x0, 1, 0x0, 1⟩
  | .frnTherm => some ⟨0xB0018, 64, 0x0, 1, 0x0, 1, 0x0, 1⟩
  | .frnWake => some ⟨0xB0020, 32, 0x0, 1, 0x0, 1, 0x0, 1⟩
  | .frnSeq => some ⟨0xB0100, 64, 0x8, 128, 0x0, 1, 0x0, 1⟩
  | .frnRes => some ⟨0xB0800, 64, 0x8, 128, 0x0, 1, 0x0, 1⟩
  | .frnCmp => some ⟨0xB1000, 64, 0x10, 80, 0x0, 1, 0x0, 1⟩
  | .frnCmps => some ⟨0xB1008, 32, 0x10, 80, 0x0, 1, 0x0, 1⟩
  | .frnTemp => some ⟨0xB1800, 64, 0x8, 14, 0x0, 1, 0x0, 1⟩
  | .frnRcfg => some ⟨0xB2000, 32, 0x20, 32, 0x0, 1, 0x0, 1⟩
  | .frnRcond => some ⟨0xB2008, 64, 0x20, 32, 0x0, 1, 0x0, 1⟩
  | .frnRmask => some ⟨0xB2010, 64, 0x20, 32, 0x0, 1, 0x0, 1⟩
  | .frnRstat => some ⟨0xB2018, 32, 0x20, 32, 0x0, 1, 0x0, 1⟩
  | .frnBset => some ⟨0xB2800, 32, 0x100, 4, 0x4, 64, 0x0, 1⟩
  | .biaCfg => some ⟨0xC0000, 32, 0x40, 64, 0x0, 1, 0x0, 1⟩
  | .biaCode => some ⟨0xC0004, 32, 0x40, 64, 0x0, 1, 0x0, 1⟩
  | .biaClr => some ⟨0xC0008, 32, 0x40, 64, 0x0, 1, 0x0, 1⟩
  | .biaTrim => some ⟨0xC000C, 32, 0x40, 64, 0x0, 1, 0x0, 1⟩
  | .biaAct => some ⟨0xC0010, 64, 0x40, 64, 0x0, 1, 0x0, 1⟩
  | .biaStat => some ⟨0xC0018, 32, 0x40, 64, 0x0, 1, 0x0, 1⟩
  | .biaPcmd => some ⟨0xC001C, 32, 0x40, 64, 0x0, 1, 0x0, 1⟩
  | .biaPstat => some ⟨0xC0020, 64, 0x40, 64, 0x0, 1, 0x0, 1⟩
  | .biaGlb => some ⟨0xC1000, 32, 0x0, 1, 0x0, 1, 0x0, 1⟩
  | .trgMcmd => some ⟨0xD0000, 32, 0x0, 1, 0x0, 1, 0x0, 1⟩
  | .trgXin => some ⟨0xD0100, 64, 0x8, 16, 0x0, 1, 0x0, 1⟩
  | .trgGcfg => some ⟨0xD0200, 64, 0x20, 32, 0x0, 1, 0x0, 1⟩
  | .trgGlev => some ⟨0xD0208, 64, 0x20, 32, 0x0, 1, 0x0, 1⟩
  | .trgGtime => some ⟨0xD0210, 64, 0x20, 32, 0x0, 1, 0x0, 1⟩
  | .trgGstat => some ⟨0xD0218, 64, 0x20, 32, 0x0, 1, 0x0, 1⟩
  | .trgCcfg => some ⟨0xD1000, 64, 0x40, 16, 0x0, 1, 0x0, 1⟩
  | .trgCbuf => some ⟨0xD1008, 64, 0x40, 16, 0x0, 1, 0x0, 1⟩
  | .trgCwin => some ⟨0xD1010, 64, 0x40, 16, 0x0, 1, 0x0, 1⟩
  | .trgCcmd => some ⟨0xD1018, 32, 0x40, 16, 0x0, 1, 0x0, 1⟩
  | .trgCstat => some ⟨0xD1020, 64, 0x40, 16, 0x0, 1, 0x0, 1⟩
  | .trgMcfg => some ⟨0xD2000, 32, 0x40, 16, 0x0, 1, 0x0, 1⟩
  | .trgMstat => some ⟨0xD2008, 64, 0x40, 16, 0x0, 1, 0x0, 1⟩
  | .trgMts => some ⟨0xD2020, 32, 0x40, 16, 0x4, 8, 0x0, 1⟩
  | .trgPat => some ⟨0xD4000, 64, 0x40, 256, 0x8, 4, 0x0, 1⟩
  | .trgPlen => some ⟨0xD4020, 32, 0x40, 256, 0x0, 1, 0x0, 1⟩
  | .trgTcfg => some ⟨0xE0000, 64, 0x20, 512, 0x0, 1, 0x0, 1⟩
  | .trgTlev => some ⟨0xE0008, 64, 0x20, 512, 0x0, 1, 0x0, 1⟩
  | .trgTstat => some ⟨0xE0010, 64, 0x20, 512, 0x0, 1, 0x0, 1⟩
  | .trgTcnt => some ⟨0xE0018, 32, 0x20, 512, 0x0, 1, 0x0, 1⟩
  | .drvCtrl => some ⟨0x100000, 32, 0x4000, 48, 0x0, 1, 0x0, 1⟩
  | .drvCnco => some ⟨0x100008, 32, 0x4000, 48, 0x0, 1, 0x0, 1⟩
  | .drvCncoAct => some ⟨0x10000C, 32, 0x4000, 48, 0x0, 1, 0x0, 1⟩
  | .drvLevel => some ⟨0x100010, 32, 0x4000, 48, 0x0, 1, 0x0, 1⟩
  | .drvLevelAct => some ⟨0x100014, 32, 0x4000, 48, 0x0, 1, 0x0, 1⟩
  | .drvPscale => some ⟨0x100018, 32, 0x4000, 48, 0x0, 1, 0x0, 1⟩
  | .drvStatus => some ⟨0x100020, 32, 0x4000, 48, 0x0, 1, 0x0, 1⟩
  | .drvClipcnt => some ⟨0x100028, 64, 0x4000, 48, 0x0, 1, 0x0, 1⟩
  | .drvStream => some ⟨0x100030, 32, 0x4000, 48, 0x0, 1, 0x0, 1⟩
  | .drvRfill => some ⟨0x100038, 32, 0x4000, 48, 0x0, 1, 0x0, 1⟩
  | .drvSfreq => some ⟨0x101000, 64, 0x4000, 48, 0x20, 32, 0x0, 1⟩
  | .drvSphase => some ⟨0x101008, 32, 0x4000, 48, 0x20, 32, 0x0, 1⟩
  | .drvSamp => some ⟨0x10100C, 32, 0x4000, 48, 0x20, 32, 0x0, 1⟩
  | .drvSctrl => some ⟨0x101010, 32, 0x4000, 48, 0x20, 32, 0x0, 1⟩
  | .prbSenv => some ⟨0x101014, 32, 0x4000, 48, 0x20, 32, 0x0, 1⟩
  | .prbEstopcnt => some ⟨0x100040, 32, 0x4000, 48, 0x0, 1, 0x0, 1⟩
  | .acqCtrl => some ⟨0x1C0000, 32, 0x4000, 16, 0x0, 1, 0x0, 1⟩
  | .acqCnco => some ⟨0x1C0008, 32, 0x4000, 16, 0x0, 1, 0x0, 1⟩
  | .acqCncoAct => some ⟨0x1C000C, 32, 0x4000, 16, 0x0, 1, 0x0, 1⟩
  | .acqStatus => some ⟨0x1C0010, 32, 0x4000, 16, 0x0, 1, 0x0, 1⟩
  | .acqCnt => some ⟨0x1C0018, 64, 0x4000, 16, 0x0, 1, 0x0, 1⟩
  | .acqCfgCtrl => some ⟨0x1C0020, 64, 0x4000, 16, 0x0, 1, 0x0, 1⟩
  | .acqTrack => some ⟨0x1C0028, 64, 0x4000, 16, 0x0, 1, 0x0, 1⟩
  | .acqTrack2 => some ⟨0x1C0030, 64, 0x4000, 16, 0x0, 1, 0x0, 1⟩
  | .acqCrev => some ⟨0x1C0038, 64, 0x4000, 16, 0x0, 1, 0x0, 1⟩
  | .acqDslot => some ⟨0x1C1000, 64, 0x4000, 16, 0x40, 32, 0x0, 1⟩
  | .acqDslotAct => some ⟨0x1C1008, 64, 0x4000, 16, 0x40, 32, 0x0, 1⟩
  | .acqKdesc => some ⟨0x1C1010, 32, 0x4000, 16, 0x40, 32, 0x4, 4⟩
  | .acqDtrk => some ⟨0x1C1020, 64, 0x4000, 16, 0x40, 32, 0x0, 1⟩
  | .acqDtrks => some ⟨0x1C1028, 64, 0x4000, 16, 0x40, 32, 0x0, 1⟩
  | .dscCfg => some ⟨0x200000, 32, 0x40, 512, 0x0, 1, 0x0, 1⟩
  | .dscAxa => some ⟨0x200008, 64, 0x40, 512, 0x0, 1, 0x0, 1⟩
  | .dscAxb => some ⟨0x200010, 64, 0x40, 512, 0x0, 1, 0x0, 1⟩
  | .dscDrift => some ⟨0x200018, 64, 0x40, 512, 0x0, 1, 0x0, 1⟩
  | .dscBnda => some ⟨0x200020, 64, 0x40, 512, 0x0, 1, 0x0, 1⟩
  | .dscBndb => some ⟨0x200028, 64, 0x40, 512, 0x0, 1, 0x0, 1⟩
  | .dscErase => some ⟨0x200030, 64, 0x40, 512, 0x0, 1, 0x0, 1⟩
  | .dscStat => some ⟨0x200038, 64, 0x40, 512, 0x0, 1, 0x0, 1⟩
  | .dscRsel0 => some ⟨0x210000, 64, 0x400, 64, 0x0, 1, 0x0, 1⟩
  | .dscRsel1 => some ⟨0x210008, 64, 0x400, 64, 0x0, 1, 0x0, 1⟩
  | .dscRtab => some ⟨0x210200, 64, 0x400, 64, 0x8, 64, 0x0, 1⟩
  | .dscColq => some ⟨0x220000, 32, 0x8, 16, 0x0, 1, 0x0, 1⟩
  | .dscCollost => some ⟨0x220080, 64, 0x8, 16, 0x0, 1, 0x0, 1⟩
  | .dscColstat => some ⟨0x220100, 32, 0x0, 1, 0x0, 1, 0x0, 1⟩
  | .dscXmask => some ⟨0x220200, 64, 0x40, 4, 0x8, 8, 0x0, 1⟩
  | .dscFwd => some ⟨0x220300, 64, 0x8, 4, 0x0, 1, 0x0, 1⟩
  | .dscXcnt => some ⟨0x220320, 64, 0x8, 4, 0x0, 1, 0x0, 1⟩
  | .dscImport => some ⟨0x221000, 64, 0x8, 256, 0x0, 1, 0x0, 1⟩
  | .dscDv => some ⟨0x222000, 64, 0x8, 96, 0x0, 1, 0x0, 1⟩
  | .seqCtrl => some ⟨0x240000, 32, 0x1000, 64, 0x0, 1, 0x0, 1⟩
  | .seqCmd => some ⟨0x240004, 32, 0x1000, 64, 0x0, 1, 0x0, 1⟩
  | .seqStart => some ⟨0x240008, 32, 0x1000, 64, 0x0, 1, 0x0, 1⟩
  | .seqJreq => some ⟨0x24000C, 32, 0x1000, 64, 0x0, 1, 0x0, 1⟩
  | .seqStatus => some ⟨0x240010, 32, 0x1000, 64, 0x0, 1, 0x0, 1⟩
  | .seqPc => some ⟨0x240014, 32, 0x1000, 64, 0x0, 1, 0x0, 1⟩
  | .seqShot => some ⟨0x240018, 32, 0x1000, 64, 0x0, 1, 0x0, 1⟩
  | .seqCnt => some ⟨0x240020, 64, 0x1000, 64, 0x0, 1, 0x0, 1⟩
  | .seqCnt2 => some ⟨0x240028, 64, 0x1000, 64, 0x0, 1, 0x0, 1⟩
  | .seqSreg => some ⟨0x240100, 32, 0x1000, 64, 0x4, 16, 0x0, 1⟩
  | .seqLoop => some ⟨0x240180, 32, 0x1000, 64, 0x4, 4, 0x0, 1⟩
  | .ucsCtrl => some ⟨0x280000, 32, 0x10000, 8, 0x0, 1, 0x0, 1⟩
  | .ucsStatus => some ⟨0x280008, 64, 0x10000, 8, 0x0, 1, 0x0, 1⟩
  | .ucsScnt => some ⟨0x280100, 64, 0x10000, 8, 0x8, 8, 0x0, 1⟩
  | .ucsDisp => some ⟨0x280400, 32, 0x10000, 8, 0x4, 128, 0x0, 1⟩
  | .ucsWord => some ⟨0x288000, 32, 0x10000, 8, 0x4, 8192, 0x0, 1⟩
  | .odrCtrl => some ⟨0x300000, 32, 0x10000, 16, 0x0, 1, 0x0, 1⟩
  | .odrStatus => some ⟨0x300008, 64, 0x10000, 16, 0x0, 1, 0x0, 1⟩
  | .odrPc => some ⟨0x300010, 32, 0x10000, 16, 0x0, 1, 0x0, 1⟩
  | .odrCnt => some ⟨0x300018, 64, 0x10000, 16, 0x0, 1, 0x0, 1⟩
  | .odrIrq => some ⟨0x300020, 64, 0x10000, 16, 0x0, 1, 0x0, 1⟩
  | .odrVbase => some ⟨0x300028, 32, 0x10000, 16, 0x0, 1, 0x0, 1⟩
  | .odrMbmask => some ⟨0x300100, 64, 0x10000, 16, 0x8, 12, 0x0, 1⟩
  | .odrGmask => some ⟨0x300200, 64, 0x10000, 16, 0x80, 4, 0x8, 12⟩
  | .odrGrp => some ⟨0x300400, 64, 0x10000, 16, 0x8, 4, 0x0, 1⟩
  | .odrEvsub => some ⟨0x300480, 32, 0x10000, 16, 0x4, 16, 0x0, 1⟩
  | .odrMainG => some ⟨0x301000, 32, 0x10000, 16, 0x4, 16, 0x0, 1⟩
  | .odrMainA => some ⟨0x301040, 32, 0x10000, 16, 0x4, 8, 0x0, 1⟩
  | .odrM => some ⟨0x301060, 32, 0x10000, 16, 0x4, 8, 0x0, 1⟩
  | .odrShadowG => some ⟨0x301080, 32, 0x10000, 16, 0x4, 16, 0x0, 1⟩
  | .odrShadowA => some ⟨0x3010C0, 32, 0x10000, 16, 0x4, 8, 0x0, 1⟩
  | .odrMainCre => some ⟨0x301100, 64, 0x10000, 16, 0x10, 4, 0x0, 1⟩
  | .odrMainCim => some ⟨0x301108, 64, 0x10000, 16, 0x10, 4, 0x0, 1⟩
  | .odrShadowCre => some ⟨0x301180, 64, 0x10000, 16, 0x10, 4, 0x0, 1⟩
  | .odrShadowCim => some ⟨0x301188, 64, 0x10000, 16, 0x10, 4, 0x0, 1⟩
  | .dbCmd => none
  | .dbRing => none
  | .msixPba => none
  | .msixTable => none
  | .viewAddr => none

/-- The field table of each register: access, effect and reset value (R6). A reset value that is
not one number is 0 here and given by `resetOf`. -/
def Reg.fields : Reg → List FieldSpec
  | .glbId =>
    [FieldSpec.mk F.GLB_ID_FAMILY .ro .none 19282, FieldSpec.mk F.GLB_ID_PART .ro .none 1298, FieldSpec.mk F.GLB_ID_STEP_MAJ .ro .none 1,
     FieldSpec.mk F.GLB_ID_STEP_MIN .ro .none 0, FieldSpec.mk F.GLB_ID_UIMG .ro .none 256]
  | .glbVariant =>
    [FieldSpec.mk F.GLB_VARIANT_BUDGET .ro .none 0, FieldSpec.mk F.GLB_VARIANT_USABLE_GIB .ro .none 0, FieldSpec.mk F.GLB_VARIANT_DRAM_CH .ro .none 0,
     FieldSpec.mk F.GLB_VARIANT_CODE .ro .none 0]
  | .glbSerial =>
    [FieldSpec.mk F.GLB_SERIAL_SERIAL .ro .none 0]
  | .glbCap =>
    [FieldSpec.mk F.GLB_CAP_NVF .ro .none 15, FieldSpec.mk F.GLB_CAP_NHAB .ro .none 4, FieldSpec.mk F.GLB_CAP_NBIAS .ro .none 64,
     FieldSpec.mk F.GLB_CAP_NODR .ro .none 16, FieldSpec.mk F.GLB_CAP_NSEQ .ro .none 64, FieldSpec.mk F.GLB_CAP_NACQ .ro .none 16,
     FieldSpec.mk F.GLB_CAP_NPRB .ro .none 16, FieldSpec.mk F.GLB_CAP_NDRV .ro .none 32]
  | .glbStrap =>
    [FieldSpec.mk F.GLB_STRAP_STRAP .ro .none 0]
  | .glbAccerr =>
    [FieldSpec.mk F.GLB_ACCERR_ADDR .ro .none 0, FieldSpec.mk F.GLB_ACCERR_FUNC .ro .none 0, FieldSpec.mk F.GLB_ACCERR_RSVD_SET .w1c .imm 0,
     FieldSpec.mk F.GLB_ACCERR_PAIR_REFUSED .w1c .imm 0, FieldSpec.mk F.GLB_ACCERR_PARTIAL .w1c .imm 0]
  | .glbScratch =>
    [FieldSpec.mk F.GLB_SCRATCH_VALUE .rw .imm 0]
  | .glbPwr =>
    [FieldSpec.mk F.GLB_PWR_HIB_WAIT .rw .imm 100, FieldSpec.mk F.GLB_PWR_LOCK_NEEDED .w1c .imm 0, FieldSpec.mk F.GLB_PWR_REFUSED .w1c .imm 0,
     FieldSpec.mk F.GLB_PWR_STATE .ro .none 0, FieldSpec.mk F.GLB_PWR_REQ .rw .imm 0]
  | .glbBrst =>
    [FieldSpec.mk F.GLB_BRST_BUSY .ro .none 0, FieldSpec.mk F.GLB_BRST_REFUSED .w1c .imm 0, FieldSpec.mk F.GLB_BRST_KIND .wo .imm 0,
     FieldSpec.mk F.GLB_BRST_INDEX .wo .imm 0]
  | .glbLc =>
    [FieldSpec.mk F.GLB_LC_CONFIRM .wo .imm 0, FieldSpec.mk F.GLB_LC_TARGET .wo .imm 0, FieldSpec.mk F.GLB_LC_REF_CAUSE .ro .none 0,
     FieldSpec.mk F.GLB_LC_SWEEP_PEND .ro .none 0, FieldSpec.mk F.GLB_LC_REFUSED .w1c .imm 0, FieldSpec.mk F.GLB_LC_STATE .ro .none 0]
  | .glbChmapStage =>
    [FieldSpec.mk F.GLB_CHMAP_STAGE_RD_IDX .rw .imm 0, FieldSpec.mk F.GLB_CHMAP_STAGE_DRV_IDX .rw .imm 0]
  | .glbChmapCtrl =>
    [FieldSpec.mk F.GLB_CHMAP_CTRL_APPLY_COUNT .ro .none 0, FieldSpec.mk F.GLB_CHMAP_CTRL_DUP_ENTRY .ro .none 0, FieldSpec.mk F.GLB_CHMAP_CTRL_STATUS .ro .none 0,
     FieldSpec.mk F.GLB_CHMAP_CTRL_APPLY .wo .imm 0]
  | .glbChmapAct =>
    [FieldSpec.mk F.GLB_CHMAP_ACT_RD_IDX .ro .none 0, FieldSpec.mk F.GLB_CHMAP_ACT_DRV_IDX .ro .none 0]
  | .timRefCfg =>
    [FieldSpec.mk F.TIM_REF_CFG_REFOUT_EN .rw .imm 0, FieldSpec.mk F.TIM_REF_CFG_CLEAN_100 .rw .imm 0, FieldSpec.mk F.TIM_REF_CFG_REF_SEL .rw .imm 0]
  | .timStatus =>
    [FieldSpec.mk F.TIM_STATUS_DL_COLLIDE .w1c .imm 0, FieldSpec.mk F.TIM_STATUS_LOAD_REFUSED .w1c .imm 0, FieldSpec.mk F.TIM_STATUS_MSYNC_MARGIN_LOW .w1c .imm 0,
     FieldSpec.mk F.TIM_STATUS_REF_LOST .w1c .imm 0, FieldSpec.mk F.TIM_STATUS_REF_MISMATCH .ro .none 0, FieldSpec.mk F.TIM_STATUS_HOLDOVER .ro .none 0,
     FieldSpec.mk F.TIM_STATUS_ALIGNED .ro .none 0, FieldSpec.mk F.TIM_STATUS_SCLK_LOCK .ro .none 0, FieldSpec.mk F.TIM_STATUS_CLEAN_LOCK .ro .none 0,
     FieldSpec.mk F.TIM_STATUS_REF_IS_10M .ro .none 0, FieldSpec.mk F.TIM_STATUS_REF_PRESENT .ro .none 0]
  | .timNow =>
    [FieldSpec.mk F.TIM_NOW_NOW .ro .none 0]
  | .timMsyncCtrl =>
    [FieldSpec.mk F.TIM_MSYNC_CTRL_COMP .rw .imm 0, FieldSpec.mk F.TIM_MSYNC_CTRL_OUT_MODE .rw .imm 0, FieldSpec.mk F.TIM_MSYNC_CTRL_ARM .rw .imm 0,
     FieldSpec.mk F.TIM_MSYNC_CTRL_SOFT .wo .imm 0]
  | .timMsyncLoad =>
    [FieldSpec.mk F.TIM_MSYNC_LOAD_LOAD .rw .imm 0]
  | .timMsyncOutAt =>
    [FieldSpec.mk F.TIM_MSYNC_OUT_AT_OUT_AT .rw .imm 0]
  | .timMsyncCapt =>
    [FieldSpec.mk F.TIM_MSYNC_CAPT_CAP_TICK .ro .none 0]
  | .timMsyncCapi =>
    [FieldSpec.mk F.TIM_MSYNC_CAPI_MARGIN .ro .none 0, FieldSpec.mk F.TIM_MSYNC_CAPI_FRAC .ro .none 0, FieldSpec.mk F.TIM_MSYNC_CAPI_LOADED .ro .none 0,
     FieldSpec.mk F.TIM_MSYNC_CAPI_VALID .ro .none 0]
  | .timDlPolicy =>
    [FieldSpec.mk F.TIM_DL_POLICY_POLICY_0 .rw .imm 0, FieldSpec.mk F.TIM_DL_POLICY_POLICY_1 .rw .imm 0, FieldSpec.mk F.TIM_DL_POLICY_POLICY_2 .rw .imm 0,
     FieldSpec.mk F.TIM_DL_POLICY_POLICY_3 .rw .imm 0, FieldSpec.mk F.TIM_DL_POLICY_POLICY_4 .rw .imm 0, FieldSpec.mk F.TIM_DL_POLICY_POLICY_5 .rw .imm 0]
  | .timDlMiss =>
    [FieldSpec.mk F.TIM_DL_MISS_RANGE_COUNT .rc .none 0, FieldSpec.mk F.TIM_DL_MISS_MISS_COUNT .rc .none 0]
  | .timDtrim =>
    [FieldSpec.mk F.TIM_DTRIM_DLY .rw .frame 0]
  | .timAtrim =>
    [FieldSpec.mk F.TIM_ATRIM_DLY .rw .frame 0]
  | .hifLink =>
    [FieldSpec.mk F.HIF_LINK_UP .ro .none 0, FieldSpec.mk F.HIF_LINK_WIDTH .ro .none 0, FieldSpec.mk F.HIF_LINK_SPEED .ro .none 0]
  | .hifGstat =>
    [FieldSpec.mk F.HIF_GSTAT_OWN_IDX .ro .none 0, FieldSpec.mk F.HIF_GSTAT_NUMVF .ro .none 0, FieldSpec.mk F.HIF_GSTAT_OWN_REFUSED .w1c .imm 0]
  | .hifOwn =>
    [FieldSpec.mk F.HIF_OWN_OWNER_0 .rw .imm 0, FieldSpec.mk F.HIF_OWN_OWNER_1 .rw .imm 0, FieldSpec.mk F.HIF_OWN_OWNER_2 .rw .imm 0,
     FieldSpec.mk F.HIF_OWN_OWNER_3 .rw .imm 0, FieldSpec.mk F.HIF_OWN_OWNER_4 .rw .imm 0, FieldSpec.mk F.HIF_OWN_OWNER_5 .rw .imm 0,
     FieldSpec.mk F.HIF_OWN_OWNER_6 .rw .imm 0, FieldSpec.mk F.HIF_OWN_OWNER_7 .rw .imm 0, FieldSpec.mk F.HIF_OWN_OWNER_8 .rw .imm 0,
     FieldSpec.mk F.HIF_OWN_OWNER_9 .rw .imm 0, FieldSpec.mk F.HIF_OWN_OWNER_10 .rw .imm 0, FieldSpec.mk F.HIF_OWN_OWNER_11 .rw .imm 0,
     FieldSpec.mk F.HIF_OWN_OWNER_12 .rw .imm 0, FieldSpec.mk F.HIF_OWN_OWNER_13 .rw .imm 0, FieldSpec.mk F.HIF_OWN_OWNER_14 .rw .imm 0,
     FieldSpec.mk F.HIF_OWN_OWNER_15 .rw .imm 0]
  | .hifFctrl =>
    [FieldSpec.mk F.HIF_FCTRL_SUMMARY_EN .rw .imm 0, FieldSpec.mk F.HIF_FCTRL_EN .rw .imm 0]
  | .hifFstat =>
    [FieldSpec.mk F.HIF_FSTAT_DISCARDS .rc .none 0, FieldSpec.mk F.HIF_FSTAT_DRAM_DENIED .w1c .imm 0, FieldSpec.mk F.HIF_FSTAT_ENV_DENIED .w1c .imm 0,
     FieldSpec.mk F.HIF_FSTAT_DMA_ERR .w1c .imm 0, FieldSpec.mk F.HIF_FSTAT_ACCESS_DENIED .w1c .imm 0, FieldSpec.mk F.HIF_FSTAT_RING_ERR .w1c .imm 0,
     FieldSpec.mk F.HIF_FSTAT_SWEEP .ro .none 0, FieldSpec.mk F.HIF_FSTAT_FLUSHING .ro .none 0, FieldSpec.mk F.HIF_FSTAT_ACTIVE .ro .none 0]
  | .hifIrqmap =>
    [FieldSpec.mk F.HIF_IRQMAP_EN_0 .rw .imm 0, FieldSpec.mk F.HIF_IRQMAP_EN_1 .rw .imm 0, FieldSpec.mk F.HIF_IRQMAP_EN_2 .rw .imm 0,
     FieldSpec.mk F.HIF_IRQMAP_EN_3 .rw .imm 0, FieldSpec.mk F.HIF_IRQMAP_EN_4 .rw .imm 0, FieldSpec.mk F.HIF_IRQMAP_EN_5 .rw .imm 0,
     FieldSpec.mk F.HIF_IRQMAP_EN_6 .rw .imm 0, FieldSpec.mk F.HIF_IRQMAP_VEC_0 .rw .imm 0, FieldSpec.mk F.HIF_IRQMAP_VEC_1 .rw .imm 1,
     FieldSpec.mk F.HIF_IRQMAP_VEC_2 .rw .imm 2, FieldSpec.mk F.HIF_IRQMAP_VEC_3 .rw .imm 3, FieldSpec.mk F.HIF_IRQMAP_VEC_4 .rw .imm 4,
     FieldSpec.mk F.HIF_IRQMAP_VEC_5 .rw .imm 5, FieldSpec.mk F.HIF_IRQMAP_VEC_6 .rw .imm 6]
  | .hifSpart =>
    [FieldSpec.mk F.HIF_SPART_SIZE .rw .imm 0, FieldSpec.mk F.HIF_SPART_BASE .rw .imm 0]
  | .hifDpart =>
    [FieldSpec.mk F.HIF_DPART_SIZE .rw .imm 0, FieldSpec.mk F.HIF_DPART_BASE .rw .imm 0]
  | .hifRbase =>
    [FieldSpec.mk F.HIF_RBASE_ADDR .rw .imm 0]
  | .hifRcfg =>
    [FieldSpec.mk F.HIF_RCFG_EN .rw .imm 0, FieldSpec.mk F.HIF_RCFG_LOG2N .rw .imm 4, FieldSpec.mk F.HIF_RCFG_MODER .rw .imm 0]
  | .hifAp =>
    [FieldSpec.mk F.HIF_AP_EN .rw .imm 0, FieldSpec.mk F.HIF_AP_PAGE .rw .imm 0]
  | .evfStatus =>
    [FieldSpec.mk F.EVF_STATUS_QUOTA_ERR .w1c .imm 0, FieldSpec.mk F.EVF_STATUS_LOOP .w1c .imm 0]
  | .evfFire =>
    [FieldSpec.mk F.EVF_FIRE_CH .wo .tick 0]
  | .evfFstat =>
    [FieldSpec.mk F.EVF_FSTAT_LOG_LOST .rc .none 0, FieldSpec.mk F.EVF_FSTAT_MAP_REFUSED .w1c .imm 0, FieldSpec.mk F.EVF_FSTAT_FIRE_REFUSED .w1c .imm 0]
  | .evfLogq =>
    [FieldSpec.mk F.EVF_LOGQ_FILL .ro .none 0, FieldSpec.mk F.EVF_LOGQ_QUOTA .rw .imm 0]
  | .evfSrcmap =>
    [FieldSpec.mk F.EVF_SRCMAP_EN .rw .imm 0, FieldSpec.mk F.EVF_SRCMAP_CH .rw .imm 0]
  | .evfLink =>
    [FieldSpec.mk F.EVF_LINK_DELAY .rw .tick 0, FieldSpec.mk F.EVF_LINK_EN .rw .tick 0, FieldSpec.mk F.EVF_LINK_LOOP .w1c .imm 0,
     FieldSpec.mk F.EVF_LINK_OVF .w1c .imm 0, FieldSpec.mk F.EVF_LINK_DST .rw .tick 0, FieldSpec.mk F.EVF_LINK_SRC .rw .tick 0]
  | .evfChcfg =>
    [FieldSpec.mk F.EVF_CHCFG_EN .rw .imm 0, FieldSpec.mk F.EVF_CHCFG_OKIND .rw .imm 0, FieldSpec.mk F.EVF_CHCFG_OIDX .rw .imm 0,
     FieldSpec.mk F.EVF_CHCFG_SEC .rw .imm 0, FieldSpec.mk F.EVF_CHCFG_IRQ .rw .imm 0, FieldSpec.mk F.EVF_CHCFG_LOG .rw .imm 0]
  | .evfChstat =>
    [FieldSpec.mk F.EVF_CHSTAT_PUBLISHED .ro .none 0, FieldSpec.mk F.EVF_CHSTAT_DROPS .rc .none 0, FieldSpec.mk F.EVF_CHSTAT_DENIED .w1c .imm 0,
     FieldSpec.mk F.EVF_CHSTAT_LOOP .w1c .imm 0]
  | .evfTin =>
    [FieldSpec.mk F.EVF_TIN_CCOUNT .rc .none 0, FieldSpec.mk F.EVF_TIN_ACTS .ro .none 0, FieldSpec.mk F.EVF_TIN_COINC .w1c .imm 0]
  | .cntCtrl =>
    [FieldSpec.mk F.CNT_CTRL_PERIOD .rw .imm 800000, FieldSpec.mk F.CNT_CTRL_SNAP .wo .tick 0, FieldSpec.mk F.CNT_CTRL_DUMP_EN .rw .imm 0]
  | .cntStatus =>
    [FieldSpec.mk F.CNT_STATUS_DUMP_SEQ .ro .none 0, FieldSpec.mk F.CNT_STATUS_LAST_SNAP .ro .none 0]
  | .cntFstat =>
    [FieldSpec.mk F.CNT_FSTAT_DUMP_MISS .rc .none 0, FieldSpec.mk F.CNT_FSTAT_SEL_DENIED .w1c .imm 0]
  | .cntCfg =>
    [FieldSpec.mk F.CNT_CFG_EN .rw .tick 0, FieldSpec.mk F.CNT_CFG_OWNER .rw .imm 0, FieldSpec.mk F.CNT_CFG_MODE .rw .tick 0,
     FieldSpec.mk F.CNT_CFG_SEL .rw .tick 0]
  | .cntVal =>
    [FieldSpec.mk F.CNT_VAL_WRAP .w1c .imm 0, FieldSpec.mk F.CNT_VAL_VALUE .rw .tick 0]
  | .memDctrl =>
    [FieldSpec.mk F.MEM_DCTRL_SCRUB_H .rw .imm 24, FieldSpec.mk F.MEM_DCTRL_PASR .rw .imm 0, FieldSpec.mk F.MEM_DCTRL_TRAINED .w1s .imm 0]
  | .memDstat =>
    [FieldSpec.mk F.MEM_DSTAT_RETRAINS .ro .none 0, FieldSpec.mk F.MEM_DSTAT_TFAULT .w1c .imm 0, FieldSpec.mk F.MEM_DSTAT_DLY_REFUSED .w1c .imm 0,
     FieldSpec.mk F.MEM_DSTAT_SWEEP_BUSY .ro .none 0, FieldSpec.mk F.MEM_DSTAT_DRAM_READY .ro .none 0, FieldSpec.mk F.MEM_DSTAT_SELF_REFRESH .ro .none 0]
  | .memTrain =>
    [FieldSpec.mk F.MEM_TRAIN_ERRCNT .ro .none 0, FieldSpec.mk F.MEM_TRAIN_RUN .wo .imm 0, FieldSpec.mk F.MEM_TRAIN_BUSY .ro .none 0,
     FieldSpec.mk F.MEM_TRAIN_DLY .rw .imm 0, FieldSpec.mk F.MEM_TRAIN_DIR .rw .imm 0, FieldSpec.mk F.MEM_TRAIN_BYTE .rw .imm 0,
     FieldSpec.mk F.MEM_TRAIN_CH .rw .imm 0]
  | .memSload =>
    [FieldSpec.mk F.MEM_SLOAD_OVERBUDGET .w1c .imm 0, FieldSpec.mk F.MEM_SLOAD_PEAK .rc .none 0, FieldSpec.mk F.MEM_SLOAD_LOAD .ro .none 0]
  | .memDdly =>
    [FieldSpec.mk F.MEM_DDLY_WR_ACT .ro .none 0, FieldSpec.mk F.MEM_DDLY_RD_ACT .ro .none 0, FieldSpec.mk F.MEM_DDLY_WR_DLY .rw .imm 0,
     FieldSpec.mk F.MEM_DDLY_RD_DLY .rw .imm 0]
  | .memPanic =>
    [FieldSpec.mk F.MEM_PANIC_PANIC_TICKS .rc .none 0, FieldSpec.mk F.MEM_PANIC_PANIC .ro .none 0, FieldSpec.mk F.MEM_PANIC_LEVEL .rw .imm 16384]
  | .memEcc =>
    [FieldSpec.mk F.MEM_ECC_CORR_COUNT .rc .none 0, FieldSpec.mk F.MEM_ECC_POISON_COUNT .rc .none 0, FieldSpec.mk F.MEM_ECC_LAST_WORD .ro .none 0]
  | .lnkGcfg =>
    [FieldSpec.mk F.LNK_GCFG_MODNUM .rw .imm 0]
  | .lnkPeers =>
    [FieldSpec.mk F.LNK_PEERS_PEERS .rw .imm 0]
  | .lnkPcfg =>
    [FieldSpec.mk F.LNK_PCFG_LT .rw .imm 24, FieldSpec.mk F.LNK_PCFG_FOM_MIN .rw .imm 64, FieldSpec.mk F.LNK_PCFG_RXPARAM_EN .rw .imm 0,
     FieldSpec.mk F.LNK_PCFG_RAWPAT .rw .imm 0, FieldSpec.mk F.LNK_PCFG_MODE .rw .imm 0, FieldSpec.mk F.LNK_PCFG_EN .rw .imm 0]
  | .lnkPstat =>
    [FieldSpec.mk F.LNK_PSTAT_LT_MIN .ro .none 0, FieldSpec.mk F.LNK_PSTAT_PEER_MOD .ro .none 0, FieldSpec.mk F.LNK_PSTAT_MODNUM_CLASH .w1c .imm 0,
     FieldSpec.mk F.LNK_PSTAT_LT_SHORT .w1c .imm 0, FieldSpec.mk F.LNK_PSTAT_XVALID .ro .none 0, FieldSpec.mk F.LNK_PSTAT_STATE .ro .none 0]
  | .lnkXch =>
    [FieldSpec.mk F.LNK_XCH_OFS .ro .none 0, FieldSpec.mk F.LNK_XCH_DELAY .ro .none 0]
  | .lnkCnt =>
    [FieldSpec.mk F.LNK_CNT_BIP_ERR .rc .none 0, FieldSpec.mk F.LNK_CNT_CHK_ERR .rc .none 0, FieldSpec.mk F.LNK_CNT_RX_DROP .rc .none 0,
     FieldSpec.mk F.LNK_CNT_PARAM_REF .rc .none 0]
  | .lnkFbuf =>
    [FieldSpec.mk F.LNK_FBUF_BASE .rw .imm 0, FieldSpec.mk F.LNK_FBUF_LOG2SZ .rw .imm 12]
  | .lnkFptr =>
    [FieldSpec.mk F.LNK_FPTR_PROD .rw .imm 0, FieldSpec.mk F.LNK_FPTR_CONS .rw .imm 0]
  | .lnkLane =>
    [FieldSpec.mk F.LNK_LANE_FOM .ro .none 0, FieldSpec.mk F.LNK_LANE_SLIPS .ro .none 0, FieldSpec.mk F.LNK_LANE_PRBS_ERR .w1c .imm 0,
     FieldSpec.mk F.LNK_LANE_BLOCK_LOCK .ro .none 0, FieldSpec.mk F.LNK_LANE_SLIP .wo .imm 0]
  | .netCfg =>
    [FieldSpec.mk F.NET_CFG_FEC .rw .imm 0, FieldSpec.mk F.NET_CFG_RXTS_ALL .rw .imm 0, FieldSpec.mk F.NET_CFG_CORR_EN .rw .imm 1,
     FieldSpec.mk F.NET_CFG_SPEED .rw .imm 0, FieldSpec.mk F.NET_CFG_EN .rw .imm 0]
  | .netStat =>
    [FieldSpec.mk F.NET_STAT_TXTS_DROP .rc .none 0, FieldSpec.mk F.NET_STAT_RX_DROP .rc .none 0, FieldSpec.mk F.NET_STAT_JUMP_PEND .ro .none 0,
     FieldSpec.mk F.NET_STAT_UNSET .ro .none 1, FieldSpec.mk F.NET_STAT_INCR_REFUSED .w1c .imm 0, FieldSpec.mk F.NET_STAT_LINK .ro .none 0]
  | .netTxq =>
    [FieldSpec.mk F.NET_TXQ_BASE .rw .imm 0, FieldSpec.mk F.NET_TXQ_LOG2N .rw .imm 4, FieldSpec.mk F.NET_TXQ_EN .rw .imm 0]
  | .netRxq =>
    [FieldSpec.mk F.NET_RXQ_BASE .rw .imm 0, FieldSpec.mk F.NET_RXQ_LOG2N .rw .imm 4, FieldSpec.mk F.NET_RXQ_EN .rw .imm 0]
  | .netDb =>
    [FieldSpec.mk F.NET_DB_RX .wo .imm 0, FieldSpec.mk F.NET_DB_TX .wo .imm 0]
  | .netPtpIncr =>
    [FieldSpec.mk F.NET_PTP_INCR_INCR .rw .imm 17179869184]
  | .netPtpNs =>
    [FieldSpec.mk F.NET_PTP_NS_NS .ro .none 0, FieldSpec.mk F.NET_PTP_NS_FRAC .ro .none 0]
  | .netPtpSec =>
    [FieldSpec.mk F.NET_PTP_SEC_SEC .ro .none 0]
  | .netPtpAdj =>
    [FieldSpec.mk F.NET_PTP_ADJ_ADJ .rw .imm 0]
  | .netPtpCtrl =>
    [FieldSpec.mk F.NET_PTP_CTRL_JUMP_THR .rw .imm 1000]
  | .netPtpCtrl2 =>
    [FieldSpec.mk F.NET_PTP_CTRL2_PAIR_CNT .ro .none 0, FieldSpec.mk F.NET_PTP_CTRL2_PAIR_AUTO .rw .imm 0, FieldSpec.mk F.NET_PTP_CTRL2_PAIR .wo .imm 0,
     FieldSpec.mk F.NET_PTP_CTRL2_ACCEPT .wo .imm 0]
  | .netPairTick =>
    [FieldSpec.mk F.NET_PAIR_TICK_TICK .ro .none 0]
  | .netPairSec =>
    [FieldSpec.mk F.NET_PAIR_SEC_SEC .ro .none 0]
  | .netPairNs =>
    [FieldSpec.mk F.NET_PAIR_NS_NS .ro .none 0, FieldSpec.mk F.NET_PAIR_NS_FRAC .ro .none 0]
  | .netTxts0 =>
    [FieldSpec.mk F.NET_TXTS0_VALID .ro .none 0, FieldSpec.mk F.NET_TXTS0_ID .ro .none 0, FieldSpec.mk F.NET_TXTS0_QNS .ro .none 0,
     FieldSpec.mk F.NET_TXTS0_NS .ro .none 0]
  | .netTxts1 =>
    [FieldSpec.mk F.NET_TXTS1_SEC .ro .none 0]
  | .rcvCtrl =>
    [FieldSpec.mk F.RCV_CTRL_HB_TMO .rw .imm 50, FieldSpec.mk F.RCV_CTRL_PERSIST_MAX .rw .imm 3, FieldSpec.mk F.RCV_CTRL_FN_ALL .rw .imm 0]
  | .rcvStatus =>
    [FieldSpec.mk F.RCV_STATUS_RECOVERIES .ro .none 0, FieldSpec.mk F.RCV_STATUS_ISL_BUSY .ro .none 0, FieldSpec.mk F.RCV_STATUS_CONTAINED .ro .none 0,
     FieldSpec.mk F.RCV_STATUS_TIMING .ro .none 0, FieldSpec.mk F.RCV_STATUS_TILE_OFF .ro .none 0]
  | .rcvLog =>
    [FieldSpec.mk F.RCV_LOG_TICK .ro .none 0, FieldSpec.mk F.RCV_LOG_INDEX .ro .none 0, FieldSpec.mk F.RCV_LOG_CAUSE .ro .none 0]
  | .rcvLogptr =>
    [FieldSpec.mk F.RCV_LOGPTR_TOTAL .ro .none 0, FieldSpec.mk F.RCV_LOGPTR_NEXT .ro .none 0]
  | .rcvRctl =>
    [FieldSpec.mk F.RCV_RCTL_RESUME .wo .imm 0, FieldSpec.mk F.RCV_RCTL_RELEASE .wo .imm 0, FieldSpec.mk F.RCV_RCTL_HOLD .rw .imm 0]
  | .rcvRstat =>
    [FieldSpec.mk F.RCV_RSTAT_FAULTS .ro .none 0, FieldSpec.mk F.RCV_RSTAT_HELD_MSGS .ro .none 0, FieldSpec.mk F.RCV_RSTAT_PERSIST .w1c .imm 0,
     FieldSpec.mk F.RCV_RSTAT_STATE .ro .none 0]
  | .rcvResume =>
    [FieldSpec.mk F.RCV_RESUME_VALID .ro .none 0, FieldSpec.mk F.RCV_RESUME_PC .ro .none 0]
  | .calCtrl =>
    [FieldSpec.mk F.CAL_CTRL_BPER .rw .imm 10, FieldSpec.mk F.CAL_CTRL_FPER .rw .imm 60, FieldSpec.mk F.CAL_CTRL_APER .rw .imm 10,
     FieldSpec.mk F.CAL_CTRL_RELOAD .wo .imm 0, FieldSpec.mk F.CAL_CTRL_BIAS_EN .rw .imm 0, FieldSpec.mk F.CAL_CTRL_FMOD_EN .rw .imm 1,
     FieldSpec.mk F.CAL_CTRL_ADC_EN .rw .imm 1, FieldSpec.mk F.CAL_CTRL_DAC_EN .rw .imm 1]
  | .calStatus =>
    [FieldSpec.mk F.CAL_STATUS_FORCED .rc .none 0, FieldSpec.mk F.CAL_STATUS_FSTARVED .w1c .imm 0, FieldSpec.mk F.CAL_STATUS_ASTARVED .w1c .imm 0]
  | .calRot =>
    [FieldSpec.mk F.CAL_ROT_HANDOVERS .ro .none 0, FieldSpec.mk F.CAL_ROT_FORCED .rc .none 0, FieldSpec.mk F.CAL_ROT_PER_MS .rw .imm 1000,
     FieldSpec.mk F.CAL_ROT_PHASE .ro .none 0, FieldSpec.mk F.CAL_ROT_CUR .ro .none 6]
  | .calActl =>
    [FieldSpec.mk F.CAL_ACTL_STEPS .ro .none 0, FieldSpec.mk F.CAL_ACTL_FORCE_EN .rw .imm 0, FieldSpec.mk F.CAL_ACTL_EN .rw .imm 1]
  | .calAcoef =>
    [FieldSpec.mk F.CAL_ACOEF_GAIN .rw .frame 0, FieldSpec.mk F.CAL_ACOEF_OFFSET .rw .frame 0, FieldSpec.mk F.CAL_ACOEF_TSKEW .rw .frame 0]
  | .calDcoef =>
    [FieldSpec.mk F.CAL_DCOEF_GAIN .rw .frame 0, FieldSpec.mk F.CAL_DCOEF_OFFSET .rw .frame 0, FieldSpec.mk F.CAL_DCOEF_TSKEW .rw .frame 0]
  | .calGcal =>
    [FieldSpec.mk F.CAL_GCAL_GCAL .rw .frame 0]
  | .calFmod =>
    [FieldSpec.mk F.CAL_FMOD_GAIN .rw .imm 0, FieldSpec.mk F.CAL_FMOD_OFFSET .rw .imm 0, FieldSpec.mk F.CAL_FMOD_FORCE_EN .rw .imm 0,
     FieldSpec.mk F.CAL_FMOD_GAP_EN .rw .imm 0, FieldSpec.mk F.CAL_FMOD_GAP_AFTER .rw .imm 0]
  | .calBias =>
    [FieldSpec.mk F.CAL_BIAS_AUTO .rw .imm 0]
  | .govCtrl =>
    [FieldSpec.mk F.GOV_CTRL_LOCK .w1s .imm 0]
  | .govWin =>
    [FieldSpec.mk F.GOV_WIN_LBIN .rw .imm 200000, FieldSpec.mk F.GOV_WIN_SBIN .rw .imm 200]
  | .govStatus =>
    [FieldSpec.mk F.GOV_STATUS_POOL_FB .ro .none 0, FieldSpec.mk F.GOV_STATUS_WIN_REFUSED .w1c .imm 0, FieldSpec.mk F.GOV_STATUS_WR_LOCKED .w1c .imm 0,
     FieldSpec.mk F.GOV_STATUS_LOCKED .ro .none 0]
  | .govBuds =>
    [FieldSpec.mk F.GOV_BUDS_BUD .rw .imm 18446744073709551615]
  | .govBudl =>
    [FieldSpec.mk F.GOV_BUDL_BUD .rw .imm 18446744073709551615]
  | .govCeils =>
    [FieldSpec.mk F.GOV_CEILS_CEIL .rw .imm 18446744073709551615]
  | .govCeill =>
    [FieldSpec.mk F.GOV_CEILL_CEIL .rw .imm 18446744073709551615]
  | .govTals =>
    [FieldSpec.mk F.GOV_TALS_TAL .ro .none 0]
  | .govTall =>
    [FieldSpec.mk F.GOV_TALL_TAL .ro .none 0]
  | .govLcfg =>
    [FieldSpec.mk F.GOV_LCFG_STAGE .rw .imm 0, FieldSpec.mk F.GOV_LCFG_PCOH .rw .imm 32, FieldSpec.mk F.GOV_LCFG_SCALE_MIN .rw .imm 128,
     FieldSpec.mk F.GOV_LCFG_POOL .rw .imm 0, FieldSpec.mk F.GOV_LCFG_ACT .rw .imm 2]
  | .govLcnt =>
    [FieldSpec.mk F.GOV_LCNT_MUTES .rc .none 0, FieldSpec.mk F.GOV_LCNT_VETOES .rc .none 0, FieldSpec.mk F.GOV_LCNT_SCALES .rc .none 0,
     FieldSpec.mk F.GOV_LCNT_GG .ro .none 256]
  | .govAllot =>
    [FieldSpec.mk F.GOV_ALLOT_ALLOT .rw .imm 18446744073709551615]
  | .govBload =>
    [FieldSpec.mk F.GOV_BLOAD_L_NH .rw .imm 0, FieldSpec.mk F.GOV_BLOAD_R_MOHM .rw .imm 0]
  | .govBlim =>
    [FieldSpec.mk F.GOV_BLIM_EMAX_NJ .rw .imm 0, FieldSpec.mk F.GOV_BLIM_VMAX_MV .rw .imm 0]
  | .govBslew =>
    [FieldSpec.mk F.GOV_BSLEW_SLEW .rw .imm 0]
  | .govBstat =>
    [FieldSpec.mk F.GOV_BSTAT_CFG_ERR .w1c .imm 0, FieldSpec.mk F.GOV_BSTAT_IMM_DENIED .w1c .imm 0, FieldSpec.mk F.GOV_BSTAT_CLAMP .w1c .imm 0]
  | .frnCtrl =>
    [FieldSpec.mk F.FRN_CTRL_LPER .rw .imm 1000, FieldSpec.mk F.FRN_CTRL_TRIG_CH .rw .imm 0, FieldSpec.mk F.FRN_CTRL_TRIG_EN .rw .imm 0,
     FieldSpec.mk F.FRN_CTRL_SOFT_TRIG .wo .imm 0]
  | .frnStatus =>
    [FieldSpec.mk F.FRN_STATUS_TRIG_DROP .rc .none 0, FieldSpec.mk F.FRN_STATUS_EVQ_DROP .rc .none 0, FieldSpec.mk F.FRN_STATUS_RISE .w1c .imm 0,
     FieldSpec.mk F.FRN_STATUS_RULE_FAULT .w1c .imm 0, FieldSpec.mk F.FRN_STATUS_FAST_REFUSED .w1c .imm 0, FieldSpec.mk F.FRN_STATUS_SEQ_REFUSED .w1c .imm 0,
     FieldSpec.mk F.FRN_STATUS_TQPEND .ro .none 0, FieldSpec.mk F.FRN_STATUS_TRIG_BUSY .ro .none 0]
  | .frnTime =>
    [FieldSpec.mk F.FRN_TIME_FTIME .ro .none 0]
  | .frnTherm =>
    [FieldSpec.mk F.FRN_THERM_RISE_LIM .rw .imm 128, FieldSpec.mk F.FRN_THERM_SHDN_SRC .ro .none 0, FieldSpec.mk F.FRN_THERM_RISE_SHDN .rw .imm 0,
     FieldSpec.mk F.FRN_THERM_SHDN .ro .none 0]
  | .frnWake =>
    [FieldSpec.mk F.FRN_WAKE_INDEX .ro .none 0, FieldSpec.mk F.FRN_WAKE_LAST_SRC .ro .none 0]
  | .frnSeq =>
    [FieldSpec.mk F.FRN_SEQ_POSTDLY .rw .imm 0, FieldSpec.mk F.FRN_SEQ_REPEAT .rw .imm 0, FieldSpec.mk F.FRN_SEQ_EN .rw .imm 0,
     FieldSpec.mk F.FRN_SEQ_TRIG .rw .imm 0, FieldSpec.mk F.FRN_SEQ_MOD .rw .imm 0, FieldSpec.mk F.FRN_SEQ_FILT .rw .imm 0,
     FieldSpec.mk F.FRN_SEQ_REV .rw .imm 0, FieldSpec.mk F.FRN_SEQ_EXC .rw .imm 0, FieldSpec.mk F.FRN_SEQ_RATE .rw .imm 0,
     FieldSpec.mk F.FRN_SEQ_GAIN .rw .imm 0, FieldSpec.mk F.FRN_SEQ_INPUT .rw .imm 240]
  | .frnRes =>
    [FieldSpec.mk F.FRN_RES_SEQCNT .ro .none 0, FieldSpec.mk F.FRN_RES_READY .rc .none 0, FieldSpec.mk F.FRN_RES_OVR .ro .none 0,
     FieldSpec.mk F.FRN_RES_CODE .ro .none 0]
  | .frnCmp =>
    [FieldSpec.mk F.FRN_CMP_LMODE .rw .imm 0, FieldSpec.mk F.FRN_CMP_WAKE_EN .rw .imm 0, FieldSpec.mk F.FRN_CMP_EDGE .rw .imm 0,
     FieldSpec.mk F.FRN_CMP_SEL .rw .imm 0, FieldSpec.mk F.FRN_CMP_MODE .rw .imm 1, FieldSpec.mk F.FRN_CMP_HYS .rw .imm 1,
     FieldSpec.mk F.FRN_CMP_THHI .rw .imm 1023, FieldSpec.mk F.FRN_CMP_THLO .rw .imm 0]
  | .frnCmps =>
    [FieldSpec.mk F.FRN_CMPS_LATCH .w1c .imm 0, FieldSpec.mk F.FRN_CMPS_STATE .ro .none 0]
  | .frnTemp =>
    [FieldSpec.mk F.FRN_TEMP_SEQCNT .ro .none 0, FieldSpec.mk F.FRN_TEMP_RATE .ro .none 0, FieldSpec.mk F.FRN_TEMP_TEMP .ro .none 0]
  | .frnRcfg =>
    [FieldSpec.mk F.FRN_RCFG_BSET .rw .imm 0, FieldSpec.mk F.FRN_RCFG_A_SHDN .rw .imm 0, FieldSpec.mk F.FRN_RCFG_A_FAULT .rw .imm 0,
     FieldSpec.mk F.FRN_RCFG_A_RAMP .rw .imm 0, FieldSpec.mk F.FRN_RCFG_A_WAKE .rw .imm 0, FieldSpec.mk F.FRN_RCFG_A_EVENT .rw .imm 0,
     FieldSpec.mk F.FRN_RCFG_PERSIST .rw .imm 0, FieldSpec.mk F.FRN_RCFG_AUTO .rw .imm 0, FieldSpec.mk F.FRN_RCFG_FK .rw .imm 0,
     FieldSpec.mk F.FRN_RCFG_CMP .rw .imm 0, FieldSpec.mk F.FRN_RCFG_EN .rw .imm 0, FieldSpec.mk F.FRN_RCFG_SRCKIND .rw .imm 0,
     FieldSpec.mk F.FRN_RCFG_SRCIDX .rw .imm 0]
  | .frnRcond =>
    [FieldSpec.mk F.FRN_RCOND_THR2 .rw .imm 0, FieldSpec.mk F.FRN_RCOND_THR1 .rw .imm 0]
  | .frnRmask =>
    [FieldSpec.mk F.FRN_RMASK_MASK .rw .imm 0]
  | .frnRstat =>
    [FieldSpec.mk F.FRN_RSTAT_FVAL .ro .none 0, FieldSpec.mk F.FRN_RSTAT_TRUE .ro .none 0, FieldSpec.mk F.FRN_RSTAT_RELEASE .wo .imm 0,
     FieldSpec.mk F.FRN_RSTAT_FIRED .ro .none 0]
  | .frnBset =>
    [FieldSpec.mk F.FRN_BSET_CODE .rw .imm 0]
  | .biaCfg =>
    [FieldSpec.mk F.BIA_CFG_CLRMODE .rw .imm 0, FieldSpec.mk F.BIA_CFG_SENSE_EN .rw .imm 0, FieldSpec.mk F.BIA_CFG_RANGE .rw .grad 0]
  | .biaCode =>
    [FieldSpec.mk F.BIA_CODE_CODE .rw .grad 0]
  | .biaClr =>
    [FieldSpec.mk F.BIA_CLR_CLRCODE .rw .imm 0]
  | .biaTrim =>
    [FieldSpec.mk F.BIA_TRIM_TRIM .rw .grad 0]
  | .biaAct =>
    [FieldSpec.mk F.BIA_ACT_OUTCODE .ro .none 0, FieldSpec.mk F.BIA_ACT_TRIM_ACT .ro .none 0, FieldSpec.mk F.BIA_ACT_RANGE_ACT .ro .none 0]
  | .biaStat =>
    [FieldSpec.mk F.BIA_STAT_STALLED .ro .none 0, FieldSpec.mk F.BIA_STAT_COMPLIANCE .ro .none 0, FieldSpec.mk F.BIA_STAT_WEAR_OUT .w1c .imm 0,
     FieldSpec.mk F.BIA_STAT_CLR_DROP .w1c .imm 0, FieldSpec.mk F.BIA_STAT_SENSE_OPEN .w1c .imm 0, FieldSpec.mk F.BIA_STAT_PRESET_FAIL .w1c .imm 0,
     FieldSpec.mk F.BIA_STAT_STATE .ro .none 0]
  | .biaPcmd =>
    [FieldSpec.mk F.BIA_PCMD_OP .wo .imm 0]
  | .biaPstat =>
    [FieldSpec.mk F.BIA_PSTAT_SEQ .ro .none 0, FieldSpec.mk F.BIA_PSTAT_BUSY .ro .none 0, FieldSpec.mk F.BIA_PSTAT_RESULT .ro .none 0,
     FieldSpec.mk F.BIA_PSTAT_IN_FORCE .ro .none 0, FieldSpec.mk F.BIA_PSTAT_B_VALID .ro .none 0, FieldSpec.mk F.BIA_PSTAT_A_VALID .ro .none 0]
  | .biaGlb =>
    [FieldSpec.mk F.BIA_GLB_CLEAR_ACT .ro .none 0, FieldSpec.mk F.BIA_GLB_PRESET_DONE .ro .none 0]
  | .trgMcmd =>
    [FieldSpec.mk F.TRG_MCMD_MRK .wo .imm 0, FieldSpec.mk F.TRG_MCMD_PAT .wo .imm 0]
  | .trgXin =>
    [FieldSpec.mk F.TRG_XIN_XDROP .rc .none 0, FieldSpec.mk F.TRG_XIN_SKEW .rw .imm 0, FieldSpec.mk F.TRG_XIN_DEB .rw .imm 0,
     FieldSpec.mk F.TRG_XIN_LEVEL .ro .none 0, FieldSpec.mk F.TRG_XIN_EDGES .rw .imm 0]
  | .trgGcfg =>
    [FieldSpec.mk F.TRG_GCFG_HOLD .rw .tick 0, FieldSpec.mk F.TRG_GCFG_EN .rw .tick 0, FieldSpec.mk F.TRG_GCFG_HMODE .rw .tick 0,
     FieldSpec.mk F.TRG_GCFG_POL .rw .tick 0, FieldSpec.mk F.TRG_GCFG_QUAL .rw .tick 0, FieldSpec.mk F.TRG_GCFG_SRCK .rw .tick 3,
     FieldSpec.mk F.TRG_GCFG_SRCIDX .rw .tick 0]
  | .trgGlev =>
    [FieldSpec.mk F.TRG_GLEV_LEVLO .rw .tick 0, FieldSpec.mk F.TRG_GLEV_LEVHI .rw .tick 0]
  | .trgGtime =>
    [FieldSpec.mk F.TRG_GTIME_T2 .rw .tick 0, FieldSpec.mk F.TRG_GTIME_T1 .rw .tick 0]
  | .trgGstat =>
    [FieldSpec.mk F.TRG_GSTAT_STAMP .ro .none 0, FieldSpec.mk F.TRG_GSTAT_CFG_REFUSED .w1c .imm 0, FieldSpec.mk F.TRG_GSTAT_HOLDING .ro .none 0,
     FieldSpec.mk F.TRG_GSTAT_ARMED .ro .none 0]
  | .trgCcfg =>
    [FieldSpec.mk F.TRG_CCFG_TMASK .rw .imm 0, FieldSpec.mk F.TRG_CCFG_TSELIDX .rw .imm 0, FieldSpec.mk F.TRG_CCFG_TSELK .rw .imm 0,
     FieldSpec.mk F.TRG_CCFG_PORT .rw .imm 0, FieldSpec.mk F.TRG_CCFG_TMODE .rw .imm 0, FieldSpec.mk F.TRG_CCFG_MODE .rw .imm 0]
  | .trgCbuf =>
    [FieldSpec.mk F.TRG_CBUF_NSEG .rw .imm 0, FieldSpec.mk F.TRG_CBUF_NPAGE .rw .imm 0, FieldSpec.mk F.TRG_CBUF_BASE .rw .imm 0]
  | .trgCwin =>
    [FieldSpec.mk F.TRG_CWIN_POST .rw .imm 1, FieldSpec.mk F.TRG_CWIN_FLUSH .rw .imm 0, FieldSpec.mk F.TRG_CWIN_PRE .rw .imm 0]
  | .trgCcmd =>
    [FieldSpec.mk F.TRG_CCMD_SOFT .wo .imm 0, FieldSpec.mk F.TRG_CCMD_STOP .wo .imm 0, FieldSpec.mk F.TRG_CCMD_ARM .wo .imm 0]
  | .trgCstat =>
    [FieldSpec.mk F.TRG_CSTAT_TRIG_MISS .rc .none 0, FieldSpec.mk F.TRG_CSTAT_TRIG_BUSY .rc .none 0, FieldSpec.mk F.TRG_CSTAT_STATUS .ro .none 0,
     FieldSpec.mk F.TRG_CSTAT_OVF .w1c .imm 0, FieldSpec.mk F.TRG_CSTAT_FREESEG .ro .none 0, FieldSpec.mk F.TRG_CSTAT_STATE .ro .none 0]
  | .trgMcfg =>
    [FieldSpec.mk F.TRG_MCFG_SEQ .rw .imm 0, FieldSpec.mk F.TRG_MCFG_SKEW .rw .tick 0, FieldSpec.mk F.TRG_MCFG_EN .rw .gran 0]
  | .trgMstat =>
    [FieldSpec.mk F.TRG_MSTAT_MRK_REFUSED .rc .none 0, FieldSpec.mk F.TRG_MSTAT_EDGE_DROP .rc .none 0, FieldSpec.mk F.TRG_MSTAT_LEVEL .ro .none 0,
     FieldSpec.mk F.TRG_MSTAT_LAST_PAT .ro .none 0]
  | .trgMts =>
    [FieldSpec.mk F.TRG_MTS_FALL .rw .tick 0, FieldSpec.mk F.TRG_MTS_RISE .rw .tick 0]
  | .trgPat =>
    [FieldSpec.mk F.TRG_PAT_BITS .rw .imm 0]
  | .trgPlen =>
    [FieldSpec.mk F.TRG_PLEN_LEN .rw .imm 4]
  | .trgTcfg =>
    [FieldSpec.mk F.TRG_TCFG_PREF .rw .gran 0, FieldSpec.mk F.TRG_TCFG_HOLD .rw .gran 0, FieldSpec.mk F.TRG_TCFG_SLEWN .rw .gran 0,
     FieldSpec.mk F.TRG_TCFG_WIDTH .rw .gran 0, FieldSpec.mk F.TRG_TCFG_AVG .rw .gran 0, FieldSpec.mk F.TRG_TCFG_POL .rw .gran 0,
     FieldSpec.mk F.TRG_TCFG_SIG .rw .gran 0, FieldSpec.mk F.TRG_TCFG_EN .rw .gran 0]
  | .trgTlev =>
    [FieldSpec.mk F.TRG_TLEV_SLEW .rw .gran 0, FieldSpec.mk F.TRG_TLEV_HYS .rw .gran 0, FieldSpec.mk F.TRG_TLEV_LEV .rw .gran 0]
  | .trgTstat =>
    [FieldSpec.mk F.TRG_TSTAT_STAMP .ro .none 0, FieldSpec.mk F.TRG_TSTAT_STATE .ro .none 0]
  | .trgTcnt =>
    [FieldSpec.mk F.TRG_TCNT_HITS .rc .none 0]
  | .drvCtrl =>
    [FieldSpec.mk F.DRV_CTRL_MODE .rw .imm 0, FieldSpec.mk F.DRV_CTRL_EN .rw .gran 0]
  | .drvCnco =>
    [FieldSpec.mk F.DRV_CNCO_CNCO .rw .frame 1073741824]
  | .drvCncoAct =>
    [FieldSpec.mk F.DRV_CNCO_ACT_CNCO .ro .none 1073741824]
  | .drvLevel =>
    [FieldSpec.mk F.DRV_LEVEL_FSCODE .rw .gran 0, FieldSpec.mk F.DRV_LEVEL_ATT .rw .gran 63]
  | .drvLevelAct =>
    [FieldSpec.mk F.DRV_LEVEL_ACT_FSCODE .ro .none 0, FieldSpec.mk F.DRV_LEVEL_ACT_ATT .ro .none 63]
  | .drvPscale =>
    [FieldSpec.mk F.DRV_PSCALE_PSCALE .rw .gran 256]
  | .drvStatus =>
    [FieldSpec.mk F.DRV_STATUS_MODE_ACT .ro .none 0, FieldSpec.mk F.DRV_STATUS_LEVEL_PEND .ro .none 0, FieldSpec.mk F.DRV_STATUS_MODE_BUSY .ro .none 0,
     FieldSpec.mk F.DRV_STATUS_STREAM_ACT .ro .none 0, FieldSpec.mk F.DRV_STATUS_OSTATE .ro .none 0, FieldSpec.mk F.DRV_STATUS_STREAM_REFUSED .w1c .imm 0,
     FieldSpec.mk F.DRV_STATUS_CNCO_REFUSED .w1c .imm 0, FieldSpec.mk F.DRV_STATUS_MODE_REFUSED .w1c .imm 0, FieldSpec.mk F.DRV_STATUS_HOLD_CUT .w1c .imm 0,
     FieldSpec.mk F.DRV_STATUS_POISON .w1c .imm 0, FieldSpec.mk F.DRV_STATUS_SAT .w1c .imm 0]
  | .drvClipcnt =>
    [FieldSpec.mk F.DRV_CLIPCNT_CUT_COUNT .rc .none 0, FieldSpec.mk F.DRV_CLIPCNT_SAT_COUNT .rc .none 0]
  | .drvStream =>
    [FieldSpec.mk F.DRV_STREAM_SSLOT .rw .frame 0, FieldSpec.mk F.DRV_STREAM_SMODE .rw .frame 0]
  | .drvRfill =>
    [FieldSpec.mk F.DRV_RFILL_LEVEL .ro .none 0]
  | .drvSfreq =>
    [FieldSpec.mk F.DRV_SFREQ_FTW .rw .tick 0]
  | .drvSphase =>
    [FieldSpec.mk F.DRV_SPHASE_POFF .rw .tick 0]
  | .drvSamp =>
    [FieldSpec.mk F.DRV_SAMP_ASCL .rw .gran 0]
  | .drvSctrl =>
    [FieldSpec.mk F.DRV_SCTRL_PHRST .wo .tick 0, FieldSpec.mk F.DRV_SCTRL_ERATE .rw .gran 0, FieldSpec.mk F.DRV_SCTRL_PMODE .rw .tick 0]
  | .prbSenv =>
    [FieldSpec.mk F.PRB_SENV_ESTOP .rw .gran 0, FieldSpec.mk F.PRB_SENV_RAMP_LEN .rw .gran 0, FieldSpec.mk F.PRB_SENV_ENVMODE .rw .gran 0]
  | .prbEstopcnt =>
    [FieldSpec.mk F.PRB_ESTOPCNT_COUNT .rc .none 0]
  | .acqCtrl =>
    [FieldSpec.mk F.ACQ_CTRL_AGAIN .rw .frame 12, FieldSpec.mk F.ACQ_CTRL_AZONE .rw .frame 0, FieldSpec.mk F.ACQ_CTRL_EN .rw .gran 0]
  | .acqCnco =>
    [FieldSpec.mk F.ACQ_CNCO_ACNCO .rw .frame 1073741824]
  | .acqCncoAct =>
    [FieldSpec.mk F.ACQ_CNCO_ACT_ACNCO .ro .none 1073741824]
  | .acqStatus =>
    [FieldSpec.mk F.ACQ_STATUS_CREV .ro .none 0, FieldSpec.mk F.ACQ_STATUS_GAIN_BUSY .ro .none 0, FieldSpec.mk F.ACQ_STATUS_READY .ro .none 0,
     FieldSpec.mk F.ACQ_STATUS_TRK_LOST .w1c .imm 0, FieldSpec.mk F.ACQ_STATUS_TRK_LIMIT .w1c .imm 0, FieldSpec.mk F.ACQ_STATUS_WIN_EMPTY .w1c .imm 0,
     FieldSpec.mk F.ACQ_STATUS_WIN_COLLIDE .w1c .imm 0, FieldSpec.mk F.ACQ_STATUS_WIN_OFF .w1c .imm 0, FieldSpec.mk F.ACQ_STATUS_SETTLE .w1c .imm 0,
     FieldSpec.mk F.ACQ_STATUS_CNCO_REFUSED .w1c .imm 0, FieldSpec.mk F.ACQ_STATUS_POISON .w1c .imm 0, FieldSpec.mk F.ACQ_STATUS_ACC_SAT .w1c .imm 0,
     FieldSpec.mk F.ACQ_STATUS_OVR .w1c .imm 0]
  | .acqCnt =>
    [FieldSpec.mk F.ACQ_CNT_SAT_COUNT .rc .none 0, FieldSpec.mk F.ACQ_CNT_OVR_COUNT .rc .none 0]
  | .acqCfgCtrl =>
    [FieldSpec.mk F.ACQ_CFG_CTRL_APPLY_COUNT .ro .none 0, FieldSpec.mk F.ACQ_CFG_CTRL_LOAD_COST .ro .none 0, FieldSpec.mk F.ACQ_CFG_CTRL_FAULT_SLOT .ro .none 0,
     FieldSpec.mk F.ACQ_CFG_CTRL_STATUS .ro .none 0, FieldSpec.mk F.ACQ_CFG_CTRL_APPLY .wo .imm 0]
  | .acqTrack =>
    [FieldSpec.mk F.ACQ_TRACK_MAXSTEP .rw .imm 0, FieldSpec.mk F.ACQ_TRACK_AVG_LOG2 .rw .imm 4, FieldSpec.mk F.ACQ_TRACK_REF_PERIOD .rw .imm 0]
  | .acqTrack2 =>
    [FieldSpec.mk F.ACQ_TRACK2_SPAN .rw .imm 0, FieldSpec.mk F.ACQ_TRACK2_MINMAG .rw .imm 0]
  | .acqCrev =>
    [FieldSpec.mk F.ACQ_CREV_CREV_COUNT .ro .none 0, FieldSpec.mk F.ACQ_CREV_CREV_LEFT .ro .none 0]
  | .acqDslot =>
    [FieldSpec.mk F.ACQ_DSLOT_FNW .rw .imm 0, FieldSpec.mk F.ACQ_DSLOT_SHIFT .rw .imm 0, FieldSpec.mk F.ACQ_DSLOT_BIN .rw .imm 16,
     FieldSpec.mk F.ACQ_DSLOT_MODE .rw .imm 0]
  | .acqDslotAct =>
    [FieldSpec.mk F.ACQ_DSLOT_ACT_FNW .ro .none 0, FieldSpec.mk F.ACQ_DSLOT_ACT_SHIFT .ro .none 0, FieldSpec.mk F.ACQ_DSLOT_ACT_BIN .ro .none 16,
     FieldSpec.mk F.ACQ_DSLOT_ACT_MODE .ro .none 0]
  | .acqKdesc =>
    [FieldSpec.mk F.ACQ_KDESC_KLEN .rw .imm 0]
  | .acqDtrk =>
    [FieldSpec.mk F.ACQ_DTRK_KGAIN .rw .imm 0, FieldSpec.mk F.ACQ_DTRK_PHI0 .rw .imm 0, FieldSpec.mk F.ACQ_DTRK_TRK_EN .rw .frame 0]
  | .acqDtrks =>
    [FieldSpec.mk F.ACQ_DTRKS_LOST .ro .none 0, FieldSpec.mk F.ACQ_DTRKS_LIMIT .ro .none 0, FieldSpec.mk F.ACQ_DTRKS_STEPS .ro .none 0,
     FieldSpec.mk F.ACQ_DTRKS_OFFSET .ro .none 0]
  | .dscCfg =>
    [FieldSpec.mk F.DSC_CFG_MINSTEP .rw .imm 1, FieldSpec.mk F.DSC_CFG_CSHIFT .rw .imm 0, FieldSpec.mk F.DSC_CFG_ERASE_EN .rw .imm 0,
     FieldSpec.mk F.DSC_CFG_EARLY_EN .rw .imm 0, FieldSpec.mk F.DSC_CFG_SMODE .rw .imm 0]
  | .dscAxa =>
    [FieldSpec.mk F.DSC_AXA_OFF_A .rw .imm 0, FieldSpec.mk F.DSC_AXA_WQ_A .rw .imm 0, FieldSpec.mk F.DSC_AXA_WI_A .rw .imm 32767]
  | .dscAxb =>
    [FieldSpec.mk F.DSC_AXB_OFF_B .rw .imm 0, FieldSpec.mk F.DSC_AXB_WQ_B .rw .imm 0, FieldSpec.mk F.DSC_AXB_WI_B .rw .imm 32767]
  | .dscDrift =>
    [FieldSpec.mk F.DSC_DRIFT_DRIFT_B .rw .imm 0, FieldSpec.mk F.DSC_DRIFT_DRIFT_A .rw .imm 0]
  | .dscBnda =>
    [FieldSpec.mk F.DSC_BNDA_HI_A .rw .imm 2147483647, FieldSpec.mk F.DSC_BNDA_LO_A .rw .imm 2147483648]
  | .dscBndb =>
    [FieldSpec.mk F.DSC_BNDB_HI_B .rw .imm 2147483647, FieldSpec.mk F.DSC_BNDB_LO_B .rw .imm 2147483648]
  | .dscErase =>
    [FieldSpec.mk F.DSC_ERASE_EB_B .rw .imm 0, FieldSpec.mk F.DSC_ERASE_EB_A .rw .imm 0]
  | .dscStat =>
    [FieldSpec.mk F.DSC_STAT_DTICK .ro .none 0, FieldSpec.mk F.DSC_STAT_CONF .ro .none 0, FieldSpec.mk F.DSC_STAT_EARLY .ro .none 0,
     FieldSpec.mk F.DSC_STAT_STATE .ro .none 0]
  | .dscRsel0 =>
    [FieldSpec.mk F.DSC_RSEL0_SRC_0 .rw .tick 0, FieldSpec.mk F.DSC_RSEL0_BIT_0 .rw .tick 0, FieldSpec.mk F.DSC_RSEL0_EN_0 .rw .tick 0,
     FieldSpec.mk F.DSC_RSEL0_SRC_1 .rw .tick 0, FieldSpec.mk F.DSC_RSEL0_BIT_1 .rw .tick 0, FieldSpec.mk F.DSC_RSEL0_EN_1 .rw .tick 0,
     FieldSpec.mk F.DSC_RSEL0_SRC_2 .rw .tick 0, FieldSpec.mk F.DSC_RSEL0_BIT_2 .rw .tick 0, FieldSpec.mk F.DSC_RSEL0_EN_2 .rw .tick 0,
     FieldSpec.mk F.DSC_RSEL0_SRC_3 .rw .tick 0, FieldSpec.mk F.DSC_RSEL0_BIT_3 .rw .tick 0, FieldSpec.mk F.DSC_RSEL0_EN_3 .rw .tick 0]
  | .dscRsel1 =>
    [FieldSpec.mk F.DSC_RSEL1_SRC_0 .rw .tick 0, FieldSpec.mk F.DSC_RSEL1_BIT_0 .rw .tick 0, FieldSpec.mk F.DSC_RSEL1_EN_0 .rw .tick 0,
     FieldSpec.mk F.DSC_RSEL1_SRC_1 .rw .tick 0, FieldSpec.mk F.DSC_RSEL1_BIT_1 .rw .tick 0, FieldSpec.mk F.DSC_RSEL1_EN_1 .rw .tick 0,
     FieldSpec.mk F.DSC_RSEL1_SRC_2 .rw .tick 0, FieldSpec.mk F.DSC_RSEL1_BIT_2 .rw .tick 0, FieldSpec.mk F.DSC_RSEL1_EN_2 .rw .tick 0,
     FieldSpec.mk F.DSC_RSEL1_SRC_3 .rw .tick 0, FieldSpec.mk F.DSC_RSEL1_BIT_3 .rw .tick 0, FieldSpec.mk F.DSC_RSEL1_EN_3 .rw .tick 0]
  | .dscRtab =>
    [FieldSpec.mk F.DSC_RTAB_TARGET_0 .rw .tick 0, FieldSpec.mk F.DSC_RTAB_TAKE_0 .rw .tick 0, FieldSpec.mk F.DSC_RTAB_TARGET_1 .rw .tick 0,
     FieldSpec.mk F.DSC_RTAB_TAKE_1 .rw .tick 0, FieldSpec.mk F.DSC_RTAB_TARGET_2 .rw .tick 0, FieldSpec.mk F.DSC_RTAB_TAKE_2 .rw .tick 0,
     FieldSpec.mk F.DSC_RTAB_TARGET_3 .rw .tick 0, FieldSpec.mk F.DSC_RTAB_TAKE_3 .rw .tick 0]
  | .dscColq =>
    [FieldSpec.mk F.DSC_COLQ_FILL .ro .none 0, FieldSpec.mk F.DSC_COLQ_QUOTA .rw .imm 0]
  | .dscCollost =>
    [FieldSpec.mk F.DSC_COLLOST_LOST_HOLD .rc .none 0, FieldSpec.mk F.DSC_COLLOST_LOST_QUOTA .rc .none 0]
  | .dscColstat =>
    [FieldSpec.mk F.DSC_COLSTAT_QUOTA_ERR .w1c .imm 0]
  | .dscXmask =>
    [FieldSpec.mk F.DSC_XMASK_MASK .rw .tick 0]
  | .dscFwd =>
    [FieldSpec.mk F.DSC_FWD_ORIGINS .rw .tick 0]
  | .dscXcnt =>
    [FieldSpec.mk F.DSC_XCNT_FWD_DROPS .rc .none 0, FieldSpec.mk F.DSC_XCNT_OVERRUNS .rc .none 0, FieldSpec.mk F.DSC_XCNT_SENT .ro .none 0]
  | .dscImport =>
    [FieldSpec.mk F.DSC_IMPORT_VALID .rw .tick 0, FieldSpec.mk F.DSC_IMPORT_CHANNEL .rw .tick 0, FieldSpec.mk F.DSC_IMPORT_ORIGIN .rw .tick 0]
  | .dscDv =>
    [FieldSpec.mk F.DSC_DV_CODE_0 .ro .none 3, FieldSpec.mk F.DSC_DV_STATE_0 .ro .none 0, FieldSpec.mk F.DSC_DV_EARLY_0 .ro .none 0,
     FieldSpec.mk F.DSC_DV_OVERRUN_0 .ro .none 0, FieldSpec.mk F.DSC_DV_CODE_1 .ro .none 3, FieldSpec.mk F.DSC_DV_STATE_1 .ro .none 0,
     FieldSpec.mk F.DSC_DV_EARLY_1 .ro .none 0, FieldSpec.mk F.DSC_DV_OVERRUN_1 .ro .none 0, FieldSpec.mk F.DSC_DV_CODE_2 .ro .none 3,
     FieldSpec.mk F.DSC_DV_STATE_2 .ro .none 0, FieldSpec.mk F.DSC_DV_EARLY_2 .ro .none 0, FieldSpec.mk F.DSC_DV_OVERRUN_2 .ro .none 0,
     FieldSpec.mk F.DSC_DV_CODE_3 .ro .none 3, FieldSpec.mk F.DSC_DV_STATE_3 .ro .none 0, FieldSpec.mk F.DSC_DV_EARLY_3 .ro .none 0,
     FieldSpec.mk F.DSC_DV_OVERRUN_3 .ro .none 0, FieldSpec.mk F.DSC_DV_CODE_4 .ro .none 3, FieldSpec.mk F.DSC_DV_STATE_4 .ro .none 0,
     FieldSpec.mk F.DSC_DV_EARLY_4 .ro .none 0, FieldSpec.mk F.DSC_DV_OVERRUN_4 .ro .none 0, FieldSpec.mk F.DSC_DV_CODE_5 .ro .none 3,
     FieldSpec.mk F.DSC_DV_STATE_5 .ro .none 0, FieldSpec.mk F.DSC_DV_EARLY_5 .ro .none 0, FieldSpec.mk F.DSC_DV_OVERRUN_5 .ro .none 0,
     FieldSpec.mk F.DSC_DV_CODE_6 .ro .none 3, FieldSpec.mk F.DSC_DV_STATE_6 .ro .none 0, FieldSpec.mk F.DSC_DV_EARLY_6 .ro .none 0,
     FieldSpec.mk F.DSC_DV_OVERRUN_6 .ro .none 0, FieldSpec.mk F.DSC_DV_CODE_7 .ro .none 3, FieldSpec.mk F.DSC_DV_STATE_7 .ro .none 0,
     FieldSpec.mk F.DSC_DV_EARLY_7 .ro .none 0, FieldSpec.mk F.DSC_DV_OVERRUN_7 .ro .none 0]
  | .seqCtrl =>
    [FieldSpec.mk F.SEQ_CTRL_START_CH .rw .imm 0, FieldSpec.mk F.SEQ_CTRL_UPOL .rw .imm 0, FieldSpec.mk F.SEQ_CTRL_TPOL .rw .imm 0,
     FieldSpec.mk F.SEQ_CTRL_TRIG_EN .rw .imm 0, FieldSpec.mk F.SEQ_CTRL_EN .rw .gran 0]
  | .seqCmd =>
    [FieldSpec.mk F.SEQ_CMD_STOP .wo .imm 0, FieldSpec.mk F.SEQ_CMD_START .wo .imm 0]
  | .seqStart =>
    [FieldSpec.mk F.SEQ_START_START_DLY .rw .imm 40, FieldSpec.mk F.SEQ_START_START_PC .rw .imm 0]
  | .seqJreq =>
    [FieldSpec.mk F.SEQ_JREQ_TARGET .wo .tick 0]
  | .seqStatus =>
    [FieldSpec.mk F.SEQ_STATUS_ERR_PC .ro .none 0, FieldSpec.mk F.SEQ_STATUS_PGM_REFUSED .w1c .imm 0, FieldSpec.mk F.SEQ_STATUS_REQ_REPLACED .w1c .imm 0,
     FieldSpec.mk F.SEQ_STATUS_FALLBACK .w1c .imm 0, FieldSpec.mk F.SEQ_STATUS_WAITD_EMPTY .w1c .imm 0, FieldSpec.mk F.SEQ_STATUS_WAITEV_TMO .w1c .imm 0,
     FieldSpec.mk F.SEQ_STATUS_WAITD_TMO .w1c .imm 0, FieldSpec.mk F.SEQ_STATUS_TRIG_LATE .w1c .imm 0, FieldSpec.mk F.SEQ_STATUS_UNDERRUN .w1c .imm 0,
     FieldSpec.mk F.SEQ_STATUS_GAP .w1c .imm 0, FieldSpec.mk F.SEQ_STATUS_STACK .w1c .imm 0, FieldSpec.mk F.SEQ_STATUS_ILLEGAL .w1c .imm 0,
     FieldSpec.mk F.SEQ_STATUS_QPEND .ro .none 0, FieldSpec.mk F.SEQ_STATUS_STATE .ro .none 0]
  | .seqPc =>
    [FieldSpec.mk F.SEQ_PC_LOOP_DEPTH .ro .none 0, FieldSpec.mk F.SEQ_PC_CALL_DEPTH .ro .none 0, FieldSpec.mk F.SEQ_PC_FPC .ro .none 0]
  | .seqShot =>
    [FieldSpec.mk F.SEQ_SHOT_SHOTNO .rw .imm 0]
  | .seqCnt =>
    [FieldSpec.mk F.SEQ_CNT_TRIG_DROP .rc .none 0, FieldSpec.mk F.SEQ_CNT_REQ_DISCARD .rc .none 0, FieldSpec.mk F.SEQ_CNT_GAP_COUNT .rc .none 0,
     FieldSpec.mk F.SEQ_CNT_RESTARTS .rc .none 0]
  | .seqCnt2 =>
    [FieldSpec.mk F.SEQ_CNT2_UNDERRUN_GRAN .rc .none 0, FieldSpec.mk F.SEQ_CNT2_FALLBACKS .rc .none 0, FieldSpec.mk F.SEQ_CNT2_TRIG_LATE_CNT .rc .none 0]
  | .seqSreg =>
    [FieldSpec.mk F.SEQ_SREG_VALUE .rw .tick 0]
  | .seqLoop =>
    [FieldSpec.mk F.SEQ_LOOP_COUNT .ro .none 0]
  | .ucsCtrl =>
    [FieldSpec.mk F.UCS_CTRL_LOCK .w1s .imm 0, FieldSpec.mk F.UCS_CTRL_VERIFY .wo .imm 0]
  | .ucsStatus =>
    [FieldSpec.mk F.UCS_STATUS_VERIFY_COUNT .ro .none 0, FieldSpec.mk F.UCS_STATUS_FAULT_ADDR .ro .none 0, FieldSpec.mk F.UCS_STATUS_FAULT_OPC .ro .none 0,
     FieldSpec.mk F.UCS_STATUS_LOCKED .ro .none 0, FieldSpec.mk F.UCS_STATUS_WR_REFUSED .w1c .imm 0, FieldSpec.mk F.UCS_STATUS_VERIFIED .ro .none 0,
     FieldSpec.mk F.UCS_STATUS_VIMG_READY .ro .none 0, FieldSpec.mk F.UCS_STATUS_STATUS .ro .none 0]
  | .ucsScnt =>
    [FieldSpec.mk F.UCS_SCNT_RESTARTS .rc .none 0, FieldSpec.mk F.UCS_SCNT_DROPS .rc .none 0, FieldSpec.mk F.UCS_SCNT_TRAPS .rc .none 0,
     FieldSpec.mk F.UCS_SCNT_LAST_CAUSE .ro .none 0]
  | .ucsDisp =>
    [FieldSpec.mk F.UCS_DISP_VALID .rw .imm 0, FieldSpec.mk F.UCS_DISP_HEAD .rw .imm 0, FieldSpec.mk F.UCS_DISP_KINDS .rw .imm 0,
     FieldSpec.mk F.UCS_DISP_CLASS .rw .imm 0, FieldSpec.mk F.UCS_DISP_ENTRY .rw .imm 0]
  | .ucsWord =>
    [FieldSpec.mk F.UCS_WORD_WORD .rw .imm 0]
  | .odrCtrl =>
    [FieldSpec.mk F.ODR_CTRL_MODE .rw .imm 0, FieldSpec.mk F.ODR_CTRL_RUN .rw .imm 0]
  | .odrStatus =>
    [FieldSpec.mk F.ODR_STATUS_FAULT_PC .ro .none 0, FieldSpec.mk F.ODR_STATUS_FAULT_CAUSE .ro .none 0, FieldSpec.mk F.ODR_STATUS_PMEM_REFUSED .w1c .imm 0,
     FieldSpec.mk F.ODR_STATUS_HO_REFUSED .w1c .imm 0, FieldSpec.mk F.ODR_STATUS_HO_RANGE .w1c .imm 0, FieldSpec.mk F.ODR_STATUS_EV_REFUSED .w1c .imm 0,
     FieldSpec.mk F.ODR_STATUS_MB_LOST .w1c .imm 0, FieldSpec.mk F.ODR_STATUS_GMASK_BUSY .w1c .imm 0, FieldSpec.mk F.ODR_STATUS_POISON .w1c .imm 0,
     FieldSpec.mk F.ODR_STATUS_OVF .w1c .imm 0, FieldSpec.mk F.ODR_STATUS_SAT .w1c .imm 0, FieldSpec.mk F.ODR_STATUS_BANK .ro .none 0,
     FieldSpec.mk F.ODR_STATUS_IE .ro .none 0, FieldSpec.mk F.ODR_STATUS_STATE .ro .none 0]
  | .odrPc =>
    [FieldSpec.mk F.ODR_PC_PC .ro .none 0, FieldSpec.mk F.ODR_PC_START_PC .rw .imm 0]
  | .odrCnt =>
    [FieldSpec.mk F.ODR_CNT_NOTICES_LOST .rc .none 0, FieldSpec.mk F.ODR_CNT_HO_REFUSALS .rc .none 0, FieldSpec.mk F.ODR_CNT_HO_STALL .rc .none 0]
  | .odrIrq =>
    [FieldSpec.mk F.ODR_IRQ_IPEND .w1c .imm 0, FieldSpec.mk F.ODR_IRQ_IEN .rw .imm 0]
  | .odrVbase =>
    [FieldSpec.mk F.ODR_VBASE_VBASE .rw .imm 4032]
  | .odrMbmask =>
    [FieldSpec.mk F.ODR_MBMASK_MASK .rw .imm 0]
  | .odrGmask =>
    [FieldSpec.mk F.ODR_GMASK_MASK .rw .imm 0]
  | .odrGrp =>
    [FieldSpec.mk F.ODR_GRP_LAST_TICK .ro .none 0, FieldSpec.mk F.ODR_GRP_ANYEARLY .ro .none 0, FieldSpec.mk F.ODR_GRP_ANYERASE .ro .none 0,
     FieldSpec.mk F.ODR_GRP_ANYUNAV .ro .none 0, FieldSpec.mk F.ODR_GRP_ARM .rw .imm 0]
  | .odrEvsub =>
    [FieldSpec.mk F.ODR_EVSUB_EN .rw .imm 0, FieldSpec.mk F.ODR_EVSUB_CH .rw .imm 0]
  | .odrMainG =>
    [FieldSpec.mk F.ODR_MAIN_G_VAL .rw .imm 0]
  | .odrMainA =>
    [FieldSpec.mk F.ODR_MAIN_A_VAL .rw .imm 0]
  | .odrM =>
    [FieldSpec.mk F.ODR_M_VAL .rw .imm 0]
  | .odrShadowG =>
    [FieldSpec.mk F.ODR_SHADOW_G_VAL .rw .imm 0]
  | .odrShadowA =>
    [FieldSpec.mk F.ODR_SHADOW_A_VAL .rw .imm 0]
  | .odrMainCre =>
    [FieldSpec.mk F.ODR_MAIN_CRE_VAL .rw .imm 0]
  | .odrMainCim =>
    [FieldSpec.mk F.ODR_MAIN_CIM_VAL .rw .imm 0]
  | .odrShadowCre =>
    [FieldSpec.mk F.ODR_SHADOW_CRE_VAL .rw .imm 0]
  | .odrShadowCim =>
    [FieldSpec.mk F.ODR_SHADOW_CIM_VAL .rw .imm 0]
  | .dbCmd =>
    [FieldSpec.mk F.DB_CMD_PROD .rw .imm 0, FieldSpec.mk F.DB_CMD_CONSUMED .ro .none 0]
  | .dbRing =>
    [FieldSpec.mk F.DB_RING_CONS .rw .imm 0, FieldSpec.mk F.DB_RING_ARM .rw .imm 0, FieldSpec.mk F.DB_RING_PRODUCED .ro .none 0]
  | .msixPba =>
    [FieldSpec.mk F.MSIX_PBA_PEND .ro .none 0]
  | .msixTable =>
    [FieldSpec.mk F.MSIX_TABLE_ADDR .rw .imm 0, FieldSpec.mk F.MSIX_TABLE_DATA .rw .imm 0, FieldSpec.mk F.MSIX_TABLE_CTL .rw .imm 0]
  | .viewAddr =>
    [FieldSpec.mk F.VIEW_ADDR_ADDR .rw .imm 0]

/-- R62: the reset miss policies, APPLY_LATE for classes 0 to 3 and DROP for 4 and 5. -/
def dlPolicyReset (lsb : Nat) : Nat := if lsb = 8 ∨ lsb = 10 then 1 else 0

/-- R248, R223: the vendor dispatch entry of opcode `o`: VALID, KINDS and CLASS as R223 lists them. -/
def vendorDispatch (o lsb : Nat) : Nat :=
  if 0x19 ≤ o then 0
  else if lsb = 31 then 1
  else if lsb = 30 then (if o = 0x02 ∨ o = 0x03 ∨ o = 0x01 then 1 else Config.vendorHead o)
  else if lsb = 27 then
    (if o = 0x02 ∨ (0x0D ≤ o ∧ o ≤ 0x10) ∨ o = 0x14 then 6 else if o = 0x15 then 1 else 7)
  else if lsb = 25 then
    (if (0x01 ≤ o ∧ o ≤ 0x05) ∨ o = 0x13 then 2
     else if (0x0D ≤ o ∧ o ≤ 0x12) ∨ o = 0x15 ∨ o = 0x17 ∨ o = 0x18 then 1
     else if o = 0x14 then Config.streamClass else 0)
  else if lsb = 0 then Config.vendorEntry o % 6144
  else 0

/-- The number a field table gives in its Reset column. -/
def tableReset (r : Reg) (lsb : Nat) : Nat :=
  ((r.fields.find? (fun x => x.fld.lsb == lsb)).map (·.res)).getD 0

/-- The value a field reads as while nothing has written it: the Reset column of R6.  `is32` is the
variant of R1 (true for KRV-Q512-32). Log 2 (DESIGN CHOICE). -/
def resetOf (is32 : Bool) (k : Key) : Nat :=
  match k.reg with
  | .glbChmapStage | .glbChmapAct => k.j
  | .timDlPolicy => dlPolicyReset k.lsb
  | .drvPscale => if k.i < 32 then 0x100 else 0x80
  | .dscColq | .evfLogq => if k.lsb = 0 ∧ k.i = 0 then 1024 else 0
  | .ucsWord => if k.j < 6144 then Config.vendorWord k.j else 0
  | .ucsDisp => if k.j < 64 then vendorDispatch k.j k.lsb else 0
  | .hifFctrl => if k.lsb = 0 ∧ k.i = 0 then 1 else 0
  | .hifFstat => if k.lsb = 0 ∧ k.i = 0 then 1 else 0
  | .hifSpart => if k.lsb = 32 ∧ k.i = 0 then 192 else 0
  | .hifDpart => if k.lsb = 32 ∧ k.i = 0 then (if is32 then 512 else 128) else 0
  | .calAcoef => Config.factory 0 k.i k.lsb
  | .calDcoef => Config.factory 1 k.i k.lsb
  | .calGcal => Config.factory 2 k.i k.lsb
  | .calFmod => if k.lsb = 16 ∨ k.lsb = 32 then Config.factory 3 k.i k.lsb else 0
  | .frnCmps => if k.lsb = 0 then 3 else 0
  | .frnSeq => if 112 ≤ k.i then Config.vendorSeq k.i k.lsb else tableReset .frnSeq k.lsb
  | .glbSerial => Config.serial
  | .glbVariant =>
    if k.lsb = 24 then (if is32 then 32 else 16) else if k.lsb = 16 then (if is32 then 32 else 8)
    else if k.lsb = 8 then (if is32 then 8 else 4) else (if is32 then 1 else 0)
  | r => tableReset r k.lsb

end Sys2Proof.Machine
end

