-- ==== Sys2Proof/Machine/Types.lean ====
section
/-!
DEFINITION. The kinds of thing the module's commands carry and its state holds: deadline messages,
timed entries, windows, records and the rest, each in the shape the spec gives it.
-/

namespace Sys2Proof.Machine

/-! ### Timebase -/

/-- What counting REF_IN against the Firn oscillator finds (R47, R634). -/
inductive RefFreq where
  | m100 | m10 | other
  deriving DecidableEq, Repr

/-- What a deadline-tagged message does where it takes effect (R38, R62). -/
inductive DlTarget where
  /-- the pending host write of a field, whose value the register already holds (R57, R11) -/
  | host (k : Key) (wid : Nat)
  /-- a tagged write of a field: SETPARAM, Odric HPAR, a parameter packet -/
  | param (k : Key) (wid v : Nat)
  /-- a RUN descriptor's start of a sequencer, at a program address with a shot number -/
  | start (q : SeqNo) (pc shot : Nat)
  /-- a branch request to a sequencer -/
  | branch (q : SeqNo) (target : Nat)
  /-- a write of a sequencer register -/
  | sreg (q : SeqNo) (i v : Nat)
  /-- DRV_SCTRL.PHRST of a slot (R87) -/
  | phrst (p : DacPort) (slot : Nat)
  /-- EVF_FIRE on a channel by a function (R426) -/
  | fire (f : Func) (ch : Nat)
  /-- CNT_CTRL.SNAP (R439) -/
  | snap
  deriving DecidableEq, Repr

/-- A message for a deadline queue (R56 to R65).  `deadline = none` is ASAP.  `cls` is the class of
R62, 6 for a host register write, which is in no class.  `isl` is the island: 0 West, 1 East,
2 timing.  `seqOf` is the sequencer whose shot a miss taints.  `cmd` is the command descriptor
(function, index) that waits for the verdict, `poison` that its sender had POISON set (R274). -/
structure DlMsg where
  deadline : Option Nat
  cls : Nat
  sender : Nat
  isl : Nat
  eff : Eff
  seqOf : Option SeqNo
  taints : Bool
  cmd : Option (Func × Nat)
  poison : Bool
  target : DlTarget
  deriving DecidableEq, Repr

/-! ### Sequencers and ports -/

/-- The kinds of timed entry (R210); `none` while nothing but attached actions is there. -/
inductive EKind where
  | none | seg | wait | waitev | waitd | sync | halt
  deriving DecidableEq, Repr

/-- Zero-time actions attached to an entry (R210). -/
inductive Act where
  | ftw (slot v : Nat) | poff (slot v : Nat) (phrst : Bool) | shiftp (slot d : Nat)
  | ascl (slot v : Nat) | pscale (v : Nat) | emit (e : Nat) | capt (eng : Nat)
  | openw (mask kidx : Nat) | shot (inc : Bool) | mrkp (mrk pat : Nat)
  deriving DecidableEq, Repr

/-- A PLAY member: slot, byte offset in the region's envelope store, the energies of R327 as the table
stood when the entry closed (image at normal rate, image at fine rate, flat-top at each, baseband), and
whether it touches an envelope block the sequencer's owner does not own (R454). -/
structure Member where
  slot : Nat
  addr : Nat
  sums : List Nat
  denied : Bool
  deriving DecidableEq, Repr

/-- A timed entry (R210, R226).  `len` is granules for a segment, ticks for a WAIT, K for a SYNC. -/
structure Entry where
  kind : EKind
  len : Nat
  members : List Member
  stream : Bool
  acts : List Act
  ch : Nat
  tmo : Nat
  fb : Nat
  ttgt : Nat
  deriving DecidableEq, Repr

/-- A committed entry: its start, and its end where that is fixed.  `scale` is the governor's GG for
a segment (256 full), `veto` its VETO, `upol` the latched underrun policy (R228), `fromReq` the target
of the branch request that cut a wait or gap for it. -/
structure CEntry where
  e : Entry
  start : Nat
  stop : Option Nat
  started : Bool
  gg : Nat
  veto : Bool
  upol : Nat
  fromReq : Option Nat
  deriving DecidableEq, Repr

/-- A result record (R188, R464). -/
structure Rec where
  chan : Nat
  flags : Nat
  shot : Nat
  code : Nat
  conf : Nat
  len : Nat
  i : Int
  q : Int
  dtick : Nat
  deriving DecidableEq, Repr

/-! ### Events -/

/-- An event (R422): source (1,024 + f for a software fire), origin channel, birth tick, detail word,
Firn time (0 outside sources 816 to 927). -/
structure Ev where
  src : Nat
  origin : Nat
  birth : Nat
  detail : Nat
  ftime : Nat
  deriving DecidableEq, Repr

/-- An event-log record (R432, R467): publication tick, logging channel, event. -/
structure LogRec where
  at_ : Nat
  ch : Nat
  ev : Ev
  deriving DecidableEq, Repr

/-! ### Odric cores -/

/-- A mailbox notice (R296). -/
structure Notice where
  entry : Nat
  st : Nat
  code : Nat
  early : Bool
  ovr : Bool
  dtick : Nat
  deriving DecidableEq, Repr


/-! ### What leaves the module -/

/-- Everything that leaves the module, in the order it leaves. -/
inductive Out where
  /-- the DAC words of a port's tick, after the mute gain (R105, R106), with the DAC trim by which they leave the
  connector later, in 1/16 samples (R73, R105) -/
  | dac (port tick trim : Nat) (words : List Int)
  /-- an edge of MSYNC_OUT (R71) -/
  | msync (tick : Nat) (level : Bool)
  /-- a ring entry written to host memory: function, ring, count, host address, bytes (R455 to R457) -/
  | ring (f k idx addr : Nat) (bytes : List Byte)
  /-- an MSI-X message: function, vector, and the address and data its table entry holds (R446) -/
  | msix (f vec addr data : Nat)
  /-- the completion of a host read -/
  | readData (f : Nat) (v : Nat)
  /-- host memory written by DMA: address, bytes (R461) -/
  | dmaWrite (addr : Nat) (bytes : List Byte)
  /-- a 64-bit block sent on a lane of a Habor port (R501, R509) -/
  | habor (port lane payload : Nat)
  /-- a packet sent on a Habor port in free mode (R513) -/
  | packet (port : Nat) (bytes : List Byte)
  /-- a frame sent on the NET port (R519) -/
  | frame (bytes : List Byte)
  /-- a marker edge: marker, tick × 64 plus fraction, level (R412) -/
  | marker (m time64 : Nat) (level : Bool)
  /-- SMBus bytes returned (R388) -/
  | smbus (bytes : List Nat)
  deriving DecidableEq, Repr

end Sys2Proof.Machine
end

