-- ==== Sys2Proof/Syntax.lean ====
section
/-!
DEFINITION. The commands of the module: one constructor of `Instr` for each row of the opcode table,
with the row's operands.  A row that names an instruction of a stored program (a sequencer's, a
micro-routine's, an Odric core's) names the unit that executes it: the instruction word itself lies in
that unit's program store, and the row's meaning fetches it there.  A row that names something the
environment does (a pin, a received block, data that arrives) carries what the environment supplies.
-/

namespace Sys2Proof

open Machine

/-- The commands, R-numbers as in the opcode table. -/
inductive Instr where
  /-- REGISTER_WRITE (R597). A BAR0 write to a register that has no behaviour of its own sets its fields under their Access and Effect codes. -/
  | registerWrite (f : Func) (addr nbytes be data : Nat)
  /-- READ_CLEAR (R7). A read that returns every bit of an RC field returns it and then clears it. -/
  | readClear (f : Func) (addr nbytes : Nat)
  /-- VIEW_DATA_ACCESS (R603). A virtual function's VIEW_DATA access reaches the register at VIEW_ADDR after a visibility check. -/
  | viewDataAccess (f : Func) (write : Bool) (half nbytes data : Nat)
  /-- APERTURE_ACCESS (R449). A virtual function's access in an enabled aperture reaches the named page of the physical function's map. -/
  | apertureAccess (f : Func) (write : Bool) (off nbytes be data : Nat)
  /-- BAR2_ACCESS (R450). A BAR2 read or write reaches a store after the ownership check. -/
  | bar2Access (f : Func) (write : Bool) (addr nbytes be data : Nat)
  /-- CHMAP_CHECK_DONE (R30). The channel-map duplicate check completes and the map is applied or refused. -/
  | chmapCheckDone (r : Region)
  /-- DEADLINE_MSG_ARRIVE (R59). A deadline-tagged message enters its island's deadline queue and is judged in time, missed or out of range. -/
  | deadlineMsgArrive (m : DlMsg)
  /-- DEADLINE_QUEUE_ADMIT (R61). A message held at a full deadline queue is admitted when an entry frees. -/
  | deadlineQueueAdmit (isl : Fin 3)
  /-- DEADLINE_APPLY (R58). A queued message takes effect at the first legal instant at or after its deadline. -/
  | deadlineApply (isl : Fin 3)
  /-- MSYNC_EDGE (R66). A qualifying MSYNC_IN rising edge is captured with its fraction and margin. -/
  | msyncEdge (frac : Fin 16) (high : Nat)
  /-- PHRST (R87). A write of PHRST sets a slot's phase accumulator to 0 at its tick. -/
  | phrst (p : DacPort) (slot : Fin 32)
  /-- MODE_SWITCH_DONE (R102). The output stage finishes switching its coupling and MODE_BUSY clears. -/
  | modeSwitchDone (p : DacPort)
  /-- PORT_EN_SET (R112). EN taking hold as 1 starts RAMP_UP at a granule boundary once the PLLs are locked. -/
  | portEnSet (p : DacPort)
  /-- PORT_EN_CLEAR (R113). EN taking hold as 0 starts RAMP_DOWN, or mutes at once from HOLD. -/
  | portEnClear (p : DacPort)
  /-- RAMP_END (R113). A RAMP_UP or RAMP_DOWN completes its 800 ticks and the port enters ON or MUTED. -/
  | rampEnd (p : DacPort)
  /-- LEVEL_STAGE (R108). A DRV_LEVEL write takes hold in the stage at a granule boundary. -/
  | levelStage (p : DacPort)
  /-- LEVEL_ADOPT (R108). The output stage adopts a staged level, entering HOLD when the port is ON and two granules of silence are committed. -/
  | levelAdopt (p : DacPort)
  /-- HOLD_END (R110). A HOLD of 120 or 160 ticks ends and the port returns to ON with the new level. -/
  | holdEnd (p : DacPort)
  /-- STREAM_UNDERRUN (R228). A stream granule incomplete at its boundary is blanked or soft-stops the sequencer under UPOL. -/
  | streamUnderrun (p : DacPort)
  /-- EARLY_TONE_STOP (R132). At the stop granule after an early decision a FLATTOP probe slot ramps its envelope down. -/
  | earlyToneStop (p : DacPort) (slot : Fin 32) (d : Nat)
  /-- ACQ_EN_SET (R139). ACQ_CTRL.EN taking hold as 1 powers the ADC up. -/
  | acqEnSet (k : AcqPort)
  /-- ADC_READY (R139). The ADC becomes ready and ACQ_STATUS.READY reads 1. -/
  | adcReady (k : AcqPort)
  /-- GAIN_SETTLED (R137). The gain stage settles 40 ticks after an AGAIN change and GAIN_BUSY clears. -/
  | gainSettled (k : AcqPort)
  /-- ACQ_CFG_CHECK_DONE (R151). The slot configuration check completes, leaving the configuration pending or refused. -/
  | acqCfgCheckDone (k : AcqPort)
  /-- LATE_DECISION (R172). A window reaching KLEN without a crossing decides late. -/
  | lateDecision (k : AcqPort) (slot : Fin 32)
  /-- TRK_EN_SET (R160). TRK_EN taking hold as 1 sets home, zeroes offset and clears the averager. -/
  | trkEnSet (k : AcqPort) (slot : Fin 32)
  /-- CREVASSE_BEGIN (R156). A crevasse begins when no window is open and G(t) is at least 1,600. -/
  | crevasseBegin (k : AcqPort)
  /-- CREVASSE_END (R156). A crevasse ends at t + G(t) or when an enable takes hold. -/
  | crevasseEnd (k : AcqPort)
  /-- DV_OWN_TILE_UPDATE (R176). A decision, window opening or containment enters the own-tile decision vector copy. -/
  | dvOwnTileUpdate (entry : Fin 768) (st code : Fin 4) (early : Bool) (d : Nat)
  /-- DV_OTHER_TILE_UPDATE (R42). A local entry change enters the other tile's copy 4 ticks later. -/
  | dvOtherTileUpdate (entry : Fin 768) (st code : Fin 4) (early : Bool) (d : Nat)
  /-- EXPORT_LATCH_SET (R183). An exported channel's decision sets its export latch, replacing an unsent one with OVERRUN. -/
  | exportLatchSet (q : Chan) (code : Fin 4) (early unav : Bool) (d : Nat)
  /-- IMPORT_UPDATE (R185). Import entries bound to a received decision are updated in both copies 3 ticks after the check. -/
  | importUpdate (p : HabPort) (origin : Fin 64) (chan : Chan) (code : Fin 4) (early ovr unav : Bool)
  /-- RESULT_RECORD_WRITE (R193). The collector buffer writes a record to its function's result ring when the ring has room. -/
  | resultRecordWrite (f : Func)
  /-- LOSS_MARKER_WRITE (R192). A function's loss marker is written to its ring in its place in order. -/
  | lossMarkerWrite (f : Func)
  /-- SHOT_SUMMARY (R465). A sequencer's shot summary enters the collector buffer after its shot's records. -/
  | shotSummary (q : SeqNo) (shot : Nat)
  /-- SEQ_EN_SET (R205). SEQ_CTRL.EN taking hold as 1 moves the sequencer from DISABLED to ARMED. -/
  | seqEnSet (q : SeqNo)
  /-- SEQ_EN_CLEAR (R205). EN taking hold as 0 disables an ARMED sequencer or soft-stops a RUNNING one. -/
  | seqEnClear (q : SeqNo)
  /-- START_TRIGGER (R206). An event on START_CH is a start request handled by state and TPOL. -/
  | startTrigger (q : SeqNo) (birth : Nat)
  /-- SEQ_START (R207). At start tick S the sequencer enters RUNNING with a new shot number at a frame boundary. -/
  | seqStart (q : SeqNo)
  /-- ENTRY_COMMIT (R214). At the commit point of a timed entry its start is fixed and the governor, underrun policy and handover are decided. -/
  | entryCommit (q : SeqNo)
  /-- ENTRY_START (R214). A timed entry starts on the back end, with its attached zero-time actions taking hold. -/
  | entryStart (q : SeqNo)
  /-- HALT_RETIRE (R205). HALT retires after the last timed entry and the sequencer becomes ARMED or starts a held request. -/
  | haltRetire (q : SeqNo)
  /-- NOP (R223). Sequencer instruction that does nothing for one front-end tick. -/
  | nop (q : SeqNo)
  /-- HALT (R223). Sequencer instruction that builds the entry ending the run. -/
  | halt (q : SeqNo)
  /-- PLAY (R226). Sequencer instruction that builds a segment or a member of a PLAY group. -/
  | play (q : SeqNo)
  /-- WAIT (R223). Sequencer instruction that builds silence for TICKS. -/
  | wait (q : SeqNo)
  /-- WAITEV (R221). Sequencer instruction that builds silence until an event on channel CH. -/
  | waitev (q : SeqNo)
  /-- WAITD (R220). Sequencer instruction that builds silence until the selected decisions arrive. -/
  | waitd (q : SeqNo)
  /-- BRD (R219). Sequencer instruction that arms a reflex-table lookup at the next commit point. -/
  | brd (q : SeqNo)
  /-- JMP (R218). Sequencer instruction that continues at TARGET. -/
  | jmp (q : SeqNo)
  /-- BRS (R218). Sequencer instruction that branches if register REG meets COND. -/
  | brs (q : SeqNo)
  /-- CALL (R218). Sequencer instruction that pushes a return address and continues at TARGET. -/
  | call (q : SeqNo)
  /-- RET (R218). Sequencer instruction that pops a return address. -/
  | ret (q : SeqNo)
  /-- LOOP (R218). Sequencer instruction that pushes a loop level with COUNT. -/
  | loop (q : SeqNo)
  /-- ENDL (R218). Sequencer instruction that decrements the innermost loop count and loops or pops. -/
  | endl (q : SeqNo)
  /-- SETF (R211). Sequencer instruction that attaches an FTW write for a slot. -/
  | setf (q : SeqNo)
  /-- SETP (R211). Sequencer instruction that attaches a POFF write and optional PHRST. -/
  | setp (q : SeqNo)
  /-- SHIFTP (R211). Sequencer instruction that attaches a phase shift of a slot. -/
  | shiftp (q : SeqNo)
  /-- SETA (R211). Sequencer instruction that attaches an ASCL or PSCALE write. -/
  | seta (q : SeqNo)
  /-- EMIT (R223). Sequencer instruction that publishes an event source at the entry start. -/
  | emit (q : SeqNo)
  /-- CAPT (R407). Sequencer instruction that triggers a capture engine at the entry start. -/
  | capt (q : SeqNo)
  /-- SYNC (R223). Sequencer instruction that builds silence until a multiple of 2^K. -/
  | sync (q : SeqNo)
  /-- STREAM_FETCH (R227). Sequencer instruction that appends a fetch descriptor to the port's fetch queue. -/
  | streamFetch (q : SeqNo)
  /-- STREAM_PLAYS (R227). Sequencer instruction that builds a stream segment from the oldest queued descriptor. -/
  | streamPlays (q : SeqNo)
  /-- OPENW (R153). Sequencer instruction that attaches a window opening to the entry. -/
  | openw (q : SeqNo)
  /-- OPR (R225). Sequencer instruction that performs a register operation. -/
  | opr (q : SeqNo)
  /-- SHOT (R223). Sequencer instruction that attaches a frame boundary and optional SHOTNO increment. -/
  | shot (q : SeqNo)
  /-- MRKP (R412). Sequencer instruction that attaches a marker pattern start. -/
  | mrkp (q : SeqNo)
  /-- CUSTOMER_OPCODE (R249). A customer opcode dispatches its verified micro-routine from the control store. -/
  | customerOpcode (q : SeqNo)
  /-- RESERVED_OPCODE (R223). A reserved or undispatched opcode raises ILLEGAL. -/
  | reservedOpcode (q : SeqNo)
  /-- WAITD_SATISFIED (R180). The last selected entry updates to DONE or UNAVAIL and the lookup runs the next tick. -/
  | waitdSatisfied (q : SeqNo)
  /-- WAITD_TIMEOUT (R220). A WAITD not satisfied by W + TMO continues at FB. -/
  | waitdTimeout (q : SeqNo)
  /-- WAITEV_EVENT (R221). An event on channel CH ends a WAITEV. -/
  | waitevEvent (q : SeqNo) (ch : Fin 256)
  /-- WAITEV_TIMEOUT (R221). A WAITEV without event by W + TMO continues at TTGT. -/
  | waitevTimeout (q : SeqNo)
  /-- SEQ_JREQ (R234). A host write of SEQ_JREQ sends a branch request presented as ASAP. -/
  | seqJreq (q : SeqNo) (target : Fin 4096)
  /-- BRANCH_REQUEST (R222). A branch request presented to a sequencer redirects its next entry or ends a wait. -/
  | branchRequest (q : SeqNo) (target : Fin 4096)
  /-- SOFT_STOP_BEGIN (R229). A soft stop begins at a granule boundary, ramping outputs and discarding unstarted entries. -/
  | softStopBegin (q : SeqNo)
  /-- SOFT_STOP_COMPLETE (R230). A soft stop completes and the sequencer becomes ARMED, DISABLED or restarts. -/
  | softStopComplete (q : SeqNo)
  /-- SREG (R203). A host SEQ_SREG write or Odric OD_SREG message sets a sequencer register. -/
  | sreg (q : SeqNo) (i : Fin 16) (v : Nat)
  /-- UOP_UNDEF (R245). Micro-op that raises ILLEGAL. -/
  | uopUndef (q : SeqNo)
  /-- UOP_NOP (R245). Micro-op that does nothing. -/
  | uopNop (q : SeqNo)
  /-- UOP_COMMIT (R244). Micro-op that sets COMMITTED, ending the restartable section. -/
  | uopCommit (q : SeqNo)
  /-- UOP_MXT (R245). Micro-op that extracts a field of the macro instruction word. -/
  | uopMxt (q : SeqNo)
  /-- UOP_LDI (R245). Micro-op that loads a sign-extended immediate. -/
  | uopLdi (q : SeqNo)
  /-- UOP_ALU (R245). Micro-op that performs a register-register operation. -/
  | uopAlu (q : SeqNo)
  /-- UOP_ALUI (R245). Micro-op that performs a register-immediate operation. -/
  | uopAlui (q : SeqNo)
  /-- UOP_SRD (R245). Micro-op that reads a sequencer register and adds it to the read set. -/
  | uopSrd (q : SeqNo)
  /-- UOP_SWR (R245). Micro-op that writes a sequencer register through the commit buffer. -/
  | uopSwr (q : SeqNo)
  /-- UOP_UJMP (R245). Micro-op that jumps forward in the control store. -/
  | uopUjmp (q : SeqNo)
  /-- UOP_UBR (R245). Micro-op that branches forward on a condition. -/
  | uopUbr (q : SeqNo)
  /-- UOP_SETNPC (R245). Micro-op that sets the next macro PC. -/
  | uopSetnpc (q : SeqNo)
  /-- UOP_PUSHC (R245). Micro-op that pushes the call stack. -/
  | uopPushc (q : SeqNo)
  /-- UOP_POPC (R245). Micro-op that pops the call stack. -/
  | uopPopc (q : SeqNo)
  /-- UOP_LPUSH (R245). Micro-op that pushes a loop level. -/
  | uopLpush (q : SeqNo)
  /-- UOP_LSTEP (R245). Micro-op that steps the innermost loop. -/
  | uopLstep (q : SeqNo)
  /-- UOP_LTOP (R245). Micro-op that reads the innermost loop count. -/
  | uopLtop (q : SeqNo)
  /-- UOP_DVRD (R245). Micro-op that reads an own-tile decision vector entry. -/
  | uopDvrd (q : SeqNo)
  /-- UOP_EKIND (R245). Micro-op that sets the kind of the entry under construction. -/
  | uopEkind (q : SeqNo)
  /-- UOP_ELEN (R245). Micro-op that sets the entry length. -/
  | uopElen (q : SeqNo)
  /-- UOP_EPLAY (R245). Micro-op that adds a PLAY member from operands. -/
  | uopEplay (q : SeqNo)
  /-- UOP_EPLAYM (R245). Micro-op that adds a PLAY member from the macro word. -/
  | uopEplaym (q : SeqNo)
  /-- UOP_ESTRM (R245). Micro-op that adds the STREAM PLAYS member. -/
  | uopEstrm (q : SeqNo)
  /-- UOP_ECLOSE (R245). Micro-op that closes the entry under construction. -/
  | uopEclose (q : SeqNo)
  /-- UOP_EPARM (R245). Micro-op that attaches a slot parameter write. -/
  | uopEparm (q : SeqNo)
  /-- UOP_EATT (R245). Micro-op that attaches an EMIT, CAPT, OPENW, SHOT or MRKP action. -/
  | uopEatt (q : SeqNo)
  /-- UOP_EAUX (R245). Micro-op that sets a wait field. -/
  | uopEaux (q : SeqNo)
  /-- UOP_BRDARM (R245). Micro-op that arms the reflex lookup. -/
  | uopBrdarm (q : SeqNo)
  /-- UOP_SFETCH (R245). Micro-op that appends a fetch descriptor. -/
  | uopSfetch (q : SeqNo)
  /-- UOP_FAULT (R245). Micro-op that raises ILLEGAL. -/
  | uopFault (q : SeqNo)
  /-- UOP_VCHK (R245). Vendor micro-op that raises ILLEGAL on reserved bits of the macro word. -/
  | uopVchk (q : SeqNo)
  /-- VERIFY_DONE (R254). The customer-area check completes, setting VERIFIED or a refusal STATUS. -/
  | verifyDone (r : Region)
  /-- ODR_NOP (R279). Odric operation that does nothing. -/
  | odrNop (n : CoreNo)
  /-- ADD (R279). Odric operation D = A + B. -/
  | add (n : CoreNo)
  /-- SUB (R279). Odric operation D = A − B. -/
  | sub (n : CoreNo)
  /-- AND (R279). Odric operation D = A AND B. -/
  | and (n : CoreNo)
  /-- OR (R279). Odric operation D = A OR B. -/
  | or (n : CoreNo)
  /-- XOR (R279). Odric operation D = A XOR B. -/
  | xor (n : CoreNo)
  /-- SHL (R279). Odric operation shift left. -/
  | shl (n : CoreNo)
  /-- SHR (R279). Odric operation logical shift right. -/
  | shr (n : CoreNo)
  /-- SAR (R279). Odric operation arithmetic shift right. -/
  | sar (n : CoreNo)
  /-- MOV (R279). Odric operation D = A, or IMM16 in IMM format. -/
  | mov (n : CoreNo)
  /-- NEG (R279). Odric operation D = −A. -/
  | neg (n : CoreNo)
  /-- ABS (R279). Odric operation D = |A|. -/
  | abs (n : CoreNo)
  /-- MIN (R279). Odric operation signed minimum. -/
  | min (n : CoreNo)
  /-- MAX (R279). Odric operation signed maximum. -/
  | max (n : CoreNo)
  /-- PARM (R279). Odric operation parity of A AND B. -/
  | parm (n : CoreNo)
  /-- POPC (R279). Odric operation population count of A AND B. -/
  | popc (n : CoreNo)
  /-- SELNZ (R279). Odric operation D = B if A is non-zero. -/
  | selnz (n : CoreNo)
  /-- SELZ (R279). Odric operation D = B if A is zero. -/
  | selz (n : CoreNo)
  /-- MUL (R279). Odric operation low half of the signed product. -/
  | mul (n : CoreNo)
  /-- MULH (R279). Odric operation high half of the signed product. -/
  | mulh (n : CoreNo)
  /-- ADDS (R279). Odric operation saturating add. -/
  | adds (n : CoreNo)
  /-- SUBS (R279). Odric operation saturating subtract. -/
  | subs (n : CoreNo)
  /-- CMPLT (R279). Odric operation signed less-than compare. -/
  | cmplt (n : CoreNo)
  /-- CMPEQ (R279). Odric operation equality compare. -/
  | cmpeq (n : CoreNo)
  /-- EXTB (R279). Odric operation extracts a byte. -/
  | extb (n : CoreNo)
  /-- MTA (R279). Odric operation moves to an address register. -/
  | mta (n : CoreNo)
  /-- MTM (R279). Odric operation moves to a modifier register. -/
  | mtm (n : CoreNo)
  /-- MFA (R279). Odric operation moves from an address register. -/
  | mfa (n : CoreNo)
  /-- MFM (R279). Odric operation moves from a modifier register. -/
  | mfm (n : CoreNo)
  /-- CMUL (R281). Odric operation complex multiply into an accumulator. -/
  | cmul (n : CoreNo)
  /-- CMAC (R281). Odric operation complex multiply-accumulate. -/
  | cmac (n : CoreNo)
  /-- CMSU (R281). Odric operation complex multiply-subtract. -/
  | cmsu (n : CoreNo)
  /-- CMULJ (R281). Odric operation complex multiply by conjugate. -/
  | cmulj (n : CoreNo)
  /-- CMACJ (R281). Odric operation complex multiply-accumulate by conjugate. -/
  | cmacj (n : CoreNo)
  /-- CMSUJ (R281). Odric operation complex multiply-subtract by conjugate. -/
  | cmsuj (n : CoreNo)
  /-- CCLR (R279). Odric operation clears an accumulator. -/
  | cclr (n : CoreNo)
  /-- CADD (R279). Odric operation adds one accumulator to another. -/
  | cadd (n : CoreNo)
  /-- SACC16 (R282). Odric operation stores a packed rounded accumulator. -/
  | sacc16 (n : CoreNo)
  /-- SACC32 (R282). Odric operation stores both accumulator parts rounded to 32 bits. -/
  | sacc32 (n : CoreNo)
  /-- SACC32R (R282). Odric operation stores the real part rounded to 32 bits. -/
  | sacc32r (n : CoreNo)
  /-- LACC (R279). Odric operation loads an accumulator from a packed value. -/
  | lacc (n : CoreNo)
  /-- LACC32 (R279). Odric operation loads an accumulator from two 32-bit values. -/
  | lacc32 (n : CoreNo)
  /-- HSR (R300). Odric handoff that sends a sequencer register write under OD_SREG. -/
  | hsr (n : CoreNo)
  /-- HPAR (R300). Odric handoff that sends a slot parameter write under OD_PARAM. -/
  | hpar (n : CoreNo)
  /-- HBR (R300). Odric handoff that sends a branch request under OD_BRANCH. -/
  | hbr (n : CoreNo)
  /-- EVFIRE (R307). Odric operation that publishes the core's event source on a channel it owns. -/
  | evfire (n : CoreNo)
  /-- ODR_RESERVED_OP (R278). A reserved Odric operation or encoding raises ILLEGAL. -/
  | odrReservedOp (n : CoreNo)
  /-- LS_LOAD (R276). Odric LS-format load from data memory, I/O page or scratch. -/
  | lsLoad (n : CoreNo)
  /-- LS_STORE (R276). Odric LS-format store. -/
  | lsStore (n : CoreNo)
  /-- LDI (R276). Odric LDI-format immediate load into a g, a or m register. -/
  | ldi (n : CoreNo)
  /-- NOPC (R280). Odric control operation that does nothing. -/
  | nopc (n : CoreNo)
  /-- BR (R280). Odric conditional branch with a delay slot. -/
  | br (n : CoreNo)
  /-- ODR_CALL (R280). Odric conditional call with a delay slot. -/
  | odrCall (n : CoreNo)
  /-- ODR_RET (R280). Odric return with a delay slot. -/
  | odrRet (n : CoreNo)
  /-- RTI (R293). Odric return from interrupt to the main bank. -/
  | rti (n : CoreNo)
  /-- REP (R287). Odric operation that repeats the next instruction a given count. -/
  | rep (n : CoreNo)
  /-- REPR (R287). Odric operation that repeats the next instruction a register count. -/
  | repr (n : CoreNo)
  /-- WAITI (R280). Odric operation that enters WAITING. -/
  | waiti (n : CoreNo)
  /-- ODR_HALT (R268). Odric operation that halts the core. -/
  | odrHalt (n : CoreNo)
  /-- EI (R280). Odric operation that sets CSR.IE. -/
  | ei (n : CoreNo)
  /-- DI (R280). Odric operation that clears CSR.IE. -/
  | di (n : CoreNo)
  /-- INTERRUPT_TAKE (R291). A pending enabled line is taken, switching to the shadow bank and vectoring. -/
  | interruptTake (n : CoreNo)
  /-- CORE_TIMER_ZERO (R306). The core timer reaches 0 and line 7 becomes pending. -/
  | coreTimerZero (n : CoreNo)
  /-- HANDOFF_QUEUE_ADMIT (R302). A handoff stalled at a full queue enters it when a message leaves. -/
  | handoffQueueAdmit (n : CoreNo)
  /-- MAILBOX_NOTICE (R296). An update of a selected entry to DONE or UNAVAIL adds a notice to the core's FIFO. -/
  | mailboxNotice (n : CoreNo) (entry : Fin 768) (st code : Fin 4) (early ovr : Bool) (d : Nat)
  /-- GROUP_FIRE (R299). An armed group fires when every selected entry has updated, setting GTICK, GSTAT and IPEND. -/
  | groupFire (n : CoreNo) (k : Fin 4)
  /-- VETO_NOTICE (R331). At C + 1 a VETO notice reaches the port's sequencer. -/
  | vetoNotice (q : SeqNo)
  /-- BIN_BOUNDARY (R321). At a bin boundary a governor window's oldest bin leaves the tally. -/
  | binBoundary (w : Fin 2)
  /-- LAST_RESORT_CROSSING (R333). A measured tally crossing its ceiling mutes every port counted at that level. -/
  | lastResortCrossing (x : Fin 63) (w : Fin 2)
  /-- MUTE_RAMP_RELEASE (R334). A re-enabled port's RAMP_UP starts once every tally counting it is below 7/8 of its ceiling. -/
  | muteRampRelease (p : DacPort)
  /-- PEER_TALLY_STALE (R326). A peer's tally older than 2 short bins plus 200 ticks makes the stage fall back to BUD. -/
  | peerTallyStale (origin : Fin 64) (n : Fin 4) (w : Fin 2)
  /-- BIAS_UPDATE_SLOT (R345). At each 1 µs slot each bias channel steps toward its goal within the governed rate. -/
  | biasUpdateSlot (apart far limit : Nat)
  /-- PRESET_DONE (R353). A preset save or erase completes and BUSY clears with its RESULT. -/
  | presetDone (c : BiasCh) (verified : Bool)
  /-- WAKE (R387). A wake source in Idle or Hibernate wakes the module. -/
  | wake (src : Fin 5) (index : Nat)
  /-- TONE_TRIGGER_FIRE (R398). A tone trigger's condition holds for WIDTH steps and it fires with an interpolated stamp. -/
  | toneTriggerFire (t : Chan)
  /-- TONE_TRIGGER_ARRIVE (R399). A tone-trigger firing reaches the timing island and feeds units, engines and hit logs. -/
  | toneTriggerArrive (t : Chan) (v stamp : Int)
  /-- TRG_TCFG_WRITE (R397). A TRG_TCFG or TRG_TLEV write restarts the tone trigger's average. -/
  | trgTcfgWrite (t : Chan)
  /-- GENERAL_UNIT_FIRE (R402). A general unit qualifies its source, publishes, stamps and triggers capture engines. -/
  | generalUnitFire (u : Fin 32) (stamp : Int)
  /-- GENERAL_UNIT_TIMEOUT (R401). A TIMEOUT qualifier fires when no crossing occurs for T1. -/
  | generalUnitTimeout (u : Fin 32) (since : Int)
  /-- CAPTURE_TRIGGER (R407). A trigger fixes a capture anchor in the current segment. -/
  | captureTrigger (e : Fin 16) (stamp : Nat) (kind : Fin 3)
  /-- SEGMENT_CLOSE (R409). A capture segment closes and its header and ring entry are written. -/
  | segmentClose (e : Fin 16) (data : List Byte)
  /-- CAPTURE_FLUSH (R408). A HITS segment closes FLUSH µs after its first record. -/
  | captureFlush (e : Fin 16)
  /-- MARKER_PATTERN_START (R412). A TRG_MCMD write starts a marker pattern at a granule boundary. -/
  | markerPatternStart (mk : Fin 16) (pat : Fin 256) (by_ : Nat)
  /-- EVENT_PUBLISH (R428). An event is published on a channel, relayed, counted and logged. -/
  | eventPublish (src : Fin 1024) (birth detail ftime : Nat)
  /-- RELAY_DUE (R435). A delayed relay event is published on its DST at its due tick. -/
  | relayDue (k : Fin 64)
  /-- EVF_FIRE (R426). A software fire publishes an event on a channel the function may fire. -/
  | evfFire (f : Func) (ch : Fin 256)
  /-- CHANNEL_DISABLE (R431). A channel EN clear takes effect and later publications are dropped. -/
  | channelDisable (c : Fin 256)
  /-- CHANNEL_ENABLE (R431). A channel EN set takes effect and the channel carries events. -/
  | channelEnable (c : Fin 256)
  /-- LOG_RECORD_WRITE (R433). A log record is written to its function's event-log ring when room exists. -/
  | logRecordWrite (f : Func)
  /-- MODERATION_EXPIRE (R458). MODER µs after an entry the ring's cause is raised and ARM clears. -/
  | moderationExpire (f : Func) (k : Fin 6)
  /-- CMD_NOP (R460). Descriptor that completes at once. -/
  | cmdNop (f : Func) (idx : Nat)
  /-- LOAD (R461). Descriptor that copies host data into an owned store. -/
  | load (f : Func) (idx : Nat)
  /-- LOAD_ACQ_CONFIG (R461). LOAD with KIND 1 writes acquisition staging registers and runs APPLY. -/
  | loadAcqConfig (f : Func) (idx : Nat) (data : List Byte)
  /-- READBACK (R461). Descriptor that copies an owned store to host memory. -/
  | readback (f : Func) (idx : Nat)
  /-- RUN (R461). Descriptor that sends deadline-tagged start requests to sequencers. -/
  | run (f : Func) (idx : Nat)
  /-- SETPARAM (R461). Descriptor that writes up to three register fields under class SETPARAM. -/
  | setparam (f : Func) (idx : Nat)
  /-- FENCE (R461). Descriptor that waits for earlier descriptors and optionally a tick. -/
  | fence (f : Func) (idx : Nat)
  /-- FENCE_COMPLETE (R461). A waiting FENCE's conditions are met and it completes. -/
  | fenceComplete (f : Func) (idx : Nat)
  /-- DESC_CAPTURE_ARM (R461). Descriptor that writes a capture engine's registers and ARM. -/
  | descCaptureArm (f : Func) (idx : Nat)
  /-- BIASSET (R460). Descriptor that writes up to four bias codes. -/
  | biasset (f : Func) (idx : Nat)
  /-- STOP (R461). Descriptor that soft-stops the named sequencers. -/
  | stop (f : Func) (idx : Nat)
  /-- COMPLETION_WRITE (R462). A completion entry is written when the completion ring has room. -/
  | completionWrite (f : Func)
  /-- FLUSH_COMPLETE (R468). A function's flush ends, FLUSHING clears and the alarm is raised. -/
  | flushComplete (f : Func)
  /-- FUNCTION_LEVEL_RESET (R469). FLR of a function discards its work, resets its rings and sweeps its memory. -/
  | functionLevelReset (f : Func)
  /-- TRAIN_RUN_DONE (R486). A training run completes and ERRCNT reports its errors. -/
  | trainRunDone (errors : Nat)
  /-- DRAM_SWEEP_COMPLETE (R487). A DRAM sweep ends, read-back checks run and DRAM_READY or TFAULT is set. -/
  | dramSweepComplete (id fails : Nat)
  /-- DRAM_REFRESH (R485). A DRAM channel refreshes every 3.9 µs. -/
  | dramRefresh (ch : Fin 8)
  /-- LOCKED_ENTRY (R507). At a frame start with every condition met the port enters LOCKED. -/
  | lockedEntry (p : HabPort)
  /-- TALLY_SEND (R510). At each short-bin boundary a locked port queues eight stage tally blocks. -/
  | tallySend (p : HabPort)
  /-- EXCHANGE_START (R511). Every 1,024 frames a port sends an exchange request. -/
  | exchangeStart (p : HabPort) (t1 : Nat)
  /-- EXCHANGE_TIMEOUT (R511). No answer within 4,096 ticks clears XVALID. -/
  | exchangeTimeout (p : HabPort)
  /-- PACKET_SEND (R513). In free mode the port sends a whole packet from its transmit buffer. -/
  | packetSend (p : HabPort)
  /-- PARAMETER_PACKET (R514). A parameter packet is applied as a SETPARAM entry under HABOR_FREE. -/
  | parameterPacket (p : HabPort) (d0 d1 : Nat)
  /-- FOM_UPDATE (R516). The eye scanner updates a lane's FOM every 10 µs. -/
  | fomUpdate (p : HabPort) (lane : Fin 2) (v : Nat)
  /-- NET_FRAME_TRANSMIT (R519). The port transmits a frame from an owned transmit descriptor. -/
  | netFrameTransmit (sub : Fin 16)
  /-- SELFCAL_DONE (R532). The relief core completes self-calibration. -/
  | selfcalDone (r : Region)
  /-- MATCH_DONE (R532). A core completes matching the other. -/
  | matchDone (r : Region)
  /-- CAL_DONE (R532). The displaced DAC core completes calibration. -/
  | calDone (r : Region)
  /-- ADC_CAL_COMPLETE (R538). The 32nd step completes and new ADC coefficients await the frame boundary. -/
  | adcCalComplete (k : AcqPort)
  /-- FMOD_CAL (R540). A Firn modulator calibrates in its idle gap. -/
  | fmodCal (m : Fin 2)
  /-- BIAS_TRIM_MEASURE (R542). Each BPER seconds a selected settled channel is measured and its TRIM set. -/
  | biasTrimMeasure (c : BiasCh) (d : Int)
  /-- FAULT_DETECTED (R549). A fault is detected, logged and its part contained. -/
  | faultDetected (cause index : Nat)
  /-- REGION_RECOVERY_DONE (R552). The 18,000-tick drain, scrub and rebuild complete. -/
  | regionRecoveryDone (r : Region)
  /-- REGION_RELEASE (R553). At the first granule boundary after recovery the region is released or held. -/
  | regionRelease (r : Region)
  /-- RESUME (R554). A write of RCV_RCTL.RESUME restarts recorded sequencers. -/
  | resume (r : Region)
  /-- ISLAND_RECOVERY_DONE (R556). An island recovery restarts the island and publishes source 1011. -/
  | islandRecoveryDone (k : Fin 5) (i : HabPort)
  /-- RESET_RELEASE (R571). When PGOOD, RESET_N and PERST_N are high the reset is released and straps sampled. -/
  | resetRelease (straps : Fin 64)
  /-- RELOCK_TIMEOUT (R552). When a tile's sample-clock PLL has not relocked 5 ms after a TILE_CLOCK fault, its regions are held with PERSIST set. -/
  | relockTimeout (t : Fin 2)
  /-- TONE_TRIGGER_REARM (R398). A tone trigger in HOLD re-arms at the first bin step where its condition is false and HOLD steps have passed. -/
  | toneTriggerRearm (t : Chan)
  /-- SCRATCH_LOAD_DATA (R275). The data of an Odric load from shared scratch arrives and the stalled core resumes. -/
  | scratchLoadData (n : CoreNo)
  /-- DMA_COMPLETE (R461). The host-memory transfer of a LOAD or READBACK completes or fails, and the descriptor completes with OK, POISONED or DMA_ERROR. -/
  | dmaComplete (f : Func) (idx : Nat) (ok : Bool) (data : List Byte)
  /-- FRN_ENTRY_COMPLETE (R374). A measurement entry completes and its result register is updated. -/
  | frnEntryComplete (e : Fin 128) (conv rev : List Int) (isOver : Bool) (temp : Int)
  /-- APPLY (R29). A write of GLB_CHMAP_CTRL.APPLY judges region idleness and starts the channel-map check. -/
  | apply (r : Region)
  /-- REF_IDENTIFIED (R47). Counting REF_IN against the Firn oscillator identifies the reference frequency. -/
  | refIdentified (freq : RefFreq)
  /-- REF_MATCH_RESTORED (R634). REF_IN matches again, REF_MISMATCH clears and locking proceeds. -/
  | refMatchRestored (freq : RefFreq)
  /-- REF_CFG_WRITE (R49). A TIM_REF_CFG write changing REF_SEL or CLEAN_100 starts a relock unless a sequencer is enabled. -/
  | refCfgWrite (v : Nat)
  /-- MSYNC_ARM (R68). A write of TIM_MSYNC_CTRL.ARM selects ONESHOT or MONITOR capture or turns it off. -/
  | msyncArm (v : Fin 4)
  /-- OUT_MODE_WRITE (R71). A write of OUT_MODE selects OFF, SCHEDULED or REPEAT for MSYNC_OUT. -/
  | outModeWrite (v : Fin 4)
  /-- DRV_MODE_WRITE (R102). A DRV_CTRL write changing MODE switches the output path, or is refused while the sequencer is enabled. -/
  | drvModeWrite (p : DacPort) (v : Fin 4)
  /-- ACQ_CFG_APPLY (R151). A write of ACQ_CFG_CTRL.APPLY starts the check of the staged slot configuration. -/
  | acqCfgApply (k : AcqPort)
  /-- BIN_STEP_TEST (R171). At each bin step of an open window the discriminator scores the reported values and tests the bounds. -/
  | binStepTest (k : AcqPort) (slot : Fin 32) (samples : List Nat) (ovr : Bool)
  /-- DECISION_BLOCK_SEND (R184). A locked port sends a block of up to three oldest latched or forwarded decisions in its decision slot. -/
  | decisionBlockSend (p : HabPort)
  /-- DECISION_BLOCK_RECEIVE (R185). A received decision block is checked and its decisions are queued for import and forwarding. -/
  | decisionBlockReceive (p : HabPort) (lane : Fin 2) (block : Nat) (chkOk : Bool)
  /-- COLQ_WRITE (R191). A DSC_COLQ write sets a quota, or is ignored with QUOTA_ERR if quotas exceed 1,024. -/
  | colqWrite (f : Func) (v : Nat)
  /-- SEQ_CMD_START (R206). A write of SEQ_CMD.START is a start request. -/
  | seqCmdStart (q : SeqNo)
  /-- SEQ_CMD_STOP (R234). A write of SEQ_CMD.STOP soft-stops a RUNNING sequencer. -/
  | seqCmdStop (q : SeqNo)
  /-- VERIFY (R253). A write of UCS_CTRL.VERIFY starts the check of customer routines. -/
  | verify (r : Region)
  /-- LOCK (R255). A write of UCS_CTRL.LOCK freezes the customer area until reset. -/
  | lock (r : Region)
  /-- UCS_CUSTOMER_WRITE (R251). A write to a customer word or dispatch entry is accepted only when idle and unlocked, and clears VERIFIED. -/
  | ucsCustomerWrite (r : Region) (disp : Bool) (idx v : Nat)
  /-- ODR_RUN (R268). A write of ODR_CTRL.RUN = 1 starts a HALTED core at START_PC. -/
  | odrRun (n : CoreNo)
  /-- ODR_RUN_CLEAR (R268). A write of RUN = 0 halts the core at the next accepting boundary. -/
  | odrRunClear (n : CoreNo)
  /-- MBPOP1 (R296). A read of MBPOP1 returns the oldest notice's second word and removes it. -/
  | mbpop1 (n : CoreNo)
  /-- GROUP_ARM (R299). A write of a group's ARM bit arms the group. -/
  | groupArm (n : CoreNo) (k : Fin 4)
  /-- GOV_WIN_WRITE (R322). A GOV_WIN write changes bin lengths and carries tallies, or is refused. -/
  | govWinWrite (v : Nat)
  /-- GOV_LCFG_WRITE (R340). A GOV_LCFG write applies each field on its own terms. -/
  | govLcfgWrite (f : Func) (x : Fin 63) (v : Nat)
  /-- BIA_CODE_WRITE (R348). An accepted BIA_CODE write sets the bias goal from the next slot. -/
  | biaCodeWrite (c : BiasCh) (v : Nat)
  /-- BIA_TRIM_WRITE (R346). An accepted BIA_TRIM write sets the trim target. -/
  | biaTrimWrite (c : BiasCh) (v : Nat)
  /-- RANGE_CHANGE (R358). A BIA_CFG write changing RANGE runs the ramp-park-switch-ramp sequence. -/
  | rangeChange (c : BiasCh) (v : Fin 8)
  /-- SAVE_NEXT (R353). Preset command saving live registers to the slot not in force. -/
  | saveNext (c : BiasCh)
  /-- SAVE_A (R353). Preset command saving to slot A. -/
  | saveA (c : BiasCh)
  /-- SAVE_B (R353). Preset command saving to slot B. -/
  | saveB (c : BiasCh)
  /-- ERASE_A (R353). Preset command clearing A's commit flag. -/
  | eraseA (c : BiasCh)
  /-- ERASE_B (R353). Preset command clearing B's commit flag. -/
  | eraseB (c : BiasCh)
  /-- RELOAD (R353). Preset command loading live registers from the slot in force and moving the output. -/
  | reload (c : BiasCh)
  /-- FRN_SEQ_WRITE (R369). A FRN_SEQ write sets an entry or is refused with SEQ_REFUSED. -/
  | frnSeqWrite (e : Fin 128) (v : Nat)
  /-- FRN_RES_READ (R374). A host read of FRN_RES returns the result and clears READY. -/
  | frnResRead (e : Fin 128)
  /-- COMPARATOR_EDGE (R379). A comparator changes state and a selected edge latches, publishes and may wake. -/
  | comparatorEdge (i : Fin 80) (dest : Fin 3)
  /-- COMPARATOR_SETTLE (R377). An UNSETTLED comparator leaves every band and takes its state without an edge. -/
  | comparatorSettle (i : Fin 80) (dest : Fin 3)
  /-- FRN_CMP_WRITE (R378). A FRN_CMP write sets a comparator or is refused for a seventeenth FAST or THLO > THHI. -/
  | frnCmpWrite (i : Fin 80) (v : Nat)
  /-- RELEASE (R384). A write of FRN_RSTAT.RELEASE releases a FIRED rule. -/
  | release (j : Fin 32)
  /-- SMB_SET_POINTER (R388). SMBus command 0x10 sets the block pointer. -/
  | smbSetPointer (v : Nat)
  /-- TRG_GCFG_WRITE (R402). A unit configuration write re-arms the unit or is refused with CFG_REFUSED. -/
  | trgGcfgWrite (u : Fin 32) (word : Fin 3) (v : Nat)
  /-- TRIG_IN_EDGE (R403). An accepted TRIG_IN edge is stamped and published. -/
  | trigInEdge (i : Fin 16) (level : Bool) (sample : Fin 16) (held : Nat)
  /-- CAPTURE_ARM (R406). A capture ARM checks the configuration and starts collecting. -/
  | captureArm (e : Fin 16)
  /-- CAPTURE_SOFT (R407). A write of TRG_CCMD.SOFT triggers the engine. -/
  | captureSoft (e : Fin 16)
  /-- CAPTURE_STOP (R409). A write of TRG_CCMD.STOP closes the segment in progress and idles the engine. -/
  | captureStop (e : Fin 16) (data : List Byte)
  /-- CAPTURE_OVERFLOW (R408). A capture finds no free segment or a full staging buffer and stops with OVF. -/
  | captureOverflow (e : Fin 16) (data : List Byte)
  /-- EVF_CHCFG_WRITE (R423). A channel configuration write, refused when it breaks owner rules. -/
  | evfChcfgWrite (f : Func) (c : Fin 256) (v : Nat)
  /-- EVF_SRCMAP_WRITE (R424). A source map write, refused with MAP_REFUSED when the channel is not allowed. -/
  | evfSrcmapWrite (f : Func) (src : Fin 1024) (v : Nat)
  /-- EVF_LOGQ_WRITE (R433). A log quota write, refused with QUOTA_ERR when quotas exceed 1,024. -/
  | evfLogqWrite (f : Func) (v : Nat)
  /-- CNT_CFG_WRITE (R436). A counter configuration write, refused with SEL_DENIED for disallowed inputs. -/
  | cntCfgWrite (f : Func) (i : Fin 128) (v : Nat)
  /-- PCIE_LINK_UP (R444). The PCIe link trains and comes up. -/
  | pcieLinkUp (width speed : Nat)
  /-- DB_CMD_WRITE (R456). A command doorbell write sets the producer count or sets RING_ERR. -/
  | dbCmdWrite (f : Func) (v : Nat)
  /-- DB_RING_CONS_WRITE (R456). A consumer count write returns credit on a module-produced ring. -/
  | dbRingConsWrite (f : Func) (k : Fin 6) (v : Nat)
  /-- RING_ARM (R458). A write of a ring's ARM bit arms its interrupt, raising it at once if entries wait. -/
  | ringArm (f : Func) (k : Fin 6)
  /-- RING_ENABLE (R456). A HIF_RCFG write setting EN resets the ring counts. -/
  | ringEnable (f : Func) (k : Fin 6) (v : Nat)
  /-- DESCRIPTOR_FETCH (R460). The module fetches a command descriptor and starts it in order. -/
  | descriptorFetch (f : Func) (bytes : List Byte)
  /-- HIF_OWN_WRITE (R452). An ownership write changes owners of idle resources and sweeps their memory, or is refused. -/
  | hifOwnWrite (w : Fin 14) (v : Nat)
  /-- PARTITION_WRITE (R453). A HIF_SPART or HIF_DPART write sets a partition or is refused. -/
  | partitionWrite (dram : Bool) (f : Func) (v : Nat)
  /-- FUNCTION_DISABLE (R468). Clearing HIF_FCTRL.EN or VF Enable flushes a function's work in flight. -/
  | functionDisable (f : Func) (vf : Bool)
  /-- FUNCTION_ENABLE (R468). Setting EN again resumes fetching at the consumed count. -/
  | functionEnable (f : Func) (numVfs : Option (Fin 16))
  /-- SCRUB_WORD (R483). The scrub reads a word, writes back corrections and poisons uncorrectable words. -/
  | scrubWord (a found : Nat)
  /-- MEM_TRAIN_RUN (R486). A write of MEM_TRAIN.RUN starts a training pattern run. -/
  | memTrainRun (v : Nat)
  /-- DRAM_RETRAIN (R489). On the -32 a trained channel retrains its delays, possibly setting TFAULT. -/
  | dramRetrain (ch : Fin 8) (eye : List Nat)
  /-- PANIC_ENTER (R492). A streaming port's buffer falls below LEVEL with fetching left and it enters panic. -/
  | panicEnter (p : DacPort)
  /-- SELF_REFRESH_EXIT (R495). A host access in Idle takes a channel out of self-refresh. -/
  | selfRefreshExit (ch : Fin 8)
  /-- HABOR_PORT_ENABLE (R503). LNK_PCFG.EN taking hold as 1 starts lane training. -/
  | haborPortEnable (p : HabPort)
  /-- TRAINING_DONE (R503). Both lanes lock and deskew and the port enters SYNCED or FREE. -/
  | trainingDone (p : HabPort)
  /-- LANE_LOST (R504). 16 of 64 invalid headers lose a lane and the port retrains. -/
  | laneLost (p : HabPort) (lane : Fin 2)
  /-- TALLY_RECEIVE (R510). A received tally block updates the peer tally and is forwarded by rule. -/
  | tallyReceive (p : HabPort) (lane : Fin 2) (block : Nat) (chkOk : Bool)
  /-- ALIGN_SEND (R510). ALIGN blocks with BIP-8 are sent every 64 frames. -/
  | alignSend (p : HabPort) (lane : Fin 2)
  /-- ALIGN_RECEIVE (R508). A received ALIGN block checks BIP-8 and counts BIP_ERR on mismatch. -/
  | alignReceive (p : HabPort) (lane : Fin 2) (block : Nat) (chkOk : Bool) (parity : Nat)
  /-- EXCHANGE_REQUEST_RECEIVE (R511). A received exchange request is stamped and answered. -/
  | exchangeRequestReceive (p : HabPort) (lane : Fin 2) (block : Nat) (chkOk : Bool) (t2 t3 : Nat)
  /-- EXCHANGE_ANSWER_RECEIVE (R511). The exchange answer arrives and OFS and DELAY are computed. -/
  | exchangeAnswerReceive (p : HabPort) (lane : Fin 2) (block : Nat) (chkOk : Bool) (t4 : Nat)
  /-- PACKET_RECEIVE (R513). A received packet passing CRC is written to the receive buffer, else dropped. -/
  | packetReceive (p : HabPort) (sid : Nat) (data : List Byte) (crcOk : Bool)
  /-- SLIP (R515). A write of SLIP moves a raw lane's block boundary by one bit. -/
  | slip (p : HabPort) (lane : Fin 2)
  /-- NET_LINK_CHANGE (R518). The NET link goes up or down and publishes source 960. -/
  | netLinkChange (up : Bool)
  /-- NET_FRAME_RECEIVE (R519). A received frame is stamped and written to a receive descriptor or dropped. -/
  | netFrameReceive (frame : List Byte) (fcsOk : Bool) (sub : Fin 16)
  /-- INCR_WRITE (R523). An INCR write takes hold at the next edge or is refused. -/
  | incrWrite (v : Nat)
  /-- ADJ_WRITE (R524). An ADJ write steps the PTP clock or is held as a jump. -/
  | adjWrite (v : Nat)
  /-- PORT_CYCLE_START (R532). A relief-core port cycle begins PER_MS after the previous. -/
  | portCycleStart (r : Region)
  /-- HANDOVER (R533). At a handover instant the relief core or port core takes over the port. -/
  | handover (r : Region)
  /-- FORCED_HANDOVER (R534). After 1 s without a handover instant the handover is forced and the shot tainted. -/
  | forcedHandover (r : Region)
  /-- ADC_CAL_STEP (R536). An ADC calibration step starts inside a crevasse with zeroed samples. -/
  | adcCalStep (k : AcqPort)
  /-- ASTARVED (R539). APER seconds pass without a completed ADC calibration, possibly forcing steps. -/
  | astarved (k : AcqPort)
  /-- FSTARVED (R541). FPER seconds pass without a modulator calibration, possibly forcing one. -/
  | fstarved (m : Fin 2)
  /-- TILE_RELOCK (R552). A tile's sample-clock PLL relocks after a TILE_CLOCK fault. -/
  | tileRelock (t : Fin 2)
  /-- RCV_RELEASE (R555). A write of RCV_RCTL.RELEASE releases a held region. -/
  | rcvRelease (r : Region)
  /-- RESET_ASSERT (R574). RESET_N or PERST_N asserts a warm reset, terminating outputs and discarding descriptors. -/
  | resetAssert (perst : Bool)
  /-- BRST_DRIVE_PORT (R575). Block reset of a drive port. -/
  | brstDrivePort (p : Fin 32)
  /-- BRST_PROBE_PORT (R575). Block reset of a probe port. -/
  | brstProbePort (p : Fin 16)
  /-- BRST_ACQ_PORT (R575). Block reset of an acquisition port. -/
  | brstAcqPort (k : AcqPort)
  /-- BRST_ODRIC_CORE (R575). Block reset of an Odric core. -/
  | brstOdricCore (n : CoreNo)
  /-- BRST_CAPTURE_ENGINE (R575). Block reset of a capture engine. -/
  | brstCaptureEngine (e : Fin 16)
  /-- BRST_DISCRIMINATORS (R575). Block reset of a region's discriminators, refused unless idle. -/
  | brstDiscriminators (r : Region)
  /-- BRST_HABOR_PORT (R575). Block reset of a Habor port. -/
  | brstHaborPort (p : HabPort)
  /-- LC_TRANSITION (R583). A GLB_LC write with CONFIRM 0xC5 starts a life-cycle transition or is refused. -/
  | lcTransition (target : Fin 4) (confirm : Fin 256)
  /-- SELF_REFRESH_ENTRY (R495). In Idle, a DRAM channel returns to self-refresh after 100 µs without traffic. -/
  | selfRefreshEntry (ch : Fin 8)
  /-- BLOCK_LOCK (R515). In raw mode, a lane reads BLOCK_LOCK 1 after 64 consecutive valid headers at its current boundary. -/
  | blockLock (p : HabPort) (lane : Fin 2)
  /-- PRBS_ERROR (R515). Under PRBS31 in raw mode, a received bit error sets the lane's PRBS_ERR. -/
  | prbsError (p : HabPort) (lane : Fin 2)
  /-- REF_MISMATCH (R634). REF_IN ceases to match the selected frequency, REF_MISMATCH sets and no lock starts. -/
  | refMismatch
  /-- REF_LOST (R48). Loss of REF_IN is detected and the module enters holdover. -/
  | refLost
  /-- CLEANUP_PLL_LOCK (R47). The cleanup PLL reports lock. -/
  | cleanupPllLock
  /-- SCLK_LOCK (R47). Both sample-clock PLLs report lock. -/
  | sclkLock
  /-- COUNTER_START (R50). The module time counter starts from 0 at the first reference-aligned tick after lock. -/
  | counterStart
  /-- RELOCK_START (R48). After reference return, with all sequencers disabled and 1 ms of matching input, the module starts a relock. -/
  | relockStart
  /-- MSYNC_LOAD (R68). At load tick L the counter takes TIM_MSYNC_LOAD and ALIGNED sets, or the load is refused. -/
  | msyncLoad
  /-- SOFT (R70). A write of SOFT acts as an MSYNC_IN rising edge at the next tick. -/
  | soft
  /-- MSYNC_OUT_PULSE (R71). At TIM_MSYNC_OUT_AT a SCHEDULED pulse of 16 ticks is driven and OUT_MODE returns to OFF. -/
  | msyncOutPulse
  /-- COLLECTOR_INTAKE (R190). The collector intake takes up to 64 records a tick into the buffer against each function's quota. -/
  | collectorIntake
  /-- VIMG_READY (R252). The vendor image is copied from ROM into the control store and VIMG_READY sets. -/
  | vimgReady
  /-- GOV_LOCK (R325). A write of GOV_CTRL.LOCK makes ceilings and pool settings read-only until reset. -/
  | govLock
  /-- TRIM_GRADE (R346). Every 64 µs TRIM_ACT moves by 1 LSB toward TRIM. -/
  | trimGrade
  /-- PRESET_CHECK (R356). After VIN valid both preset slots are checked and each channel ramps to its preset or stays parked. -/
  | presetCheck
  /-- CLEAR_N_ACT (R357). CLEAR_N low for 1 µs moves every channel to its CLRCODE. -/
  | clearNAct
  /-- CLEAR_N_RELEASE (R357). CLEAR_N high for 1 µs stops acting; outputs stay at CLRCODE. -/
  | clearNRelease
  /-- FIRN_TIME_PAIRING (R367). Every 65,536 Firn cycles the Firn time is sent and paired with the module time counter. -/
  | firnTimePairing
  /-- FIRN_EVENT_DELIVER (R368). The control fabric accepts the oldest queued Firn event. -/
  | firnEventDeliver
  /-- FRN_TRIGGER (R373). An event on TRIG_CH starts or queues the triggered sequence. -/
  | frnTrigger
  /-- SOFT_TRIG (R373). A write of SOFT_TRIG is a trigger of the triggered sequence. -/
  | softTrig
  /-- TRIG_SEQUENCE_END (R373). Both modulators finish their triggered entries and TRIG_BUSY clears or a held trigger restarts it. -/
  | trigSequenceEnd
  /-- LATCH_PERIOD_CLEAR (R379). With LMODE 1 latch bits clear at each LPER period. -/
  | latchPeriodClear
  /-- RULE_PASS (R384). Every 10 µs all enabled rules are evaluated and may fire or auto-release. -/
  | rulePass
  /-- WAKE_N (R387). WAKE_N asserted low is a wake cause. -/
  | wakeN
  /-- SMB_READ_STATUS (R388). SMBus command 0x00 returns the status byte. -/
  | smbReadStatus
  /-- SMB_BLOCK_READ (R388). SMBus command 0x11 returns 8 bytes and advances the pointer. -/
  | smbBlockRead
  /-- EVENT_DELIVER (R428). An event reaches subscribed task inputs 12 ticks after publication. -/
  | eventDeliver
  /-- EVENT_LOG_INTAKE (R432). The log buffer takes up to 16 queued records a tick against quotas. -/
  | eventLogIntake
  /-- COUNTER_SNAPSHOT (R439). At each PERIOD multiple every counter is snapshotted and dump records are sent. -/
  | counterSnapshot
  /-- SNAP (R439). A write of CNT_CTRL.SNAP takes a snapshot at the end of the next tick. -/
  | snap
  /-- TRAINED (R487). A write of MEM_DCTRL.TRAINED starts the DRAM sweep. -/
  | trained
  /-- SRAM_SWEEP_COMPLETE (R488). The SRAM stores are cleared after reset release. -/
  | sramSweepComplete
  /-- REFILL_TRANSFER (R491). A 64-byte DRAM transfer completes into a refill buffer in priority order. -/
  | refillTransfer
  /-- NET_DB_TX (R519). A write of NET_DB.TX resumes the transmit walk. -/
  | netDbTx
  /-- NET_DB_RX (R519). A write of NET_DB.RX resumes the receive walk. -/
  | netDbRx
  /-- NET_TXTS1_READ (R521). A read of NET_TXTS1 returns the stamp seconds and removes the entry. -/
  | netTxts1Read
  /-- PTP_SECOND_BOUNDARY (R522). The PTP nanoseconds reach 10^9, the seconds advance and source 965 is published. -/
  | ptpSecondBoundary
  /-- ACCEPT (R524). A write of ACCEPT applies the held step. -/
  | accept
  /-- PAIR (R525). A write of PAIR requests a pairing. -/
  | pair
  /-- PAIRING (R525). At a coinciding tick the module time counter and PTP clock are latched together. -/
  | pairing
  /-- CAL_RELOAD (R531). A write of CAL_CTRL.RELOAD restores factory coefficients. -/
  | calReload
  /-- HEARTBEAT_TIMEOUT (R561). No heartbeat for HB_TMO µs makes the Firn island take over. -/
  | heartbeatTimeout
  /-- UNDERVOLTAGE_TRIP (R561). A control-die undervoltage detector trips and the Firn island takes over. -/
  | undervoltageTrip
  /-- VIN_RISE (R571). VIN becomes valid and power-up begins. -/
  | vinRise
  /-- VIN_LOSS (R570). VIN falls below 3.0 V and the module turns off. -/
  | vinLoss
  /-- BROWN_OUT (R570). VIN falls below 4.3 V while above 3.0 V. -/
  | brownOut
  /-- BRST_NET_PORT (R575). Block reset of the NET port. -/
  | brstNetPort
  /-- BRST_DONE (R575). A block reset completes and BUSY clears. -/
  | brstDone
  /-- REQ_ACTIVE (R578). A write of GLB_PWR.REQ = ACTIVE leaves Idle. -/
  | reqActive
  /-- REQ_IDLE (R577). A write of REQ = IDLE enters Idle or is refused. -/
  | reqIdle
  /-- REQ_HIBERNATE (R579). A write of REQ = HIBERNATE starts Hibernate entry or is refused. -/
  | reqHibernate
  /-- IDLE_EXIT (R578). A tile access or wake returns the module from Idle to Active. -/
  | idleExit
  /-- HIBERNATE_POWER_OFF (R579). After biases settle or HIB_WAIT, the retention set is saved and tiles and control die power off. -/
  | hibernatePowerOff
  /-- HIBERNATE_WAKE (R580). A wake cause powers the control die, restores the retention set and clears unkept DRAM. -/
  | hibernateWake
  /-- LC_SWEEP_DONE (R584). The life-cycle sweep ends, SWEEP_PEND clears and a warm reset follows. -/
  | lcSweepDone
  deriving DecidableEq, Repr

end Sys2Proof
end

