-- ==== Sys2Proof/Decode.lean ====
section
/-!
DEFINITION. The decoder over the rows of the opcode table that give bits.  The table gives none: its rows are
commands of a block, named and not encoded.  The words of stored programs (R223, R241, R276) are read where
they execute, by the units' own meanings.
-/

namespace Sys2Proof

/-- No row of the opcode table gives bits, so no word spells a command. Log 3 (DESIGN CHOICE). -/
def decodeTableWord (_nbits _w : Nat) : Option Instr := none

end Sys2Proof
end

