-- ==== Sys2Proof/Machine/State.lean ====
section
/-!
DEFINITION. The state of the module: plain data, everything the spec gives it.

Register fields live in one sparse table `Blk.regs`: an unlisted field reads as its reset value
(R6, `resetOf`), so the state right after reset lists none.  A field with a pending write (R11) reads
as last written; the value in force meanwhile is in `Blk.force`.  The units' hidden state is kept in
sparse tables too, an absent unit reading as its reset.
-/

namespace Sys2Proof.Machine

/-! ### Timebase (R45 to R83) -/

/-- What the timing part keeps beside its registers.  `matchSince` is the elapsed tick from which
REF_IN has matched without interruption (R48).  `loadAt` is the load tick L of R68 while a ONESHOT
capture waits for it; `outFall` the elapsed tick MSYNC_OUT falls at; `meas` what REF_IN was last counted
to be. -/
structure TimSt where
  running : Bool
  matchSince : Option Nat
  relocking : Bool
  loadAt : Option Nat
  outFall : Option Nat
  meas : Option RefFreq
  deriving DecidableEq, Repr

/-- A message admitted to a deadline queue, with the first tick it may act at. -/
structure DlEnt where
  msg : DlMsg
  due : Nat
  ord : Nat
  deriving DecidableEq, Repr

/-! ### DAC ports (R84 to R134) -/

/-- A slot's part in the segment that plays (R90 to R94, R130 to R133).  `stop` is the stop granule
of an early tone stop. -/
structure SegSlot where
  addr : Nat
  start : Nat
  len : Nat
  fine : Bool
  flat : Bool
  ramp : Nat
  estop : Bool
  stream : Bool
  stop : Option Nat
  deriving DecidableEq, Repr

/-- A tone slot: accumulator (its value for j = 0 of elapsed tick `accTick`), the interpolator's last
value e_p, whether the last tick was fine rate, and the segment part that plays. -/
structure SlotSt where
  accBase : Nat
  accTick : Nat
  eI : Int
  eQ : Int
  fineLast : Bool
  seg : Option SegSlot
  deriving DecidableEq, Repr

/-- A fetch descriptor of R227: DRAM byte address, length in granules, size in bytes, bytes fetched,
whether it has left the queue because its segment started, and whether it lies outside the owner's
partition and so delivers zeros (R454). -/
structure FetchD where
  addr : Nat
  len : Nat
  size : Nat
  got : Nat
  gone : Bool
  denied : Bool
  deriving DecidableEq, Repr

/-- Why a port is in HARD_MUTE (R115). -/
inductive MuteCause where
  | gov | region | relock | sclk | safe | brst
  deriving DecidableEq, Repr

/-- A DAC port's state beside its registers.  `rampEnd` is the tick the ramp ends at, `holdEnd` the tick the HOLD ends at, `busyEnd` the tick a mode
switch ends at, `enSeen` that EN was written 0 since HARD_MUTE began, `soft` the granule at which a
soft stop's ramp began, `streamLeft` the bytes
of the descriptor that plays not consumed yet, `streamEnd` the tick its segment ends at, `streamZero`
that a VETO silences it, `dropBytes` the bytes to be discarded on arrival, `muteAt` when a mute for a cause takes hold, `blank` that the stream is zeroed by an underrun, `energy` the sum of squared DAC words of the
present tick, `poisonGran` the granule whose streamed data are zero for poison, `glitch` the tick of a forced handover (R534), `arrived` the bytes that have entered
the refill buffer, `bad` the positions among them of poisoned words. -/
structure PortSt where
  slots : Tab Nat SlotSt
  rampEnd : Nat
  holdEnd : Option Nat
  busyEnd : Option Nat
  mute : Option MuteCause
  enSeen : Bool
  soft : Option Nat
  bbSeg : Option SegSlot
  rbuf : List Byte
  streamLeft : Nat
  streamEnd : Nat
  streamZero : Bool
  dropBytes : Nat
  muteAt : Option (Nat × MuteCause)
  blank : Bool
  hist : List (Int × Int)
  energy : Nat
  poisonGran : Option Nat
  glitch : Option Nat
  arrived : Nat
  bad : List Nat
  deriving DecidableEq, Repr

/-! ### Acquisition (R135 to R161) -/

/-- The discriminator's configuration as latched when the window opens (R169). -/
structure DCfg where
  three : Bool
  eraseEn : Bool
  earlyEn : Bool
  cshift : Nat
  minstep : Nat
  wiA : Int
  wqA : Int
  offA : Int
  wiB : Int
  wqB : Int
  offB : Int
  drA : Int
  drB : Int
  hiA : Int
  loA : Int
  hiB : Int
  loB : Int
  ebA : Int
  ebB : Int
  deriving DecidableEq, Repr

/-- An integration window (R153): first bin step, planned length, latched slot configuration,
accumulators, steps done, whether the late decision is due, last reported values. -/
structure Win where
  n0 : Nat
  klen : Nat
  mode : Nat
  bin : Nat
  fnw : Int
  shift : Nat
  kidx : Nat
  chan : Nat
  cfg : DCfg
  shot : Nat
  accI : Int
  accQ : Int
  n : Nat
  due : Bool
  repI : Int
  repQ : Int
  ovr : Bool
  aborted : Bool
  deriving DecidableEq, Repr

/-- The tone tracker of a demodulation slot (R158 to R160). -/
structure Track where
  home : Int
  sumI : Int
  sumQ : Int
  count : Nat
  pend : Int
  deriving DecidableEq, Repr

/-- A demodulation slot: the windows that have not decided yet, oldest first; planned extent and
decision tick of the windows that ended (R154); the tracker; and a tracker step still to be added at
the probe port (R159). -/
structure DemodSt where
  wins : List Win
  past : List (Nat × Nat × Nat)
  trk : Track
  probePend : Int
  deriving DecidableEq, Repr

/-- One slot's configuration as an APPLY took it (R151): mode, bin, SHIFT, FNW, its four KLEN. -/
structure SlotCfg where
  mode : Nat
  bin : Nat
  shift : Nat
  fnw : Nat
  klen : List Nat
  deriving DecidableEq, Repr

/-- An acquisition port beside its registers.  `live`: ticks at which the samples became live or
forced to zero, newest first (R139).  `gainEnd`: the tick the last gain change settles at.  `crev`:
the end of the crevasse that runs (`some none` unbounded).  `cfgStage`, `cfgPend`: the configuration
being checked and the one waiting for the frame boundary; `klen` the kernel lengths in force (key
4 × slot + kernel); `cfgCmd` the LOAD descriptor that waits for the check.  `ovrStep`: 1 + the last bin
step counted in OVR_COUNT.  `coef`: ADC coefficients that wait for the frame boundary (R538). -/
structure AcqSt where
  slots : Tab Nat DemodSt
  live : List (Nat × Bool)
  gainEnd : Option Nat
  crev : Option (Option Nat)
  cfgStage : List SlotCfg
  cfgPend : Option (List SlotCfg)
  klen : Tab Nat Nat
  cfgCmd : Option (Nat × Nat)
  ovrStep : Nat
  coef : Option (Nat × Nat × Nat)
  deriving DecidableEq, Repr

/-! ### Decisions (R169 to R194) -/

/-- A decision vector entry (R175), with the tick of its last update and its decision tick. -/
structure DvEnt where
  at_ : Nat
  code : Nat
  st : Nat
  early : Bool
  ovr : Bool
  dtick : Nat
  deriving DecidableEq, Repr

/-- An unsent exported decision (R183); `at_` is the first tick a block may carry it. -/
structure XLatch where
  at_ : Nat
  code : Nat
  early : Bool
  unav : Bool
  ovr : Bool
  dtick : Nat
  deriving DecidableEq, Repr

/-- A decision waiting to be forwarded (R184, R185); `at_` is the first tick a block may carry it. -/
structure XDec where
  at_ : Nat
  origin : Nat
  chan : Nat
  code : Nat
  early : Bool
  ovr : Bool
  unav : Bool
  deriving DecidableEq, Repr

/-- A function's loss marker (R192): first shot (or 0xFFFF_FFFF), first decision tick, count, and
the number of the function's buffered records that entered before the first loss. -/
structure LossMk where
  shot : Nat
  dtick : Nat
  count : Nat
  ahead : Nat
  deriving DecidableEq, Repr

/-- Decision vector copies (key: tile × 1024 + entry), export latches (key: port × 512 + channel),
forward queues, records on their way to the intake, intake places, collector buffer, loss markers, the (function, shot) pairs that have
lost a record, and the Habor port of each import entry's last update. -/
structure DscSt where
  dv : Tab Nat DvEnt
  latch : Tab Nat XLatch
  fwd : Tab Nat (List XDec)
  impPort : Tab Nat Nat
  arriving : List Rec
  intake : List Rec
  buffer : List (Nat × Rec)
  marker : Tab Nat LossMk
  lostShots : List (Nat × Nat)
  deriving DecidableEq, Repr

/-! ### Sequencers and micro-engine (R202 to R260) -/

/-- A start request that has been accepted: start tick, program address and shot number of a RUN,
whether the trigger was late (R206), and the stacks a RESUME restores (R554). -/
structure StartReq where
  at_ : Nat
  pc : Option Nat
  shot : Option Nat
  late : Bool
  saved : Option (List (Nat × Nat) × List Nat)
  deriving DecidableEq, Repr

/-- An effect in a routine's commit buffer (R244). -/
inductive CEff where
  | sreg (i v : Nat) | pushc (a : Nat) | popc | lpush (cnt start : Nat) | lstep | fetch (addr len : Nat)
  deriving DecidableEq, Repr

/-- A customer routine that runs (R239). -/
structure Rt where
  entry : Nat
  upc : Nat
  mir : Nat
  u : Tab Nat Nat
  npc : Nat
  reads : List (Nat × Nat)
  mark : Entry
  cbuf : List CEff
  committed : Bool
  closed : Bool
  brd : Option Nat
  deriving DecidableEq, Repr

/-- What the front end is doing: building, waiting for a commit, waiting for a lookup, stopped by
HALT, or held by a full fetch queue. -/
inductive FeState where
  | run | waitCommit | waitLookup | halted | waitQueue
  deriving DecidableEq, Repr

/-- The shot in progress on a sequencer (R207, R465): number, start tick, taint causes by bit,
lowest GG, whether aborted, whether still in progress. -/
structure Shot where
  no : Nat
  start : Nat
  taint : Nat
  gg : Nat
  aborted : Bool
  live : Bool
  deriving DecidableEq, Repr

/-- A sequencer beside its registers.  `loops`: innermost first, (count, address of the instruction
after LOOP).  `disp`: tick of the last dispatch, the tick before the first micro-op.  `build`: the entry
under construction.  `next`: the entry built and not committed, with its R.  `line`: committed entries,
oldest first.  `lastEnd`: end tick of the last committed entry, `none` while an open wait is last.
`fresh`: no entry of the run is committed yet; `afterWait`: a wait ended without a head (no gap is
counted).  `brd`: FB and R of a BRD whose lookup is to come.  `req`: a branch request that waits for the
next entry's start; `reqUntil`: the tick the last accepted request takes effect at.  `held`: the QUEUE1
request; `pendStart`: an accepted request before its start tick; `restart`: the request that a RESTART
soft stop ends in.  `waitSel`, `satU`: entries a WAITD still waits for, tick of satisfaction.  `latch`:
operands read before a write at the LAST tick (R240).  `trap`: tick of the last trap; `trapDue`: a trap
runs after LAST (R258).  `ended`: ended shots whose summary is to come, with end ticks.  `enWait`: EN
has taken hold but the sequencer is kept from being ARMED.  `stopEnd`: tick
a soft stop's ramp is over.  `resume`: what RCV_RESUME recorded. -/
structure SeqSt where
  pc : Nat
  loops : List (Nat × Nat)
  calls : List Nat
  fe : FeState
  disp : Nat
  build : Entry
  next : Option (Entry × Nat)
  line : List CEntry
  lastEnd : Option Nat
  fresh : Bool
  afterWait : Bool
  brd : Option (Nat × Nat)
  req : Option Nat
  reqUntil : Nat
  held : Option StartReq
  pendStart : Option StartReq
  restart : Option StartReq
  halted : Bool
  stopAt : Option Nat
  stopEnd : Nat
  waitSel : List Nat
  satU : Option Nat
  fetchq : List FetchD
  rt : Option Rt
  latch : Tab Nat Nat
  trap : Option Nat
  trapDue : Bool
  shot : Shot
  ended : List (Shot × Nat)
  enWait : Bool
  resume : Option (Nat × List (Nat × Nat) × List Nat)
  deriving DecidableEq, Repr

/-! ### Energy governor (R318 to R337) -/

/-- One tally, in units of 2⁻¹⁶ aJ: current bin, complete bins newest first, the carry of R322 and the
elapsed tick up to which it counts. -/
structure Tally where
  cur : Nat
  bins : List Nat
  carry : Nat
  carryUntil : Nat
  deriving DecidableEq, Repr

/-- A reservation (R328): port, remaining energy for the two windows in units of 2⁻¹⁶ aJ,
first and last issue tick of its segment, and the stage in force. -/
structure Resv where
  port : Nat
  short : Nat
  long : Nat
  first : Nat
  last : Nat
  stage : Nat
  deriving DecidableEq, Repr

/-- The governor: tallies by (level, window, tile) with tile 0 for levels below 58; reservations; tick
energies on their way to the tallies (tick counted, port, energy); tally plus reservations of the
module and stage levels by tile, at the last ticks, newest first; peer stage tallies (key
8 × peer + 2 × stage + window) with the elapsed tick of arrival and the port; per (level, window) whether the
last comparison found the tally above its ceiling. -/
structure GovSt where
  tal : Tab Nat Tally
  resv : List Resv
  flight : List (Nat × Nat × Nat)
  snap : List (Nat × List Nat)
  peers : Tab Nat (Nat × Nat × Nat)
  isOver : Tab Nat Bool
  deriving DecidableEq, Repr

/-! ### Odric cores (R267 to R317) -/

/-- A load on its way (R284): instructions still to retire before it lands, the bank it issued in, the g
register, the value. -/
structure PLoad where
  left : Nat
  shadow : Bool
  reg : Nat
  val : Nat
  deriving DecidableEq, Repr

/-- An armed group's progress (R299): entries updated since the arm, latest decision tick, flags in the
bits of GSTAT. -/
structure GrpSt where
  seen : List Nat
  latest : Nat
  flags : Nat
  deriving DecidableEq, Repr

/-- A core beside its registers.  `jump`: the transfer whose delay slot is next, and whether it is an
RTI.  `rep`: iterations of the body that is next.  `halt`: a halt waits for its boundary.  `stall`: core
cycles in which nothing issues.  `handq`: handoffs sent, with the elapsed tick each may arrive at and its
32-bit deadline operand; `held`: the handoff that stalls the core.  `wait`: destination of the scratch
load that stalls the core. -/
structure OdrSt where
  pc : Nat
  calls : List Nat
  iret : Nat
  loads : List PLoad
  jump : Option (Nat × Bool)
  rep : Option Nat
  halt : Bool
  stall : Nat
  timer : Nat
  notices : List Notice
  grp : Tab Nat GrpSt
  handq : List (Nat × Nat × DlMsg)
  held : Option (Nat × DlMsg)
  wait : Option (Nat × Nat)
  tnowHi : Nat
  deriving DecidableEq, Repr

/-! ### Event fabric and counters (R420 to R443) -/

/-- The fabric: delayed relay events by link (due tick, destination, event); events on their way to the
task inputs (elapsed tick of arrival, channel, event); the log intake queue and the log buffer with each
record's function; events counted in the present tick by counter input; the counters whose input was at
level 1 in the tick before; the tick a SNAP waits for. -/
structure EvfSt where
  pend : Tab Nat (List (Nat × Nat × Ev))
  flight : List (Nat × Nat × Ev)
  logq : List (Nat × LogRec)
  logbuf : List (Nat × LogRec)
  hits : Tab Nat Nat
  prev : List Nat
  snapAt : Option Nat
  deriving DecidableEq, Repr


/-! ### Bias outputs and the Firn island (R335, R336, R342 to R394) -/

/-- A preset slot in MRAM (R352): its 40 bytes, its commit flag, its count of writes. -/
structure PSlot where
  image : List Byte
  commit : Bool
  writes : Nat
  deriving DecidableEq, Repr

/-- A preset command that runs (R353): the slot it works on (0 A, 1 B), whether it saves. -/
structure PCmd where
  slot : Nat
  save : Bool
  deriving DecidableEq, Repr

/-- A bias channel beside its registers.  `o`: the code at the DAC.  `failed`: parked until the first
accepted write (R356).  `chg`: step of R358 and the new range, step 0 leaving park (R356).  `until_`:
elapsed tick that step 2 or 3 ends at.  `stay`: the output stays at CLRCODE until BIA_CODE is written
(R357).  `wait`: update slots before the next single step (R345).  `clamping`: the energy clamp acts.
`open_`: sensing at its own pin (R343).  `hold`: previous code and the elapsed tick until which the
output stage holds it (R347). -/
structure BiaSt where
  o : Int
  parked : Bool
  failed : Bool
  chg : Option (Nat × Nat)
  until_ : Nat
  stay : Bool
  wait : Nat
  clamping : Bool
  open_ : Bool
  hold : Option (Int × Nat)
  cmd : Option PCmd
  deriving DecidableEq, Repr

/-- A Firn event in the queue of R368: source, detail, Firn time, birth tick. -/
structure FirnEv where
  src : Nat
  detail : Nat
  ftime : Nat
  birth : Nat
  deriving DecidableEq, Repr

/-- The Firn island beside its registers.  `lost`: events discarded since source 1023 was last queued.
`pairs`: the last two pairings (F, M), newest first.  `cur`: the entry each modulator runs, and its REV
as taken.  `ends`: by modulator the Firn time its entry began at and how many Firn cycles it lasts (R371,
R372).  `trigQ`: triggered entries still to run, by modulator, while the triggered sequence runs.
`lastCont`: the CONT entry each modulator ran last.  `vendNext`, `vendAt`: the next vendor entry, the
Firn time the last one began.  `smbReady`: entries whose SMBus READY is set.  `temps`: by sensor the
last nine readings with their Firn times, newest first.  `fast`: sensors whose last rate was above
RISE_LIM.  `rules`: by rule, whether y is loaded and how many evaluations in a row were true.  `hib`:
system source 2. -/
structure FrnSt where
  evq : List FirnEv
  lost : Nat
  pairs : List (Nat × Nat)
  cur : Tab Nat (Nat × Bool)
  ends : Tab Nat (Nat × Nat)
  trigQ : Tab Nat (List Nat)
  lastCont : Tab Nat Nat
  vendNext : Nat
  vendAt : Nat
  smbReady : List Nat
  smbPtr : Nat
  temps : Tab Nat (List (Int × Nat))
  fast : List Nat
  rules : Tab Nat (Bool × Nat)
  hib : Bool
  deriving DecidableEq, Repr

/-! ### Triggers, capture, markers (R395 to R419) -/

/-- A tone trigger beside its registers: demodulated samples since the average restarted, newest first
(at most 64); values v with their dates in 1/128 ticks, newest first (at most 256); whether the condition is true; the
run of true steps and the stamp of the crossing that began it; bin steps since it fired, while in HOLD. -/
structure ToneSt where
  xs : List (Int × Int)
  vs : List (Int × Int)
  cond : Bool
  run : Nat
  cross : Int
  since : Option Nat
  deriving DecidableEq, Repr

/-- A general unit beside its registers.  `last`: the last value and its date in 1/128 ticks.  `above`:
whether the source is above LEVHI; `low`: above LEVLO.  `rise`: stamp of the rise above LEVHI of the pulse
in progress; `lowRise`: stamp of the rise above LEVLO; `reached`: LEVHI reached since.  `crossed`: stamp of
the last crossing of LEVHI, or of the tick EN took hold.  `holdLeft`: qualifications still ignored;
`fireAt`: stamp of the last fire for TIME. -/
structure UnitSt where
  last : Option (Int × Int)
  above : Bool
  low : Bool
  rise : Option Int
  lowRise : Option Int
  reached : Bool
  crossed : Int
  holdLeft : Nat
  fireAt : Option Int
  deriving DecidableEq, Repr

/-- A capture engine beside its registers.  `seg`: the segment in use; `segSeq`: segments closed since
ARM; `busy`: segments filled and not returned; `begin_`: connector tick of the first granule collected in
the segment; `anchor`: stamp, trigger kind and elapsed tick of the trigger that fixed the anchor; `recs`: hit records of the segment (16 bytes
each); `posted`: capture-ring counts of entries and their segments, oldest first; `waiting`: closed
segments the ring has had no room for, as entry bodies. -/
structure CapSt where
  seg : Nat
  segSeq : Nat
  busy : List Nat
  begin_ : Nat
  anchor : Option (Nat × Nat × Nat)
  recs : List Byte
  first : Nat
  posted : List (Nat × Nat)
  waiting : List (Nat × List Byte)
  deriving DecidableEq, Repr

/-- A marker beside its registers: the pattern that plays with its issue tick, patterns that wait for
their granule boundary (issue tick, pattern, from an MRKP), the level of the last tick played, and the
position of the last edge in 1/64 ticks. -/
structure MarkSt where
  play : Option (Nat × Nat)
  next : Option (Nat × Nat × Bool)
  prevD : Bool
  lastPos : Int
  deriving DecidableEq, Repr

structure TrgSt where
  tones : Tab Nat ToneSt
  units : Tab Nat UnitSt
  caps : Tab Nat CapSt
  marks : Tab Nat MarkSt
  lastEdge : Tab Nat Nat
  deriving DecidableEq, Repr

/-! ### Power (R561, R570 to R586) -/

/-- Power and reset beside their registers.  `safe`: the SAFE state (R562).  `off`: the control die is
unpowered or held in reset.  `vin`: 0 in range, 1 below
4.3 V, 2 below 3.0 V (R570).  `hib`: Hibernate entry runs, until this elapsed tick at the latest
(R579).  `retain`: the retention set.  `peWake`: PE_WAKE_N driven low (R580).  `brst`: the block reset
that runs (R575). -/
structure PwrSt where
  safe : Bool
  off : Bool
  vin : Nat
  hib : Option Nat
  retain : Tab Key Nat
  peWake : Bool
  brst : Option (Nat × Nat)
  deriving DecidableEq, Repr


/-! ### Memory (R477 to R500) -/

/-- The stores' controllers beside their registers.  `sram`: the sweep after a reset clears the SRAM
stores.  `sweeps`: DRAM sweeps that run: function or 255, first usable byte, size (R487, R488, R495).
`corrAt`: elapsed tick of the last event 992 by store.  `block`: by DRAM channel the elapsed tick until
which a refresh or retraining blocks it.  `selfRef`: channels in self-refresh.  `last`: port of the last
refill.  `wait`: TRAINED waits for a training run.  `kept`: usable bytes from 0 that Hibernate kept, served
before DRAM_READY (R580). -/
structure DdrSt where
  sram : Bool
  sweeps : List (Nat × Nat × Nat)
  corrAt : Tab Nat Nat
  block : Tab Nat Nat
  selfRef : List Nat
  last : Nat
  wait : Bool
  kept : Nat
  deriving DecidableEq, Repr



/-! ### Habor links and network time (R501 to R529) -/

/-- A Habor port beside its registers.  `bip`: parity of the blocks sent on lane 0 and lane 1 since the last
alignment block.  `tallyQ`, `exchQ`: tally and exchange blocks that wait for a slot, a tally with the elapsed
tick it was queued at.  `seq`: number of the last exchange; `t1`: its first stamp while its answer is
outstanding; `ans`: T2 and T4 once the first answer block is in.  `cut`: 1 + the elapsed tick at which the
port last left locked mode. -/
structure LnkSt where
  bip : Nat × Nat
  tallyQ : List (Nat × Nat)
  exchQ : List Nat
  seq : Nat
  t1 : Option Nat
  ans : Option (Nat × Nat)
  cut : Nat
  deriving DecidableEq, Repr

/-- A walk of a NET descriptor ring: the next descriptor, and whether it stopped at one the port does not
own (R519). -/
structure Walk where
  idx : Nat
  stopped : Bool
  deriving DecidableEq, Repr

/-- A transmit stamp in the queue of R521: TS_ID, seconds, quarter nanoseconds. -/
structure TxStamp where
  id : Nat
  sec : Nat
  qns : Nat
  deriving DecidableEq, Repr

/-- The NET port and the PTP clock beside their registers: the two walks, the stamp queue oldest first, the
clock's seconds, the step and the INCR value that the next edge applies, the held step, a pairing
requested, a pairing due after a second boundary. -/
structure NetSt where
  tx : Walk
  rx : Walk
  stamps : List TxStamp
  sec : Nat
  step : Option Int
  incr : Option Nat
  held : Option Int
  pair : Bool
  auto : Bool
  deriving DecidableEq, Repr

/-! ### Self-calibration (R530 to R547) -/

/-- A region's relief core beside CAL_ROT.  `startAt`: elapsed tick its last port cycle began; `nextP`: the
port of the next cycle, in CUR's numbers; `due`: elapsed tick the phase completes at, or its wait ends at;
`left`: ticks left of it while the region is contained (R535).  `silent`, `known`: the granule before was
silent, and known to be by its committed entries; `idle`: elapsed tick since which the port's sequencer is
DISABLED or ARMED (R533). -/
structure RotSt where
  startAt : Option Nat
  nextP : Nat
  due : Nat
  left : Option Nat
  silent : Bool
  known : Bool
  idle : Option Nat
  deriving DecidableEq, Repr

/-- An ADC's calibration beside CAL_ACTL: elapsed tick the running step ends at, whether that step is
forced, whether the calibration has counted as forced, elapsed tick of the last completion, whether it has
starved since, and the last steps as spans of the module time counter, newest first. -/
structure AdcCal where
  stop : Option Nat
  forcing : Bool
  forced : Bool
  since : Nat
  starved : Bool
  spans : List (Nat × Nat)
  deriving DecidableEq, Repr

/-- A Firn modulator's calibration: elapsed tick the running one ends at, elapsed tick of the last
completion, whether it has starved since. -/
structure FmodCal where
  stop : Option Nat
  since : Nat
  starved : Bool
  deriving DecidableEq, Repr

/-- `trimCh`: the next channel of the round of bias-trim measurements, 64 once it is complete; `trimAt`: the
elapsed tick the round began at. -/
structure CalSt where
  rot : Tab Nat RotSt
  adc : Tab Nat AdcCal
  fmod : Tab Nat FmodCal
  trimCh : Nat
  trimAt : Nat
  deriving DecidableEq, Repr

/-! ### Faults and recovery (R548 to R564) -/

/-- A region's recovery beside RCV_RSTAT.  `start`: elapsed tick F_S, `none` before a relock or with no
recovery under way; `times`: elapsed ticks of its containments of the last second; `unlocked`: the tile's PLL
has not relocked since a TILE_CLOCK fault; `failed`: nor within 5 ms; `never`: never released; `done`: the three
steps are complete; `force`: released without a look at the grounds to hold; `go`: the release comes at the
next granule boundary; `held`: accesses that wait for it (R551). -/
structure RegRcv where
  start : Option Nat
  times : List Nat
  unlocked : Bool
  failed : Bool
  never : Bool
  done : Bool
  force : Bool
  go : Bool
  held : List Instr
  deriving DecidableEq, Repr

/-- Islands that recover, by 8 × cause + index, with the elapsed tick that ends at; accesses that wait for
one, or for the exit from Idle (R578); the elapsed tick at which SAFE holds the dies in reset (R562). -/
structure RcvSt where
  regs : Tab Nat RegRcv
  isl : Tab Nat Nat
  held : List Instr
  safeOff : Option Nat
  deriving DecidableEq, Repr

/-! ### Host interface (R444 to R476) -/

/-- A command descriptor fetched and not complete (R460): its count, its 64 bytes, whether it has started,
the verdicts it still waits for, and the STATUS and DETAIL gathered so far. -/
structure Cmd where
  idx : Nat
  bytes : List Byte
  started : Bool
  left : Nat
  status : Nat
  detail : Nat
  deriving DecidableEq, Repr

/-- The host interface beside its registers: by function the descriptors fetched and not complete, oldest
first, and the completions that wait for room; VF Enable of the SR-IOV capability (R445); what a
function-level reset has still to reset: sequencers by the resource of R451, DAC port p as 64 + p (R116, R233). -/
structure HifSt where
  cmds : Tab Nat (List Cmd)
  comps : Tab Nat (List (List Byte))
  vfEn : Bool
  flr : List Nat
  deriving DecidableEq, Repr

/-! ### The whole -/

/-- The block: every register and every unit.  `now` is the module time counter (R50), `elapsed` the
ticks since VIN rose; `verdicts` the outcomes of
deadline messages that a command descriptor waits for (function, descriptor, status); `agenda` holds follow-up commands with the elapsed tick each is due at; `tickStage` is how much of the
present tick's own work is done; `mram` holds
the bias preset slots (slot 2 c + 1 is channel c's B); `out`
is what has left the module, newest first; `freeCtr` is the model's own counter for `Config.free`. -/
structure Blk where
  regs : Tab Key Nat
  force : Tab Key Nat
  is32 : Bool
  now : Nat
  elapsed : Nat
  tim : TimSt
  dlq : Tab Nat (List DlEnt)
  dlHeld : List DlMsg
  dlOrd : Nat
  verdicts : List (Nat × Nat × Nat)
  agenda : List (Nat × Instr)
  tickStage : Nat
  out : List Out
  freeCtr : Nat
  ports : Tab Nat PortSt
  acqs : Tab Nat AcqSt
  dsc : DscSt
  seqs : Tab Nat SeqSt
  gov : GovSt
  odrs : Tab Nat OdrSt
  evf : EvfSt
  bias : Tab Nat BiaSt
  mram : Tab Nat PSlot
  frn : FrnSt
  trg : TrgSt
  pwr : PwrSt
  ddr : DdrSt
  lnk : Tab Nat LnkSt
  net : NetSt
  cal : CalSt
  rcv : RcvSt
  hif : HifSt
  deriving DecidableEq, Repr

/-- The stores of R448 by BAR2 offset, and the 8-byte words marked poisoned (R480), as word numbers
(BAR2 offset divided by 8).  A byte that is not listed reads 0, as a swept store does (R488, R581). -/
structure Mem where
  cells : List Host.Cell
  poison : List Nat
  deriving DecidableEq, Repr

/-- The machine: the block, its stores, and the commands that wait, first in, first out. -/
structure State where
  blk : Blk
  mem : Mem
  pending : List Instr
  deriving DecidableEq, Repr

/-- No command of this block ends in a fault: the spec gives every access an effect (R596, R597). -/
inductive Fault where
  deriving DecidableEq, Repr

/-- Reasons to refuse a command. -/
inductive Refusal where
  /-- raised by the dispatcher for a command that has no meaning yet; safe (the run stops) -/
  | notModelled (mnemonic : String)
  deriving DecidableEq, Repr

def TimSt.reset : TimSt := ⟨false, none, false, none, none, none⟩

/-- Log 2 (DESIGN CHOICE). -/
def Blk.reset : Blk where
  regs := []
  force := []
  is32 := false
  now := 0
  elapsed := 0
  tim := TimSt.reset
  dlq := []
  dlHeld := []
  dlOrd := 0
  verdicts := []
  agenda := [(0, .presetCheck), (160000, .sramSweepComplete)]
  tickStage := 0
  out := []
  freeCtr := 0
  ports := []
  acqs := []
  dsc := ⟨[], [], [], [], [], [], [], [], []⟩
  seqs := []
  gov := ⟨[], [], [], [], [], []⟩
  odrs := []
  evf := ⟨[], [], [], [], [], [], none⟩
  bias := []
  mram := []
  frn := ⟨[], 0, [], [], [], [], [], 0, 0, [], 0, [], [], [], false⟩
  trg := ⟨[], [], [], [], []⟩
  pwr := ⟨false, false, 0, none, [], false, none⟩
  ddr := ⟨true, [], [], [], [], 0, false, 0⟩
  lnk := []
  net := ⟨⟨0, false⟩, ⟨0, false⟩, [], 0, none, none, none, false, false⟩
  cal := ⟨[], [], [], 64, 0⟩
  rcv := ⟨[], [], [], none⟩
  hif := ⟨[], [], false, []⟩

/-- The module right after a cold reset, at the release of its reset (R571): the presets' check and the
end of the SRAM sweep are still to come. Log 2 (DESIGN CHOICE). -/
def State.reset : State := ⟨Blk.reset, ⟨[], []⟩, []⟩

end Sys2Proof.Machine
end

