-- ==== Sys2Proof/Machine/Ops.lean ====
section
/-!
DEFINITION. The named operations every meaning is written in: reading and writing register fields,
counters and sticky bits, time and follow-up commands, events, ownership, numbering, and the stores.
-/

namespace Sys2Proof.Machine

/-- What a command answers. -/
abbrev Res := Host.Outcome State Fault Refusal

/-- A command whose effect lies in the block alone: stores and queue are as before. Log 5 (DESIGN CHOICE). -/
def onBlk (f : Mem → Blk → Blk) (s : State) : Res :=
  .next { s with blk := f s.mem s.blk }

/-- A command that may write the stores too: the queue is as before. Log 5 (DESIGN CHOICE). -/
def onBoth (f : Mem → Blk → Blk × Mem) (s : State) : Res :=
  .next { s with blk := (f s.mem s.blk).1, mem := (f s.mem s.blk).2 }

/-! ### Register fields -/

/-- What a field's storage holds: as last written, or its reset value. -/
def Blk.get (b : Blk) (k : Key) : Nat :=
  match b.regs.find k with
  | some v => v
  | none => resetOf b.is32 k

/-- A field as software reads it (R11: as last written), below `2 ^ wid`. -/
def Blk.rd (b : Blk) (f : Fld) (i : Nat := 0) (j : Nat := 0) : Nat :=
  b.get (f.key i j) % 2 ^ f.wid

/-- A field as it is in force (R11): the old value while a write is pending. -/
def Blk.act (b : Blk) (f : Fld) (i : Nat := 0) (j : Nat := 0) : Nat :=
  match b.force.find (f.key i j) with
  | some v => v % 2 ^ f.wid
  | none => b.rd f i j

/-- A field set, masked to its width. -/
def Blk.wr (b : Blk) (f : Fld) (v : Nat) (i : Nat := 0) (j : Nat := 0) : Blk :=
  { b with regs := b.regs.set (f.key i j) (v % 2 ^ f.wid) }

/-- The value in force set by something other than a host write: a pending host write stays pending. -/
def Blk.put (b : Blk) (f : Fld) (v : Nat) (i : Nat := 0) (j : Nat := 0) : Blk :=
  match b.force.find (f.key i j) with
  | some _ => { b with force := b.force.set (f.key i j) (v % 2 ^ f.wid) }
  | none => b.wr f v i j

/-- A host write of a field that takes hold later: the field reads as written, the old value stays in
force (R10, R11). -/
def Blk.stage (b : Blk) (f : Fld) (v : Nat) (i : Nat := 0) (j : Nat := 0) : Blk :=
  { b with force := b.force.set (f.key i j) (b.act f i j),
           regs := b.regs.set (f.key i j) (v % 2 ^ f.wid) }

/-- A pending host write takes hold. -/
def Blk.commit (b : Blk) (k : Key) : Blk := { b with force := b.force.erase k }

/-- A one-bit field read as a truth value. -/
def Blk.on (b : Blk) (f : Fld) (i : Nat := 0) (j : Nat := 0) : Bool := b.rd f i j == 1

/-- The same for the value in force. -/
def Blk.actOn (b : Blk) (f : Fld) (i : Nat := 0) (j : Nat := 0) : Bool := b.act f i j == 1

/-- A signed field. -/
def Blk.rdS (b : Blk) (f : Fld) (i : Nat := 0) (j : Nat := 0) : Int := toS f.wid (b.rd f i j)

/-- The whole of one copy of a register, assembled from its fields. -/
def Blk.word (b : Blk) (r : Reg) (i : Nat := 0) (j : Nat := 0) : Nat :=
  r.fields.foldl (fun n x => n + b.rd x.fld i j * 2 ^ x.fld.lsb) 0

/-- Every storage entry whose register and indices satisfy `p` returned to its reset value. -/
def Blk.clearRegs (b : Blk) (p : Key → Bool) : Blk :=
  { b with regs := b.regs.filter (fun e => !p e.1), force := b.force.filter (fun e => !p e.1) }

/-! ### Time, follow-up commands, what leaves -/

/-- A command due `dt` ticks from now. -/
def Blk.sched (b : Blk) (dt : Nat) (c : Instr) : Blk :=
  { b with agenda := b.agenda ++ [(b.elapsed + dt, c)] }

/-- A command due at tick `t` of the module time counter (at once if that has passed). -/
def Blk.schedAt (b : Blk) (t : Nat) (c : Instr) : Blk := b.sched (t - b.now) c

/-- A command added for each index of a list. -/
def Blk.schedAll (b : Blk) (dt : Nat) (cs : List Instr) : Blk :=
  { b with agenda := b.agenda ++ cs.map (fun c => (b.elapsed + dt, c)) }

/-- Something leaves the module. -/
def Blk.emit (b : Blk) (o : Out) : Blk := { b with out := o :: b.out }

/-- An event source publishes (R420): the event fabric takes it as a command of its own. -/
def Blk.publish (b : Blk) (src detail : Nat) (birth : Nat) : Blk :=
  b.sched 0 (.eventPublish (Fin.ofNat 1024 src) birth detail 0)

/-- A fresh value the spec leaves open. Log 8 (DESIGN CHOICE). -/
def Blk.fresh (b : Blk) : Nat := Config.free b.freeCtr

/-- Log 8 (DESIGN CHOICE). -/
def Blk.spend (b : Blk) : Blk := { b with freeCtr := b.freeCtr + 1 }

/-- The first granule boundary at or after a tick (R14). -/
def granule (t : Nat) : Nat := alignUp t 4

/-! ### Numbering (R18 to R26) -/

/-- The region of a DAC port. -/
def portRegion (p : Nat) : Nat := if p < 32 then p / 4 else (p - 32) / 2

/-- The sequencer of a DAC port (R23). -/
def portSeq (p : Nat) : Nat :=
  if p < 32 then 8 * (p / 4) + p % 4 else 8 * ((p - 32) / 2) + 4 + (p - 32) % 2

/-- The sequencer of an acquisition port (R23). -/
def acqSeq (k : Nat) : Nat := 8 * (k / 2) + 6 + k % 2

/-- The three kinds of sequencer (R223). -/
inductive Kind where
  | drive | probe | acq
  deriving DecidableEq, Repr

def seqKind (q : Nat) : Kind :=
  if q % 8 < 4 then .drive else if q % 8 < 6 then .probe else .acq

/-- The DAC port of a drive or probe sequencer, the acquisition port of an acquisition sequencer. -/
def seqPort (q : Nat) : Nat :=
  if q % 8 < 4 then 4 * (q / 8) + q % 8
  else if q % 8 < 6 then 32 + 2 * (q / 8) + (q % 8 - 4)
  else 2 * (q / 8) + (q % 8 - 6)

/-- The tile of a region: 0 West, 1 East. -/
def regionTile (r : Nat) : Nat := r / 4

/-- The tile of a sequencer. -/
def seqTile (q : Nat) : Nat := q / 32

/-- The six DAC ports of a region. -/
def regionPorts (r : Nat) : List Nat :=
  [4 * r, 4 * r + 1, 4 * r + 2, 4 * r + 3, 32 + 2 * r, 33 + 2 * r]

/-- The eight sequencers of a region. -/
def regionSeqs (r : Nat) : List Nat := (List.range 8).map (fun i => 8 * r + i)

/-- The channel whose readout pair is slot `s` of acquisition port `k` (R25). -/
def chanOfSlot (b : Blk) (k s : Nat) : Nat :=
  let r := k / 2
  let idx := 32 * (k % 2) + s
  64 * r + ((List.range 64).find? (fun i => b.rd F.GLB_CHMAP_ACT_RD_IDX r i == idx)).getD idx

/-- The acquisition port and slot of a channel's readout pair (R25). -/
def slotOfChan (b : Blk) (q : Nat) : Nat × Nat :=
  let d := b.rd F.GLB_CHMAP_ACT_RD_IDX (q / 64) (q % 64)
  (2 * (q / 64) + d / 32, d % 32)

/-! ### Ownership (R451) -/

/-- The owner of resource `i` of R451. -/
def Blk.owner (b : Blk) (i : Nat) : Nat := b.rd ⟨.hifOwn, 4 * (i % 16), 4⟩ (i / 16)

/-- The resource that a sequencer belongs to: its port (R451). -/
def seqRes (q : Nat) : Nat :=
  match seqKind q with
  | .drive => seqPort q
  | .probe => seqPort q
  | .acq => 48 + seqPort q

/-- The function that owns a sequencer and its port. -/
def Blk.seqOwner (b : Blk) (q : Nat) : Nat := b.owner (seqRes q)

/-- The function that owns a channel: the owner of its acquisition port (R27). -/
def Blk.chanOwner (b : Blk) (q : Nat) : Nat := b.owner (48 + (slotOfChan b q).1)

/-! ### Units -/

def Entry.empty : Entry := ⟨.none, 0, [], false, [], 0, 0, 0, 0⟩

def SlotSt.reset : SlotSt := ⟨0, 0, 0, 0, false, none⟩

def PortSt.reset : PortSt where
  slots := []
  rampEnd := 0
  holdEnd := none
  busyEnd := none
  mute := none
  enSeen := false
  soft := none
  bbSeg := none
  rbuf := []
  streamLeft := 0
  streamEnd := 0
  streamZero := false
  dropBytes := 0
  muteAt := none
  blank := false
  hist := []
  energy := 0
  poisonGran := none
  glitch := none
  arrived := 0
  bad := []

def DemodSt.reset : DemodSt := ⟨[], [], ⟨0, 0, 0, 0, 0⟩, 0⟩

def AcqSt.reset : AcqSt := ⟨[], [], none, none, [], none, [], none, 0, none⟩

def SeqSt.reset : SeqSt where
  pc := 0
  loops := []
  calls := []
  fe := .run
  disp := 0
  build := Entry.empty
  next := none
  line := []
  lastEnd := none
  fresh := false
  afterWait := false
  brd := none
  req := none
  reqUntil := 0
  held := none
  pendStart := none
  restart := none
  halted := false
  stopAt := none
  stopEnd := 0
  waitSel := []
  satU := none
  fetchq := []
  rt := none
  latch := []
  trap := none
  trapDue := false
  shot := ⟨0, 0, 0, 256, false, false⟩
  ended := []
  enWait := false
  resume := none

def Blk.port (b : Blk) (p : Nat) : PortSt := b.ports.get PortSt.reset p
def Blk.setPort (b : Blk) (p : Nat) (x : PortSt) : Blk := { b with ports := b.ports.set p x }
def Blk.acq (b : Blk) (k : Nat) : AcqSt := b.acqs.get AcqSt.reset k
def Blk.setAcq (b : Blk) (k : Nat) (x : AcqSt) : Blk := { b with acqs := b.acqs.set k x }
def Blk.seq (b : Blk) (q : Nat) : SeqSt := b.seqs.get SeqSt.reset q
def Blk.setSeq (b : Blk) (q : Nat) (x : SeqSt) : Blk := { b with seqs := b.seqs.set q x }

def Blk.demod (b : Blk) (k s : Nat) : DemodSt := (b.acq k).slots.get DemodSt.reset s
def Blk.setDemod (b : Blk) (k s : Nat) (x : DemodSt) : Blk :=
  b.setAcq k { b.acq k with slots := (b.acq k).slots.set s x }

def Blk.slot (b : Blk) (p s : Nat) : SlotSt := (b.port p).slots.get SlotSt.reset s
def Blk.setSlot (b : Blk) (p s : Nat) (x : SlotSt) : Blk :=
  b.setPort p { b.port p with slots := (b.port p).slots.set s x }

/-- The number of tone slots of a DAC port. -/
def nSlots (p : Nat) : Nat := if p < 32 then 16 else 32

def OdrSt.reset : OdrSt where
  pc := 0
  calls := []
  iret := 0
  loads := []
  jump := none
  rep := none
  halt := false
  stall := 0
  timer := 0
  notices := []
  grp := []
  handq := []
  held := none
  wait := none
  tnowHi := 0

def Blk.odr (b : Blk) (n : Nat) : OdrSt := b.odrs.get OdrSt.reset n
def Blk.setOdr (b : Blk) (n : Nat) (x : OdrSt) : Blk := { b with odrs := b.odrs.set n x }

def RotSt.reset : RotSt := ⟨none, 0, 0, none, false, false, none⟩
def AdcCal.reset : AdcCal := ⟨none, false, false, 0, false, []⟩
def FmodCal.reset : FmodCal := ⟨none, 0, false⟩

def RegRcv.reset : RegRcv := ⟨none, [], false, false, false, false, false, false, []⟩

def Blk.regRcv (b : Blk) (r : Nat) : RegRcv := b.rcv.regs.get RegRcv.reset r
def Blk.setRegRcv (b : Blk) (r : Nat) (x : RegRcv) : Blk := { b with rcv := { b.rcv with regs := b.rcv.regs.set r x } }

/-- The island with bit `i` of ISL_BUSY recovers (R556). -/
def islBusy (b : Blk) (i : Nat) : Bool := bit (b.rd F.RCV_STATUS_ISL_BUSY) i

def Blk.rot (b : Blk) (r : Nat) : RotSt := b.cal.rot.get RotSt.reset r
def Blk.setRot (b : Blk) (r : Nat) (x : RotSt) : Blk := { b with cal := { b.cal with rot := b.cal.rot.set r x } }
def Blk.adcCal (b : Blk) (k : Nat) : AdcCal := b.cal.adc.get AdcCal.reset k
def Blk.setAdcCal (b : Blk) (k : Nat) (x : AdcCal) : Blk := { b with cal := { b.cal with adc := b.cal.adc.set k x } }
def Blk.fmodCal (b : Blk) (m : Nat) : FmodCal := b.cal.fmod.get FmodCal.reset m
def Blk.setFmodCal (b : Blk) (m : Nat) (x : FmodCal) : Blk :=
  { b with cal := { b.cal with fmod := b.cal.fmod.set m x } }

def Blk.setEvf (b : Blk) (x : EvfSt) : Blk := { b with evf := x }

/-- `n` events at counter input `sel` in this tick (R437). -/
def hit (b : Blk) (sel n : Nat) : Blk :=
  b.setEvf { b.evf with hits := b.evf.hits.set sel (b.evf.hits.get 0 sel + n) }

/-- Sequencer states of R204. -/
abbrev sDisabled : Nat := 0
abbrev sArmed : Nat := 1
abbrev sRunning : Nat := 2
abbrev sStopping : Nat := 3

def Blk.seqState (b : Blk) (q : Nat) : Nat := b.rd F.SEQ_STATUS_STATE q

/-- Every sequencer of the module is DISABLED. -/
def Blk.allDisabled (b : Blk) : Bool := (List.range 64).all (fun q => b.seqState q == sDisabled)

/-- A region is idle (R29): its sequencers are DISABLED, so every soft stop has completed. -/
def Blk.regionIdle (b : Blk) (r : Nat) : Bool :=
  (regionSeqs r).all (fun q => b.seqState q == sDisabled)

/-! ### Tallies (R321, R323) -/

def Tally.reset : Tally := ⟨0, [], 0, 0⟩

/-- Tally of level `x`, window `w` (0 short, 1 long) on a tile (0 for levels below 58). -/
def Blk.tally (b : Blk) (x w tile : Nat) : Tally := b.gov.tal.get Tally.reset (4 * x + 2 * w + tile)

def Blk.setTally (b : Blk) (x w tile : Nat) (t : Tally) : Blk :=
  { b with gov := { b.gov with tal := b.gov.tal.set (4 * x + 2 * w + tile) t } }

/-- What a tally holds: current bin, the 50 complete bins before it, and a carry of R322. -/
def tallyVal (b : Blk) (t : Tally) : Nat :=
  t.cur + t.bins.foldl (· + ·) 0 + (if b.elapsed < t.carryUntil then t.carry else 0)

/-- The tally of a level in units of 2⁻¹⁶ aJ, both tiles added at the module and stage levels. -/
def Blk.talOf (b : Blk) (x w : Nat) : Nat :=
  tallyVal b (b.tally x w 0) + (if x < 58 then 0 else tallyVal b (b.tally x w 1))

/-- Ceilings and budgets of a level by window. -/
def ceilOf (b : Blk) (x w : Nat) : Nat :=
  if w = 0 then b.rd F.GOV_CEILS_CEIL x else b.rd F.GOV_CEILL_CEIL x

def budOf (b : Blk) (x w : Nat) : Nat :=
  if w = 0 then b.rd F.GOV_BUDS_BUD x else b.rd F.GOV_BUDL_BUD x

/-- The shot in progress on a sequencer takes a taint cause (R15, R465). -/
def Blk.taint (b : Blk) (q cause : Nat) : Blk :=
  let s := b.seq q
  if s.shot.live then
    b.setSeq q { s with shot := { s.shot with taint := orW 10 s.shot.taint (2 ^ cause) } }
  else b

/-- Taint causes by the bits of R465. -/
abbrev tcVeto : Nat := 0
abbrev tcUnderrun : Nat := 1
abbrev tcPoison : Nat := 2
abbrev tcMiss : Nat := 3
abbrev tcForcedCal : Nat := 4
abbrev tcHoldCut : Nat := 5
abbrev tcLate : Nat := 6
abbrev tcDenied : Nat := 7
abbrev tcRegion : Nat := 8
abbrev tcMute : Nat := 9

/-! ### The stores (R448) -/

/-- A cell put into its place in a list with rising addresses. -/
def cellPut : List Host.Cell → Nat → Byte → List Host.Cell
  | [], a, v => [(a, v)]
  | (k, w) :: t, a, v =>
    if a < k then (a, v) :: (k, w) :: t
    else if a = k then (a, v) :: t
    else (k, w) :: cellPut t a v

/-- The byte at an address set: a zero byte is not listed. -/
def cellSet (l : List Host.Cell) (a : Nat) (v : Byte) : List Host.Cell :=
  if v = 0 then l.filter (fun c => !decide (c.1 = a)) else cellPut l a v

/-- The byte at an address; 0 where nothing is listed. Log 7 (DESIGN CHOICE). -/
def cellGet : List Host.Cell → Nat → Byte
  | [], _ => 0
  | (k, w) :: t, a => if a = k then w else cellGet t a

/-- Canonical form: addresses strictly rising from `lo`, no zero byte listed. -/
def cellsWf : Nat → List Host.Cell → Bool
  | _, [] => true
  | lo, (k, w) :: t => decide (lo ≤ k) && decide (w ≠ 0) && cellsWf (k + 1) t

/-- Log 7 (DESIGN CHOICE). -/
def Mem.byte (m : Mem) (a : Nat) : Byte := cellGet m.cells a

def Mem.setByte (m : Mem) (a : Nat) (v : Byte) : Mem := { m with cells := cellSet m.cells a v }

/-- `n` bytes from an address, in ascending order. -/
def Mem.bytes (m : Mem) (a : Nat) : Nat → List Byte
  | 0 => []
  | n + 1 => m.byte a :: m.bytes (a + 1) n

/-- Bytes written at ascending addresses. -/
def Mem.put (m : Mem) (a : Nat) : List Byte → Mem
  | [] => m
  | v :: vs => (m.setByte a v).put (a + 1) vs

/-- A little-endian number of `n` bytes. -/
def Mem.le (m : Mem) (a n : Nat) : Nat := leNat (m.bytes a n)

/-- A number in `lo ≤ x`, strictly rising. -/
def risingFrom : Nat → List Nat → Bool
  | _, [] => true
  | lo, k :: t => decide (lo ≤ k) && risingFrom (k + 1) t

def natInsert : List Nat → Nat → List Nat
  | [], a => [a]
  | k :: t, a => if a < k then a :: k :: t else if a = k then k :: t else k :: natInsert t a

/-- An 8-byte word of a store is marked poisoned (R480). -/
def Mem.poisoned (m : Mem) (a : Nat) : Bool := m.poison.contains (a / 8)

def Mem.setPoison (m : Mem) (a : Nat) : Mem := { m with poison := natInsert m.poison (a / 8) }

def Mem.clearPoison (m : Mem) (w : Nat) : Mem := { m with poison := m.poison.filter (fun x => x ≠ w) }

/-- Canonical form of the stores. -/
def Mem.wf (m : Mem) : Bool := cellsWf 0 m.cells && risingFrom 0 m.poison

/-- Everything in `[a, a + n)` cleared: the Moraine sweep of a range (R581). -/
def Mem.sweep (m : Mem) (a n : Nat) : Mem where
  cells := m.cells.filter (fun c => !(decide (a ≤ c.1) && decide (c.1 < a + n)))
  poison := m.poison.filter (fun w => !(decide (a ≤ 8 * w) && decide (8 * w < a + n)))

/-- Bases of the stores in BAR2 (R448). -/
def envBase (r : Nat) : Nat := 0x200000 * r
def kernBase (k : Nat) : Nat := 0x1000000 + 0x100000 * k
def pgmBase (q : Nat) : Nat := 0x2000000 + 0x8000 * q
def odrPmem (n : Nat) : Nat := 0x2200000 + 0x40000 * n
def odrDmem (n : Nat) : Nat := 0x3000000 + 0x100000 * n
def captBase : Nat := 0x4000000
def scratchBase : Nat := 0x6000000
def dramBase : Nat := 0x800000000

/-- The usable DRAM of the variant in bytes (R1). -/
def dramSize (is32 : Bool) : Nat := (if is32 then 32 else 8) * 2 ^ 30

end Sys2Proof.Machine
end

