-- ==== Sys2Proof/Machine/Flags.lean ====
section
/-!
DEFINITION. Sticky status bits and saturating or wrapping counters: the flag computations every
chapter shares (R7, R8 and the counters' own rows); and accesses to the stores as poison governs them
(R477, R480 to R482).
-/

namespace Sys2Proof.Machine

/-- A sticky bit set by the hardware. -/
def Blk.stick (b : Blk) (f : Fld) (i : Nat := 0) (j : Nat := 0) : Blk := b.wr f 1 i j

/-- A sticky bit set when `c` holds. -/
def Blk.stickIf (b : Blk) (c : Bool) (f : Fld) (i : Nat := 0) (j : Nat := 0) : Blk :=
  if c then b.stick f i j else b

/-- A counter that saturates at its largest value. -/
def Blk.inc (b : Blk) (f : Fld) (n : Nat := 1) (i : Nat := 0) (j : Nat := 0) : Blk :=
  b.wr f (satAdd f.wid (b.rd f i j) n) i j

/-- A counter that wraps. -/
def Blk.bump (b : Blk) (f : Fld) (i : Nat := 0) (j : Nat := 0) : Blk :=
  b.wr f (b.rd f i j + 1) i j

/-- What a write of `v` makes of a field under its access code (R7), from its present value. -/
def accWrite (a : Acc) (wid old v : Nat) : Nat :=
  match a with
  | .rw => v % 2 ^ wid
  | .ro => old
  | .wo => old
  | .w1c => andW wid old (2 ^ wid - 1 - v % 2 ^ wid)
  | .w1s => orW wid old v
  | .rc => old

/-! ### Stores and poison (R477, R480 to R482) -/

/-- Where the model marks the poisoned words of region `r`'s control store, which has no place in BAR2. -/
def ucsPoisonBase (r : Nat) : Nat := 0x1000000000000 + 0x10000 * r

/-- Store number of a byte, and the index of its 8-byte word within that store (R477, R484). -/
def storeOf (b : Blk) (a : Nat) : Nat × Nat :=
  if a < 0x1000000 then (a / 0x200000, a % 0x200000 / 8)
  else if a < 0x2000000 then (8 + (a - 0x1000000) / 0x100000, a % 0x100000 / 8)
  else if a < 0x2200000 then (0x40 + (a - 0x2000000) / 0x8000, a % 0x8000 / 8)
  else if a < 0x2600000 then (0x28 + (a - 0x2200000) / 0x40000, a % 0x40000 / 8)
  else if a < 0x4000000 then (0x18 + (a - 0x3000000) / 0x100000, a % 0x100000 / 8)
  else if a < 0x6000000 then (0x38, (a - 0x4000000) / 8)
  else if a < 0x800000000 then (0x39, (a - 0x6000000) / 8)
  else if a < 0x1000000000000 then
    let x := a - 0x800000000
    let c := if b.is32 then 8 else 4
    (0xC0 + x / 256 % c, (x / 256 / c * 256 + x % 256) / 8)
  else (0x80 + (a - 0x1000000000000) / 0x10000, a % 0x10000 / 8)

/-- A read of a poisoned word is counted (R480). Log 25 (DESIGN CHOICE). -/
def poisonRead (b : Blk) (a : Nat) : Blk := b.inc F.MEM_ECC_POISON_COUNT 1 (storeOf b a).1

/-- `n` bytes read out of a store: those of a poisoned word are free (R480), and each such word read is
counted. Log 48 (DESIGN CHOICE). -/
def outBytes (b : Blk) (m : Mem) (a n : Nat) : List Byte × Blk :=
  if m.poison.isEmpty then (m.bytes a n, b)
  else
    let c := b.freeCtr
    let l := (List.range n).map (fun i =>
      if m.poisoned (a + i) then BitVec.ofNat 8 (Config.free (c + i)) else m.byte (a + i))
    let ws := (List.range ((a + n + 7) / 8 - a / 8)).filter (fun i => m.poison.contains (a / 8 + i))
    (l, ws.foldl (fun b i => poisonRead b (8 * (a / 8 + i))) { b with freeCtr := c + n })

/-- Bytes written under poison (R482): a word wholly covered is replaced, a part of a poisoned word is
dropped and counted. -/
def storeWrite (b : Blk) (m : Mem) (a : Nat) (bs : List Byte) : Blk × Mem :=
  (List.range ((a + bs.length - 1) / 8 + 1 - a / 8)).foldl (fun s k =>
    let w := a / 8 + k
    let lo := max a (8 * w)
    let hi := min (a + bs.length) (8 * w + 8)
    let part := (bs.drop (lo - a)).take (hi - lo)
    if hi - lo = 8 then (s.1, (s.2.clearPoison w).put lo part)
    else if s.2.poisoned lo then (poisonRead s.1 lo, s.2)
    else (s.1, s.2.put lo part)) (b, m)

end Sys2Proof.Machine
end

