-- ==== Sys2Proof/Machine/Synth.lean ====
section
/-!
DEFINITION. Tone synthesis: the quarter-wave table, phase accumulators, envelopes, the slot product,
the port sum and the DAC word (R85 to R104, R130 to R133), and the four-quadrant arctangent of R632.
-/

namespace Sys2Proof.Machine

/-! ### Table of R89 -/

/-- π × 2⁸⁰, rounded down. -/
def piFix : Nat := 3797952473636338580787993

/-- `n` further terms of the sine series at scale 2⁸⁰: last term `t`, sum `s`, square `x2`. -/
def sinSeries : Nat → Nat → Int → Int → Int → Int
  | 0, _, _, _, s => s
  | n + 1, i, x2, t, s =>
    let t' := -(t * x2 / 2 ^ 80) / ((2 * i) * (2 * i + 1))
    sinSeries n (i + 1) x2 t' (s + t')

/-- sin x at scale 2⁸⁰ for 0 ≤ x ≤ π/2 at the same scale. -/
def sinFix (x : Nat) : Int := sinSeries 16 1 ((x : Int) * x / 2 ^ 80) x x

/-- T[k] = round(131,071 × sin(π k / 8,192)), k = 0 to 4,096 (R89). -/
def sinTab (k : Nat) : Int := rndShift (131071 * sinFix (piFix * k / 8192)) 80

/-- S(v) of R89. -/
def quarterSine (v : Nat) : Int :=
  let t := sinTab (v / 1024)
  if v % 1024 = 0 then t
  else t + (((v % 1024 : Nat) : Int) * (sinTab (v / 1024 + 1) - t) + 512) / 1024

/-- sin P of R89, for a 32-bit phase. -/
def sinP (p : Nat) : Int :=
  let u := field p 8 22
  match field p 30 2 with
  | 0 => quarterSine u
  | 1 => quarterSine (2 ^ 22 - u)
  | 2 => - quarterSine u
  | _ => - quarterSine (2 ^ 22 - u)

/-- cos P is sin(P + 0x4000_0000). -/
def cosP (p : Nat) : Int := sinP ((p + 2 ^ 30) % 2 ^ 32)

/-- Is the angle of (x, y), x, y ≥ 0, at least (m + 1/2) units of 1/65,536 turn? -/
def angleGe (y x : Nat) (m : Nat) : Bool :=
  let h := piFix * (2 * m + 1) / 65536
  let s := sinFix h
  let c := sinFix (piFix / 2 - h)
  decide ((x : Int) * s ≤ (y : Int) * c)

/-- Binary search for the number of half-unit boundaries at or below the angle, in `[lo, lo + 2^n)`. -/
def angleSearch (y x : Nat) : Nat → Nat → Nat
  | 0, lo => if angleGe y x lo then lo + 1 else lo
  | n + 1, lo => if angleGe y x (lo + 2 ^ n - 1) then angleSearch y x n (lo + 2 ^ n) else angleSearch y x n lo

/-- The angle of a point of the first quadrant in units of 1/65,536 turn, rounded to nearest. -/
def atanQuad (y x : Nat) : Nat :=
  if y = 0 then 0 else if x = 0 then 16384 else min (angleSearch y x 14 0) 16384

/-- atan2_turns16 of R632. -/
def atan2Turns (y x : Int) : Nat :=
  (if 0 ≤ x ∧ 0 ≤ y then atanQuad y.toNat x.toNat
   else if x < 0 ∧ 0 ≤ y then 32768 - atanQuad y.toNat (-x).toNat
   else if x < 0 then 32768 + atanQuad (-y).toNat (-x).toNat
   else 65536 - atanQuad (-y).toNat x.toNat) % 65536

/-! ### Phase (R85 to R88) -/

/-- ACC for baseband sample j of the present tick (R86): from the counter under COH, from the slot's
base under CONT. -/
def accOf (b : Blk) (p s j : Nat) : Nat :=
  let ftw := b.act F.DRV_SFREQ_FTW p s
  if b.act F.DRV_SCTRL_PMODE p s = 1 then ftw * (4 * b.now + j) % 2 ^ 48
  else
    let x := b.slot p s
    (x.accBase + ftw * (4 * (b.elapsed - x.accTick) + j)) % 2 ^ 48

/-- The slot's base set so that ACC = `v` for j = 0 of the present tick. -/
def setAcc (b : Blk) (p s v : Nat) : Blk :=
  b.setSlot p s { b.slot p s with accBase := v % 2 ^ 48, accTick := b.elapsed }

/-- FTW in force becomes `v`: under CONT the accumulator stays continuous (R86), the first sample of
the tick adding the new word to the last sample's value. -/
def takeFtw (b : Blk) (p s v : Nat) : Blk :=
  let old := b.act F.DRV_SFREQ_FTW p s
  let a := accOf b p s 0
  (setAcc b p s (a + (2 ^ 48 - old) + v)).put F.DRV_SFREQ_FTW v p s

/-- PMODE in force becomes `v`: CONT goes on from the value reached. -/
def takePmode (b : Blk) (p s v : Nat) : Blk :=
  (setAcc b p s (accOf b p s 0)).put F.DRV_SCTRL_PMODE v p s

/-- PHRST (R87): ACC = 0 for j = 0 of this tick. -/
def phaseReset (b : Blk) (p s : Nat) : Blk := setAcc b p s 0

/-- The phase P of R88. -/
def phaseOf (b : Blk) (p s j : Nat) : Nat :=
  (accOf b p s j / 2 ^ 16 + b.act F.DRV_SPHASE_POFF p s) % 2 ^ 32

/-! ### Envelopes (R90 to R94, R130 to R133) -/

/-- The address of envelope byte offset `o` of region `r`: offsets wrap in the 2 MiB store (R90). -/
def envAddr (r o : Nat) : Nat := envBase r + o % 0x200000

/-- An envelope word as (I, Q), zero where it reads as poisoned (R94). -/
def envWord (m : Mem) (r o : Nat) : Int × Int :=
  let w := m.le (envAddr r o) 4
  if m.poisoned (envAddr r o) then (0, 0) else (toS 16 w, toS 16 (w / 2 ^ 16))

/-- The sample index of a FLATTOP segment's ramp image for sample `x` (R131), with `S` granules and
`spg` samples per granule; after an early stop at granule `g` (R133) `none` is silence. -/
def flatIdx (ramp S spg x : Nat) (g : Option Nat) : Option Nat :=
  let u := min ramp (S / 2)
  let plain := if u = 0 then 0
    else if x < u * spg then x
    else if x < (S - u) * spg then u * spg - 1
    else S * spg - 1 - x
  match g with
  | none => some plain
  | some gi =>
    if x < gi * spg ∨ S - u ≤ gi then some plain
    else
      let j := if gi < u then gi else u
      let y := x - gi * spg
      if y < j * spg then some (j * spg - 1 - y) else none

/-- Byte offset in the envelope store of the segment's sample `x`, `none` where the envelope is zero. -/
def segOffset (g : SegSlot) (x : Nat) : Option Nat :=
  let spg := if g.fine then 16 else 4
  if g.flat then
    (flatIdx g.ramp (g.len / 4) spg x (g.stop.map (fun t => (t - g.start) / 4))).map (fun i => g.addr + 4 * i)
  else some (g.addr + 4 * x)

/-- Does the segment sound at tick `t`? -/
def SegSlot.active (g : SegSlot) (t : Nat) : Bool := decide (g.start ≤ t) && decide (t < g.start + g.len)

/-- The envelope samples a slot reads in tick `t`: one at normal rate, four at fine rate. -/
def envSamples (m : Mem) (r : Nat) (g : SegSlot) (t : Nat) : List (Int × Int) :=
  let n := if g.fine then 4 else 1
  let base := (t - g.start) * n
  (List.range n).map (fun i =>
    match segOffset g (base + i) with
    | some o => envWord m r o
    | none => (0, 0))

/-- Does the slot read a poisoned word in the granule of tick `t`? Log 25 (DESIGN CHOICE). -/
def granPoison (m : Mem) (r : Nat) (g : SegSlot) (t : Nat) : Bool :=
  let n := if g.fine then 16 else 4
  let base := (t - g.start) / 4 * n
  (List.range n).any (fun i =>
    match segOffset g (base + i) with
    | some o => m.poisoned (envAddr r o)
    | none => false)

/-- The four baseband envelope values of a normal-rate tick (R92), from e_p to e. -/
def interp (e0 e1 : Int) : List Int :=
  (List.range 4).map (fun (j : Nat) => rndDiv (4 * e0 + ((j : Int) + 1) * (e1 - e0)) 4)

/-! ### Slot and port (R95 to R104) -/

/-- One slot's four baseband samples in a tick, in units of 2⁻¹⁷, with soft-stop factor `k8` eighths. -/
def slotOut (b : Blk) (p s : Nat) (env : List (Int × Int)) (k8 : Nat) : List (Int × Int) :=
  let a : Int := b.act F.DRV_SAMP_ASCL p s
  env.zipIdx.map (fun (e, j) =>
    let ph := phaseOf b p s j
    let c := cosP ph
    let n := sinP ph
    (rndShift (a * (e.1 * c - e.2 * n) * k8) 34, rndShift (a * (e.1 * n + e.2 * c) * k8) 34))

/-- The port sum scaled by G = PSCALE / 4,096 (R96) and by the governor's GG / 256 (R330). -/
def scaleSum (pscale gg : Nat) (x : Int) : Int := rndShift (x * pscale * gg) 20

/-- D of R97 before the clamp, BASEBAND (R103): the port gain applied to a 16-bit sample. -/
def bbWord (pscale gg : Nat) (x : Int) : Int := rndShift (32767 * x * pscale * gg) 35

/-- The clamp of R97. -/
def dacClamp (d : Int) : Int := clampI (-32767) 32767 d

/-- The mute gain g(k) = (1 − cos(π k / 800)) / 2 = sin²(π k / 1,600) at scale 2⁶⁰, k = 0 to 800 (R113).
Log 40 (DESIGN CHOICE). -/
def muteGain (k : Nat) : Nat :=
  let s := (sinFix (piFix * k / 1600)).toNat
  (s * s + 2 ^ 99) / 2 ^ 100

/-- A DAC word after the mute gain of ramp tick `k` (R113): the exact product where it is whole, else one of
its two neighbours, which of them being open. Log 40 (DESIGN CHOICE). -/
def mutedWord (k : Nat) (d : Int) : Int :=
  let x := d * muteGain k
  if x % 2 ^ 60 = 0 then x / 2 ^ 60
  else x / 2 ^ 60 + (if Config.muteRound k d = 1 then 1 else 0)

/-! ### Power (R319, R327) -/

/-- 10^(j/40) × 2¹²⁸, rounded down, j = 0 to 39. -/
def root10a : List Nat :=
  [340282366920938463463374607431768211456, 360445364773149127229337289808714240256,
   381803095358844947590808146154431702289, 404426351043076165135075684239512725242,
   428390118902236357715399458008612005261, 453773829276335576613621156642628336772,
   480661619048921567303396436182414082852, 509142610527317086926797626439538827299,
   539311206847550161157777344718058257007, 571267404883126894522008025024246453955,
   605117126694814710382135881913690764950, 640972570620059957097090568963337088034,
   678952583165761377671166087135686483388, 719183052937075773993437025497729230988,
   761797327907972861323655792919874130851, 806936657416624904700701050998355820474,
   854750660350669702495489405608583046340, 905397821074194474848051200161246414800,
   959046014740240963431826422565241387114, 1015873063730033340592556820311988199424]

def root10b : List Nat :=
  [1076067327063303206878105757264492625226, 1139828324733372002628431372965747489186,
   1207367399036412811321915586336624476582, 1278908415086934493516503906802723973541,
   1354688502841417800098861480622946089979, 1434958843089616094840601982572691114402,
   1519985500018768601708681050361827469778, 1610050303110344736377652664603740922238,
   1705451781292455761107146630540959762307, 1806506152444276713519084718445206318980,
   1913548371532291414054761096044291016566, 2026933240852514483459307270936169723539,
   2147036586058700863912725458676901527178, 2274256501874607667865124605113900717650,
   2409014671619348040441761276449306010915, 2551757764919537704075887227501646888792,
   2702958918241092911455791304754747602672, 2863119303148052670613150810459371546511,
   3032769787486578228995504414215181648764, 3212472695000292731877546018972922339613]

/-- P_FS in mW × 2¹²⁸ × 10⁵ for full-scale code `fs` and attenuation `att` (R107, R319):
10^((−40 + fs − 2 att) / 40). -/
def pfsFix (fs att : Nat) : Nat :=
  let k := 160 + fs - 2 * att     -- quarter-dB steps above −50 dBm
  ((root10a ++ root10b).getD (k % 40) 0) * 10 ^ (k / 40)

end Sys2Proof.Machine
end

