-- ==== Sys2Proof/Machine/Drv.lean ====
section
/-!
DEFINITION. DAC ports: output states, levels, mode switching, the samples of a tick, early tone stops
and stream underruns (R84 to R134, R162, R228).
-/

namespace Sys2Proof.Machine

/-- Output states of R111. -/
abbrev oMuted : Nat := 0
abbrev oRampUp : Nat := 1
abbrev oOn : Nat := 2
abbrev oRampDown : Nat := 3
abbrev oHold : Nat := 4
abbrev oHard : Nat := 5

def Blk.ostate (b : Blk) (p : Nat) : Nat := b.rd F.DRV_STATUS_OSTATE p
def Blk.setOstate (b : Blk) (p x : Nat) : Blk := b.wr F.DRV_STATUS_OSTATE x p

/-- The staged level equals the level in force (R108). -/
def levelSame (b : Blk) (p : Nat) : Bool :=
  b.act F.DRV_LEVEL_FSCODE p == b.rd F.DRV_LEVEL_ACT_FSCODE p &&
  b.act F.DRV_LEVEL_ATT p == b.rd F.DRV_LEVEL_ACT_ATT p

/-- The output stage takes the staged level (R108). -/
def takeLevel (b : Blk) (p : Nat) : Blk :=
  ((b.wr F.DRV_LEVEL_ACT_FSCODE (b.act F.DRV_LEVEL_FSCODE p) p).wr
    F.DRV_LEVEL_ACT_ATT (b.act F.DRV_LEVEL_ATT p) p).wr F.DRV_STATUS_LEVEL_PEND 0 p

/-- HOLD of `h` ticks from now (R110). -/
def holdFor (b : Blk) (p h : Nat) : Blk :=
  let b := (b.setOstate p oHold).setPort p { b.port p with holdEnd := some (b.now + h) }
  b.sched h (.holdEnd (Fin.ofNat 48 p))

/-- HOLD length of a level change: 160 ticks when FSCODE changes, 120 otherwise (R110). -/
def holdLen (b : Blk) (p : Nat) : Nat :=
  if b.act F.DRV_LEVEL_FSCODE p = b.rd F.DRV_LEVEL_ACT_FSCODE p then 120 else 160

/-- A port enters HARD_MUTE for a cause (R115): the ramp or hold ends; a level change under
way completes. Log 42 (DEDUCED). -/
def hardMute (b : Blk) (p : Nat) (c : MuteCause) : Blk :=
  let b := if b.on F.DRV_STATUS_LEVEL_PEND p then takeLevel b p else b
  (b.setOstate p oHard).setPort p
    { b.port p with mute := some c, enSeen := false, holdEnd := none }

/-- A port enters HARD_MUTE at the next granule boundary (R115). -/
def muteNext (b : Blk) (p : Nat) (c : MuteCause) : Blk :=
  b.setPort p { b.port p with muteAt := some (b.now / 4 * 4 + 4, c) }

/-- The mutes whose boundary has come. -/
def muteDue (b : Blk) (p : Nat) : Blk :=
  match (b.port p).muteAt with
  | some (t, c) => if t ≤ b.now then
      let b := hardMute b p c
      b.setPort p { b.port p with muteAt := none } else b
  | none => b

def hardMuteAll (b : Blk) (c : MuteCause) : Blk := (List.range 48).foldl (fun b p => hardMute b p c) b

/-- A port leaves HARD_MUTE to MUTED, and a staged level is adopted there (R108, R115). -/
def unmute (b : Blk) (p : Nat) : Blk :=
  let b := (b.setOstate p oMuted).setPort p { b.port p with mute := none, enSeen := false }
  if b.on F.DRV_STATUS_LEVEL_PEND p then takeLevel b p else b

/-- Every level that counts a port (R323). -/
def portLevels (b : Blk) (p : Nat) : List Nat :=
  [p, 48 + portRegion p, 56 + regionTile (portRegion p), 58, 59 + b.act F.GOV_LCFG_STAGE p]

/-- Both tallies of every level that counts the port lie below 7/8 of their ceilings (R334). -/
def tallyLow (b : Blk) (p : Nat) : Bool :=
  (portLevels b p).all (fun x =>
    (List.range 2).all (fun w => decide (8 * b.talOf x w < 7 * (ceilOf b x w * 65536))))

/-- RAMP_UP or RAMP_DOWN begins from the gain reached (R113): `k` ramp ticks remain to run. -/
def rampStart (b : Blk) (p st k : Nat) : Blk :=
  let b := (b.setOstate p st).setPort p { b.port p with rampEnd := b.now + k }
  b.sched k (.rampEnd (Fin.ofNat 48 p))

/-- The mute gain's ramp tick at present: 0 muted, 800 full (R113). -/
def gainTick (b : Blk) (p : Nat) : Nat :=
  let x := b.port p
  match b.ostate p with
  | 1 => 800 - min 800 (x.rampEnd - b.now)
  | 2 => 800
  | 3 => min 800 (x.rampEnd - b.now)
  | _ => 0

/-- PORT_EN_SET: EN takes hold as 1 at a granule boundary (R112, R113, R115, R334, R582). -/
def portEnSet (p : Nat) (b : Blk) : Blk :=
  if !b.actOn F.DRV_CTRL_EN p then b
  else if b.rd F.GLB_LC_STATE = 3 then b      -- SERVICE: port EN has no effect
  else if !b.on F.TIM_STATUS_SCLK_LOCK then b -- RAMP_UP starts at the first boundary after lock
  else match b.ostate p with
    | 0 => rampStart b p oRampUp 800
    | 3 => rampStart b p oRampUp (800 - gainTick b p)
    | 5 =>
      if (b.port p).enSeen then
        match (b.port p).mute with
        | some .gov => if tallyLow b p then rampStart (unmute b p) p oRampUp 800
                       else b.sched 4 (.muteRampRelease (Fin.ofNat 48 p))
        | some .region => b
        | some .safe => b
        | some .sclk => b
        | _ => rampStart (unmute b p) p oRampUp 800
      else b
    | _ => b

/-- PORT_EN_CLEAR: EN takes hold as 0 (R113). -/
def portEnClear (p : Nat) (b : Blk) : Blk :=
  if b.actOn F.DRV_CTRL_EN p then b
  else match b.ostate p with
    | 1 => rampStart b p oRampDown (gainTick b p)
    | 2 => rampStart b p oRampDown 800
    | 4 =>
      let b := (b.setOstate p oMuted).setPort p { b.port p with holdEnd := none }
      if b.on F.DRV_STATUS_LEVEL_PEND p then takeLevel b p else b
    | 5 => b.setPort p { b.port p with enSeen := true }
    | _ => b

/-- RAMP_END: the ramp's last tick is reached and the port enters ON or MUTED (R113); a level staged
during the ramp is looked at again at the next granule boundary (R108). -/
def rampEnd (p : Nat) (b : Blk) : Blk :=
  if (b.port p).rampEnd ≤ b.now then
    match b.ostate p with
    | 1 => (b.setOstate p oOn).schedAt (granule b.now) (.levelStage (Fin.ofNat 48 p))
    | 3 => (b.setOstate p oMuted).schedAt (granule b.now) (.levelStage (Fin.ofNat 48 p))
    | _ => b
  else b

/-- The port's DAC words: does a committed segment sound, a tail run or a stream supply data in the
eight ticks from now (R109)?  A vetoed segment counts as silence. Log 38 (DEDUCED). -/
def portSilent (b : Blk) (p : Nat) : Bool :=
  let q := b.seq (portSeq p)
  let x := b.port p
  let seg := q.line.any (fun c => c.e.kind == .seg && !c.veto && decide (c.start < b.now + 8) &&
    (match c.stop with | some e => decide (b.now < e) | none => true))
  let tail := x.slots.any (fun e => decide (e.2.eI ≠ 0) || decide (e.2.eQ ≠ 0))
  !seg && !tail

/-- LEVEL_STAGE: a DRV_LEVEL write takes hold in the stage at a granule boundary (R108). Log 42 (DEDUCED). -/
def levelStage (p : Nat) (b : Blk) : Blk :=
  if levelSame b p then b.wr F.DRV_STATUS_LEVEL_PEND 0 p
  else if b.ostate p = oMuted ∨ b.ostate p = oHard then takeLevel b p
  else b.wr F.DRV_STATUS_LEVEL_PEND 1 p

/-- LEVEL_ADOPT: the port is ON, a level is staged and two granules of silence are committed: the
level is adopted in HOLD (R108 to R110). -/
def levelAdopt (p : Nat) (b : Blk) : Blk :=
  if b.on F.DRV_STATUS_LEVEL_PEND p && b.ostate p == oOn && b.now % 4 == 0 && portSilent b p then
    holdFor (takeLevel b p) p (holdLen b p)
  else b

/-- HOLD_END: the hold ends; a level staged meanwhile is adopted with a second HOLD (R108, R110). -/
def holdEnd (p : Nat) (b : Blk) : Blk :=
  if b.ostate p = oHold then
    if b.on F.DRV_STATUS_LEVEL_PEND p && !levelSame b p then holdFor (takeLevel b p) p (holdLen b p)
    else ((b.setOstate p oOn).setPort p { b.port p with holdEnd := none }).wr F.DRV_STATUS_LEVEL_PEND 0 p
  else b

/-- DRV_MODE_WRITE: a write of MODE reaches the converter island (R102, R129): refused while the
sequencer is enabled; otherwise MODE_ACT takes it and the path switches within 160 ticks. -/
def drvModeWrite (p v : Nat) (b : Blk) : Blk :=
  if v = 3 ∨ (v = 2 ∧ 32 ≤ p) then b
  else if v = b.rd F.DRV_CTRL_MODE p then b
  else if b.seqState (portSeq p) ≠ sDisabled then b.stick F.DRV_STATUS_MODE_REFUSED p
  else
    let b := ((b.wr F.DRV_CTRL_MODE v p).wr F.DRV_STATUS_MODE_ACT v p).wr F.DRV_STATUS_MODE_BUSY 1 p
    let b := b.setPort p { b.port p with busyEnd := some (b.now + 160) }
    let b := b.sched 160 (.modeSwitchDone (Fin.ofNat 48 p))
    if b.ostate p = oOn then holdFor b p 160 else b

/-- MODE_SWITCH_DONE: the output stage has switched its coupling (R102). -/
def modeSwitchDone (p : Nat) (b : Blk) : Blk :=
  match (b.port p).busyEnd with
  | some t => if t ≤ b.now then
      (b.wr F.DRV_STATUS_MODE_BUSY 0 p).setPort p { b.port p with busyEnd := none } else b
  | none => b

/-- PHRST (R87). -/
def phrst (p s : Nat) (b : Blk) : Blk := if s < nSlots p then phaseReset b p s else b

/-! ### The samples of a tick -/

/-- Soft-stop factor in eighths at the present tick (R229): 8 with no stop, 0 from G + 8. -/
def softFactor (b : Blk) (p : Nat) : Nat :=
  match (b.port p).soft with
  | some g => if b.now < g then 8 else 8 - min 8 (b.now - g)
  | none => 8

/-- One slot in one tick: its four baseband samples, its new state, whether it read poison. -/
def slotTick (m : Mem) (b : Blk) (p s : Nat) (streamed : List (Int × Int)) :
    List (Int × Int) × SlotSt × Bool :=
  let x := b.slot p s
  let k8 := softFactor b p
  match x.seg with
  | some g =>
    if g.active b.now then
      let pz := !g.stream && granPoison m (portRegion p) g b.now
      let ss := if g.stream then streamed else envSamples m (portRegion p) g b.now
      let ss := if pz then ss.map (fun _ => (0, 0)) else ss
      if g.fine then
        let l := ss.getLastD (0, 0)
        (slotOut b p s ss k8, { x with eI := l.1, eQ := l.2, fineLast := true }, pz)
      else
        let e := ss.headD (0, 0)
        (slotOut b p s ((interp x.eI e.1).zip (interp x.eQ e.2)) k8,
          { x with eI := e.1, eQ := e.2, fineLast := false }, pz)
    else if x.fineLast then ([], { x with eI := 0, eQ := 0, fineLast := false }, false)
    else if x.eI = 0 ∧ x.eQ = 0 then ([], x, false)
    else (slotOut b p s ((interp x.eI 0).zip (interp x.eQ 0)) k8, { x with eI := 0, eQ := 0 }, false)
  | none =>
    if x.fineLast then ([], { x with eI := 0, eQ := 0, fineLast := false }, false)
    else if x.eI = 0 ∧ x.eQ = 0 then ([], x, false)
    else (slotOut b p s ((interp x.eI 0).zip (interp x.eQ 0)) k8, { x with eI := 0, eQ := 0 }, false)

/-- Sum of two lists of samples, the shorter one continued with zeros. -/
def addSamples : List (Int × Int) → List (Int × Int) → List (Int × Int)
  | [], y => y
  | x, [] => x
  | (a, c) :: x, (d, e) :: y => (a + d, c + e) :: addSamples x y

/-- All slots of a port in one tick: the sum of their outputs, the port with its slots advanced,
whether any read poison. -/
def slotsTick (m : Mem) (b : Blk) (p : Nat) (streamed : List (Int × Int)) :
    List (Int × Int) × PortSt × Bool :=
  (b.port p).slots.foldl (fun acc e =>
    let r := slotTick m b p e.1 streamed
    (addSamples acc.1 r.1, { acc.2.1 with slots := acc.2.1.slots.set e.1 r.2.1 }, acc.2.2 || r.2.2))
    ([], b.port p, false)

/-- Bytes a stream mode takes per tick (R118). -/
def smodeBytes (m : Nat) : Nat :=
  match m with
  | 1 => 4 | 2 => 16 | 3 => 16 | 4 => 32 | _ => 0

/-- 32-bit I/Q words of a list of bytes. -/
def iqWords : List Byte → List (Int × Int)
  | a :: c :: d :: e :: t =>
    (toS 16 (a.toNat + 256 * c.toNat), toS 16 (d.toNat + 256 * e.toNat)) :: iqWords t
  | _ => []

/-- 16-bit signed samples of a list of bytes. -/
def realWords : List Byte → List Int
  | a :: c :: t => toS 16 (a.toNat + 256 * c.toNat) :: realWords t
  | _ => []

/-- The sixteen DAC words of a tick before clamp and mute, with the port's state after it. Log 39 (DESIGN CHOICE). -/
def portWords (m : Mem) (b : Blk) (p gg : Nat) : List Int × PortSt × Bool :=
  let smode := b.act F.DRV_STREAM_SMODE p
  let x := b.port p
  let n := if b.on F.DRV_STATUS_STREAM_ACT p then smodeBytes smode else 0
  let data := if x.blank || x.streamZero || x.poisonGran == some (b.now / 4) then List.replicate n (0 : Byte) else x.rbuf.take n
  let x1 := { x with rbuf := if x.blank then x.rbuf else x.rbuf.drop n,
                     streamLeft := if x.blank then x.streamLeft else x.streamLeft - n }
  let b1 := b.setPort p x1
  let g := b.act F.DRV_PSCALE_PSCALE p
  let k8 := softFactor b p
  if b.rd F.DRV_STATUS_MODE_ACT p = 2 then
    let stored : List Int := match x.bbSeg with
      | some s => if s.active b.now then
          let r := portRegion p
          let o := s.addr + 32 * (b.now - s.start)
          (List.range 16).map (fun i =>
            if m.poisoned (envAddr r (o + 2 * i)) then 0 else toS 16 (m.le (envAddr r (o + 2 * i)) 2))
        else []
      | none => []
    let src := if n = 0 then stored else realWords data
    let src := src.map (fun v => rndShift (v * k8) 3)
    (src.map (bbWord g gg), x1, false)
  else
    let r := slotsTick m b1 p (iqWords data)
    let sum := if smode = 3 ∧ n ≠ 0 then
        (iqWords data).map (fun v => (4 * rndShift (v.1 * k8) 3, 4 * rndShift (v.2 * k8) 3))
      else r.1
    let scaled := sum.map (fun v => (scaleSum g gg v.1, scaleSum g gg v.2))
    let quiet := scaled.isEmpty && (r.2.1.hist.all (fun v => v == (0, 0)))
    if quiet then ([], { r.2.1 with hist := [] }, r.2.2)
    else
      let four := if scaled.isEmpty then List.replicate 4 ((0, 0) : Int × Int) else scaled
      let hist := (four.reverse ++ r.2.1.hist).take 64
      let cnco := b.act F.DRV_CNCO_CNCO p
      ((List.range 16).map (fun i => Config.upconvert hist (cnco * (16 * b.now + i) % 2 ^ 32)),
        { r.2.1 with hist := hist }, r.2.2)

/-- Bytes of the playing stream's next granule, and those of them that are in the refill buffer. -/
def streamNeed (b : Blk) (p : Nat) : Nat := 4 * smodeBytes (b.act F.DRV_STREAM_SMODE p)

def streamHave (b : Blk) (p : Nat) : Nat := min (b.port p).rbuf.length (b.port p).streamLeft

/-- The granule that begins now belongs to the stream and is an underrun (R120, R227). Log 43 (DEDUCED). -/
def underruns (b : Blk) (p : Nat) : Bool :=
  b.on F.DRV_STATUS_STREAM_ACT p && decide (b.now < (b.port p).streamEnd) &&
    decide (streamHave b p < streamNeed b p)

/-- An abandonment is counted (R256, R265): restarted or dropped, with its cause code. -/
def abandoned (b : Blk) (q : Nat) (dropped : Bool) (cause : Nat) : Blk :=
  let b := if dropped then b.inc F.UCS_SCNT_DROPS 1 (q / 8) (q % 8) else b.inc F.UCS_SCNT_RESTARTS 1 (q / 8) (q % 8)
  b.wr F.UCS_SCNT_LAST_CAUSE cause (q / 8) (q % 8)

/-- A routine as it is at its entry (R239). -/
def Rt.fresh (r : Rt) (pc : Nat) : Rt :=
  { r with upc := r.entry, u := [], npc := (pc + 1) % 4096, reads := [],
           cbuf := [], committed := false, closed := false, brd := none }

/-- The trap of a sequencer takes the phase of the present tick (R258): a routine that has not committed
restarts, a dispatch due now moves one tick, a committed routine is followed by the trap. -/
def trapNow (b : Blk) (q cause : Nat) : Blk :=
  let b := b.inc F.UCS_SCNT_TRAPS 1 (q / 8) (q % 8)
  let s := b.seq q
  let s := { s with trap := some b.now }
  match s.rt with
  | some r =>
    if r.committed then b.setSeq q { s with trapDue := true }
    else (abandoned b q false cause).setSeq q { s with disp := b.now, build := r.mark, rt := some (r.fresh s.pc) }
  | none =>
    if s.fe = .run then
      let b := if s.disp + 1 < b.now then abandoned b q false cause else b
      b.setSeq q { s with disp := if s.disp = b.now then b.now + 1 else max b.now s.disp, latch := [] }
    else b.setSeq q s

/-- The stream that plays ends: surplus bytes are discarded, now or on arrival (R227). -/
def endStream (b : Blk) (p : Nat) : Blk :=
  let x := b.port p
  let here := min x.rbuf.length x.streamLeft
  (b.setPort p { x with rbuf := x.rbuf.drop here, dropBytes := x.dropBytes + (x.streamLeft - here),
                        streamLeft := 0, blank := false, streamZero := false }).wr
    F.DRV_STATUS_STREAM_ACT 0 p

/-- A stream granule with a poisoned word is zero, and taints the shot (R94, R120). -/
def streamPoison (b : Blk) (p : Nat) : Blk :=
  let x := b.port p
  let pos := x.arrived - x.rbuf.length
  if x.bad.isEmpty || !b.on F.DRV_STATUS_STREAM_ACT p then b
  else
    let hit := x.bad.any (fun a => decide (pos ≤ a) && decide (a < pos + streamNeed b p))
    let b := b.setPort p { x with bad := x.bad.filter (fun a => decide (pos ≤ a)),
                                  poisonGran := if hit then some (b.now / 4) else x.poisonGran }
    if hit then (b.stick F.DRV_STATUS_POISON p).taint (portSeq p) tcPoison else b

/-- What happens at the port before the samples of a tick: a due mute, the end of the stream, a stream
granule whose data are complete again. Log 38 (DEDUCED). -/
def portBegin (b : Blk) (p : Nat) : Blk :=
  let b := muteDue b p
  let cut := (b.port p).mute == some .region && b.ostate p == oHard
  let b := if b.on F.DRV_STATUS_STREAM_ACT p && (cut || decide ((b.port p).streamEnd ≤ b.now)) then endStream b p else b
  if b.now % 4 = 0 ∧ !underruns b p then
    streamPoison (if (b.port p).blank then b.setPort p { b.port p with blank := false } else b) p
  else b

/-- The tick's samples leave the port (R94, R97, R110, R113, R318): clamp, mute gain, counting.  R110's non-zero
sample is the DAC word in BASEBAND and the scaled slot sum of R96 before the upconverter otherwise.  At a forced
handover each sample differs by at most 16 codes, freely (R534). Log 39 (DESIGN CHOICE), 92 (DESIGN CHOICE). -/
def issueTick (m : Mem) (gg : Nat) (p : Nat) (b : Blk) : Blk :=
  let w := portWords m b p gg
  let q := portSeq p
  let b := b.setPort p w.2.1
  let sat := (w.1.filter (fun d => decide (d < -32767) || decide (32767 < d))).length
  let b := if sat = 0 then b else (b.inc F.DRV_CLIPCNT_SAT_COUNT sat p).stick F.DRV_STATUS_SAT p
  let words := w.1.map dacClamp
  let b := if w.2.2 then poisonRead ((b.stick F.DRV_STATUS_POISON p).taint q tcPoison) (envBase (portRegion p)) else b
  let held := b.ostate p = oHold ∨ b.on F.DRV_STATUS_MODE_BUSY p
  let nz := if b.rd F.DRV_STATUS_MODE_ACT p = 2 then words.any (fun d => decide (d ≠ 0))
    else (w.2.1.hist.take 4).any (fun v => v != (0, 0))
  let b := if held ∧ nz then
      ((b.inc F.DRV_CLIPCNT_CUT_COUNT 1 p).stick F.DRV_STATUS_HOLD_CUT p).taint q tcHoldCut
    else b
  let k := gainTick b p
  let outw := if held then words.map (fun _ => 0)
    else if k = 800 then words
    else if k = 0 then words.map (fun _ => 0)
    else words.map (mutedWord k)
  let glitch := (b.port p).glitch == some b.now
  let outw := if glitch then (outw.zipIdx).map (fun x =>
      clampI (-32767) 32767 (x.1 + (Config.free (b.freeCtr + x.2) % 33 : Nat) - 16)) else outw
  let b := if glitch then { b with freeCtr := b.freeCtr + 16 } else b
  let e := outw.foldl (fun n d => n + (d * d).toNat) 0
  let b := b.setPort p { b.port p with energy := e }
  if words.isEmpty then b else b.emit (.dac p b.now (b.act F.TIM_DTRIM_DLY p) outw)

/-! ### Early tone stop, underrun -/

/-- EARLY_TONE_STOP: the channel of probe slot `s` decided early at tick `d` (R132 to R134). -/
def earlyToneStop (p s d : Nat) (b : Blk) : Blk :=
  let x := b.slot p s
  match x.seg with
  | some g =>
    let stopG := granule (d + 2)
    if g.flat && g.estop && decide (g.start ≤ d) && g.stop.isNone && decide (stopG < g.start + g.len)
        && decide ((stopG - g.start) / 4 < g.len / 4 - min g.ramp (g.len / 8)) then
      (b.setSlot p s { x with seg := some { g with stop := some stopG } }).inc F.PRB_ESTOPCNT_COUNT 1 p
    else b
  | none => b

/-- STREAM_UNDERRUN: a stream granule is not complete at its boundary (R120, R228).  Its bytes are
discarded, those still to come when they arrive. -/
def streamUnderrun (p : Nat) (b : Blk) : Blk :=
  let q := portSeq p
  if !underruns b p then b
  else
    let upol := match (b.seq q).line with | c :: _ => c.upol | [] => 0
    let x := b.port p
    let take := min (streamNeed b p) x.streamLeft
    let here := min take x.rbuf.length
    let dr := x.dropBytes + (take - here)
    let b := b.setPort p { x with
      blank := true, rbuf := x.rbuf.drop here, dropBytes := dr, streamLeft := x.streamLeft - take }
    let b := (b.stick F.SEQ_STATUS_UNDERRUN q).taint q tcUnderrun
    if upol = 0 then trapNow (b.inc F.SEQ_CNT2_UNDERRUN_GRAN 1 q) q 3
    else if b.seqState q = sRunning then
      (b.setSeq q { b.seq q with stopAt := some b.now }).sched 0 (.softStopBegin (Fin.ofNat 64 q))
    else b

def execPhrst (p : DacPort) (slot : Fin 32) (s : State) : Res := onBlk (fun _ => phrst p slot) s
def execDrvModeWrite (p : DacPort) (v : Fin 4) (s : State) : Res := onBlk (fun _ => drvModeWrite p v) s
def execModeSwitchDone (p : DacPort) (s : State) : Res := onBlk (fun _ => modeSwitchDone p) s
def execPortEnSet (p : DacPort) (s : State) : Res := onBlk (fun _ => portEnSet p) s
def execPortEnClear (p : DacPort) (s : State) : Res := onBlk (fun _ => portEnClear p) s
def execRampEnd (p : DacPort) (s : State) : Res := onBlk (fun _ => rampEnd p) s
def execLevelStage (p : DacPort) (s : State) : Res := onBlk (fun _ => levelStage p) s
def execLevelAdopt (p : DacPort) (s : State) : Res := onBlk (fun _ => levelAdopt p) s
def execHoldEnd (p : DacPort) (s : State) : Res := onBlk (fun _ => holdEnd p) s
def execStreamUnderrun (p : DacPort) (s : State) : Res := onBlk (fun _ => streamUnderrun p) s
def execEarlyToneStop (p : DacPort) (slot : Fin 32) (d : Nat) (s : State) : Res :=
  onBlk (fun _ => earlyToneStop p slot d) s

end Sys2Proof.Machine
end

