-- ==== Sys2Proof/Machine/Deadline.lean ====
section
/-!
DEFINITION. Deadline queues: judging a message, applying what is due, and a port's frame boundary
(R9 to R11, R53, R56 to R65).  The rows themselves are in `Tim.lean`.
-/

namespace Sys2Proof.Machine

/-! ### Where a message goes -/

/-- The relief core of region `r` carries its CUR port (R532: phases CAL, RETURN_MATCH, HANDBACK_WAIT). -/
def reliefCarries (b : Blk) (r : Nat) : Bool :=
  let ph := b.rd F.CAL_ROT_PHASE r
  decide (3 ≤ ph) && decide (ph ≤ 5) && decide (b.rd F.CAL_ROT_CUR r < 6)

/-- The DAC port of CAL_ROT.CUR (R546). -/
def rotPort (b : Blk) (r : Nat) : Nat :=
  let c := b.rd F.CAL_ROT_CUR r
  if c < 4 then 4 * r + c else 32 + 2 * r + (c - 4)

/-- The DAC port that core `c` carries: 0 to 47 the ports' own cores, 48 + r the relief cores. -/
def corePort (b : Blk) (c : Nat) : Option Nat :=
  if c < 48 then
    if reliefCarries b (portRegion c) && rotPort b (portRegion c) == c then none else some c
  else if reliefCarries b (c - 48) then some (rotPort b (c - 48)) else none

/-- The port a field belongs to, as a resource of R451: 0 to 47 DAC ports, 48 + k acquisition port k. -/
def keyRes (b : Blk) (k : Key) : Option Nat :=
  match k.reg with
  | .timDtrim => some k.i
  | .timAtrim => some (48 + k.i)
  | .calAcoef => some (48 + k.i)
  | .calDcoef => corePort b k.i
  | .calGcal => some k.i
  | .drvCtrl => some k.i
  | .drvCnco => some k.i
  | .drvLevel => some k.i
  | .drvPscale => some k.i
  | .drvStream => some k.i
  | .drvSfreq => some k.i
  | .drvSphase => some k.i
  | .drvSamp => some k.i
  | .drvSctrl => some k.i
  | .prbSenv => some k.i
  | .acqCtrl => some (48 + k.i)
  | .acqCnco => some (48 + k.i)
  | .acqDtrk => some (48 + k.i)
  | .seqCtrl => some (seqRes k.i)
  | .seqJreq => some (seqRes k.i)
  | .seqSreg => some (seqRes k.i)
  | .dscRsel0 => some (seqRes k.i)
  | .dscRsel1 => some (seqRes k.i)
  | .dscRtab => some (seqRes k.i)
  | .trgTcfg => some (48 + (slotOfChan b k.i).1)
  | .trgTlev => some (48 + (slotOfChan b k.i).1)
  | _ => none

/-- The region of a resource of R451. -/
def resRegion (x : Nat) : Nat := if x < 48 then portRegion x else (x - 48) / 2

/-- The sequencer of a resource of R451 that is a port. -/
def resSeq (x : Nat) : Nat := if x < 48 then portSeq x else acqSeq (x - 48)

/-- What a message is addressed to: a port's resource number, if it is a port's. -/
def targetRes (b : Blk) (t : DlTarget) : Option Nat :=
  match t with
  | .host k _ => keyRes b k
  | .param k _ _ => keyRes b k
  | .start q _ _ => some (seqRes q)
  | .branch q _ => some (seqRes q)
  | .sreg q _ _ => some (seqRes q)
  | .phrst p _ => some p
  | .fire _ _ => none
  | .snap => none

/-- A region whose traffic is held: contained, recovering or held (R551). -/
def regionHeld (b : Blk) (r : Nat) : Bool := b.rd F.RCV_RSTAT_STATE r != 0

/-- A message that waits for its region's release (R551). -/
def msgHeld (b : Blk) (t : DlTarget) : Bool :=
  match targetRes b t with
  | some x => regionHeld b (resRegion x)
  | none => false

/-- Target port or sequencer as the detail word of source 1019 names it (R420). -/
def targetNum (b : Blk) (t : DlTarget) : Nat :=
  match t with
  | .start q _ _ => q
  | .branch q _ => q
  | .sreg q _ _ => q
  | t => (targetRes b t).getD 0

/-! ### Judging -/

/-- The tick a 48-bit value names (R53). -/
def fullTick (now v : Nat) : Int :=
  let d : Nat := (v % 2 ^ 48 + 2 ^ 48 - now % 2 ^ 48) % 2 ^ 48
  if d ≤ 2 ^ 47 then (now : Int) + d else (now : Int) + d - 2 ^ 48

/-- Queue depths of R61. -/
def dlCap (isl : Nat) : Nat := if isl < 2 then 512 else 64

def Blk.queueOf (b : Blk) (isl : Nat) : List DlEnt := b.dlq.get [] isl
def Blk.setQueue (b : Blk) (isl : Nat) (l : List DlEnt) : Blk := { b with dlq := b.dlq.set isl l }

/-- A message put into its island's queue, due at `t`. -/
def dlPut (b : Blk) (m : DlMsg) (t : Nat) : Blk :=
  { b.setQueue m.isl (b.queueOf m.isl ++ [⟨m, t, b.dlOrd⟩]) with dlOrd := b.dlOrd + 1 }

/-- The outcome reported to a command descriptor that waits for it (R463 codes). -/
def verdict (b : Blk) (m : DlMsg) (st : Nat) : Blk :=
  match m.cmd with
  | some (f, i) => { b with verdicts := b.verdicts ++ [(f.val, i, st)] }
  | none => b

/-- The shot in progress at tick `d` on a sequencer takes a taint, found late or not (R63). -/
def taintAt (b : Blk) (q cause : Nat) (d : Int) : Blk :=
  let s := b.seq q
  if s.shot.live ∧ (s.shot.start : Int) ≤ d then b.taint q cause
  else b.setSeq q { s with ended := s.ended.map (fun e =>
    if (e.1.start : Int) ≤ d ∧ d < e.2 then
      ({ e.1 with taint := orW 10 e.1.taint (2 ^ cause) }, e.2) else e) }

/-- Miss policy of a class (R62, R63). -/
def dlPolicy (b : Blk) (c : Nat) : Nat := b.rd ⟨.timDlPolicy, 2 * c, 2⟩

/-- The first legal instant at or after a tick for the entry's effect; FRAME waits for the boundary.
Log 9 (DESIGN CHOICE). -/
def legalFrom (eff : Eff) (t : Nat) : Nat := match eff with | .gran => granule t | _ => t

/-- How the judgement of a message ends: queued and due, or gone. -/
inductive Verdict where
  | due (t : Nat) | gone
  deriving DecidableEq, Repr

/-- A miss is counted, published and tainted (R63). -/
def dlMiss (b : Blk) (m : DlMsg) (d : Int) : Blk :=
  let b := (b.inc F.TIM_DL_MISS_MISS_COUNT 1 m.cls).publish 1019 (m.cls + 256 * targetNum b m.target) b.now
  let b := match m.seqOf, m.poison with | some q, true => taintAt b q tcPoison d | _, _ => b
  match m.seqOf with
  | some q => if m.taints then taintAt b q tcMiss d else b
  | none => b

/-- Line `k` of core `n` becomes pending (R289). -/
def coreLine (b : Blk) (n k : Nat) : Blk :=
  b.wr F.ODR_IRQ_IPEND (orW 24 (b.rd F.ODR_IRQ_IPEND n) (2 ^ k)) n

/-- A refusal under R60 is counted, and told to an Odric core that sent the message (R304). -/
def dlRange (b : Blk) (m : DlMsg) : Blk :=
  let b := b.inc F.TIM_DL_MISS_RANGE_COUNT 1 m.cls
  if 2 ≤ m.cls ∧ m.cls ≤ 4 then coreLine (b.stick F.ODR_STATUS_HO_RANGE m.sender) m.sender 6 else b

/-- A message judged at tick A = now, as it enters its queue (R53, R56, R59, R60, R63).  Under FAULT no
taint falls. -/
def dlJudge (b : Blk) (m : DlMsg) : Blk × Verdict :=
  match m.deadline with
  | none => (verdict b m 0, .due (legalFrom m.eff (b.now + 1)))
  | some v =>
    let d := fullTick b.now v
    if (b.now : Int) + 2 ^ 30 < d then
      (verdict (dlRange b m) m 9, .gone)
    else if (b.now : Int) + 2 ≤ d then (verdict b m 0, .due (legalFrom m.eff d.toNat))
    else match dlPolicy b m.cls with
      | 0 => (verdict (dlMiss b m d) m 1, .due (legalFrom m.eff (b.now + 2)))
      | 1 => (verdict (dlMiss b m d) m 3, .gone)
      | _ =>
        let b := verdict (dlMiss b { m with taints := false } d) m 3
        match targetRes b m.target with
        | some x => (b.sched 0 (.faultDetected 2 (resRegion x)), .gone)
        | none => (b, .gone)

/-! ### Taking hold -/

/-- What a field's taking hold sets off besides its own value. -/
def heldHook (b : Blk) (k : Key) : Blk :=
  match k.reg with
  | .drvCtrl =>
    if k.lsb = 0 then
      if b.actOn F.DRV_CTRL_EN k.i then b.sched 0 (.portEnSet (Fin.ofNat 48 k.i))
      else b.sched 0 (.portEnClear (Fin.ofNat 48 k.i))
    else b
  | .drvLevel => b.sched 0 (.levelStage (Fin.ofNat 48 k.i))
  | .acqCtrl => if k.lsb = 0 then b.sched 0 (.acqEnSet (Fin.ofNat 16 k.i)) else b
  | .acqDtrk => if k.lsb = 0 then b.sched 0 (.trkEnSet (Fin.ofNat 16 k.i) (Fin.ofNat 32 k.j)) else b
  | .seqCtrl =>
    if k.lsb = 0 then
      if b.actOn F.SEQ_CTRL_EN k.i then b.sched 0 (.seqEnSet (Fin.ofNat 64 k.i))
      else b.sched 0 (.seqEnClear (Fin.ofNat 64 k.i))
    else b
  | .trgTcfg => b.sched 0 (.trgTcfgWrite (Fin.ofNat 512 k.i))
  | .trgTlev => b.sched 0 (.trgTcfgWrite (Fin.ofNat 512 k.i))
  | _ => b

/-- A host write of the field still waits in a deadline queue. -/
def hostPending (b : Blk) (k : Key) : Bool :=
  b.dlq.any (fun q => q.2.any (fun e => match e.msg.target with | .host x _ => x == k | _ => false))

/-- A field set and in force at once, but for a host write that still waits. -/
def setNow (b : Blk) (f : Fld) (v i j : Nat) : Blk :=
  if hostPending b (f.key i j) then b.put f v i j else (b.wr f v i j).commit (f.key i j)

/-- A field's value in force becomes `v`, the accumulator rules of R86 included. -/
def takeField (b : Blk) (k : Key) (wid v : Nat) : Blk :=
  let b :=
    match k.reg with
    | .seqSreg => b.sched 0 (.sreg (Fin.ofNat 64 k.i) (Fin.ofNat 16 k.j) v)
    | .drvSfreq => takeFtw b k.i k.j v
    | .drvSctrl => if k.lsb = F.DRV_SCTRL_PMODE.lsb then takePmode b k.i k.j v
                   else b.put ⟨k.reg, k.lsb, wid⟩ v k.i k.j
    | _ => setNow b ⟨k.reg, k.lsb, wid⟩ v k.i k.j
  heldHook b k

/-- A pending host write of a field takes hold (R9 to R11). -/
def takeHost (b : Blk) (k : Key) (wid : Nat) : Blk :=
  match b.force.find k with
  | some _ =>
    let v := b.get k % 2 ^ wid
    match k.reg with
    | .seqSreg => b.sched 0 (.sreg (Fin.ofNat 64 k.i) (Fin.ofNat 16 k.j) v)
    | _ => (takeField b k wid v).commit k
  | none => b

/-- A due message takes effect. -/
def applyTarget (b : Blk) (t : DlTarget) : Blk :=
  match t with
  | .host k wid => takeHost b k wid
  | .param k wid v => takeField b k wid v
  | .start _ _ _ => b
  | .branch q x => b.sched 0 (.branchRequest q (Fin.ofNat 4096 x))
  | .sreg q i v => b.sched 0 (.sreg q (Fin.ofNat 16 i) v)
  | .phrst p s => b.sched 0 (.phrst p (Fin.ofNat 32 s))
  | .fire f c => b.sched 0 (.evfFire f (Fin.ofNat 256 c))
  | .snap => b.sched 0 .snap

/-- The order of R65: ASAP host writes first, then class, sender, send order. -/
def dlBefore (x y : DlEnt) : Bool :=
  let c (e : DlEnt) := if e.msg.cls = 6 then 0 else e.msg.cls + 1
  decide (c x < c y) || (c x == c y && (decide (x.msg.sender < y.msg.sender) ||
    (x.msg.sender == y.msg.sender && decide (x.ord ≤ y.ord))))

def dlInsert (e : DlEnt) : List DlEnt → List DlEnt
  | [] => [e]
  | x :: t => if dlBefore e x then e :: x :: t else x :: dlInsert e t

def dlSort (l : List DlEnt) : List DlEnt := l.foldr dlInsert []

/-- The field a message writes, for DL_COLLIDE. -/
def targetKey (t : DlTarget) : Option Key :=
  match t with
  | .host k _ => some k
  | .param k _ _ => some k
  | .sreg q i _ => some ⟨.seqSreg, q, i, 0⟩
  | .branch q _ => some ⟨.seqJreq, q, 0, 0⟩
  | _ => none

/-- What sent a message (R62): a function by descriptor, an Odric core, a Habor port, a function by register
write. Log 16 (DEDUCED). -/
def senderKind (m : DlMsg) : Nat := if m.cls ≤ 1 then 0 else if m.cls ≤ 4 then 1 else m.cls

/-- Two senders write one field in one batch (R65). Log 16 (DEDUCED). -/
def dlCollide : List DlEnt → Bool
  | [] => false
  | e :: t => (match targetKey e.msg.target with
      | some k => t.any (fun x => targetKey x.msg.target == some k &&
          (x.msg.sender != e.msg.sender || senderKind x.msg != senderKind e.msg))
      | none => false) || dlCollide t

/-- A batch of messages takes effect at one instant, in the order of R65. -/
def applyBatch (b : Blk) (l : List DlEnt) : Blk :=
  (dlSort l).foldl (fun b e =>
    let d : Int := match e.msg.deadline with | some v => fullTick b.now v | none => b.now
    let b := match e.msg.seqOf, e.msg.poison with | some q, true => taintAt b q tcPoison d | _, _ => b
    applyTarget b e.msg.target) (b.stickIf (dlCollide l) F.TIM_STATUS_DL_COLLIDE)

/-- What is due now in an island's queue and may take effect away from a frame boundary. -/
def dlDue (b : Blk) (e : DlEnt) : Bool :=
  e.msg.eff != .frame && decide (e.due ≤ b.now) && !msgHeld b e.msg.target

/-- A host write of a field that takes hold through the island's deadline queue (R9 to R11, R57).
Log 9 (DESIGN CHOICE). -/
def hostWrite (b : Blk) (fn isl : Nat) (eff : Eff) (f : Fld) (v i j : Nat) : Blk :=
  let b := b.stage f v i j
  let m : DlMsg := ⟨none, 6, fn, isl, eff, none, false, none, false, .host (f.key i j) f.wid⟩
  if dlCap isl ≤ (b.queueOf isl).length then { b with dlHeld := b.dlHeld ++ [m] }
  else dlPut b m (legalFrom eff (b.now + 1))

/-! ### Frame boundaries -/

/-- A coarse NCO word is legal for a mode (R98): the zone bit. -/
def cncoOk (mode w : Nat) : Bool :=
  match mode with
  | 0 => decide (w < 2 ^ 31)
  | 1 => decide (2 ^ 31 ≤ w)
  | _ => true

/-- CNCO at a frame boundary of a DAC port (R101): a word not applied leaves the old one in force, and
the register reads as written. -/
def checkCnco (b : Blk) (p : Nat) : Blk :=
  let old := b.rd F.DRV_CNCO_ACT_CNCO p
  let want := b.act F.DRV_CNCO_CNCO p
  if cncoOk (b.rd F.DRV_STATUS_MODE_ACT p) want then b.wr F.DRV_CNCO_ACT_CNCO want p
  else
    let b := b.stick F.DRV_STATUS_CNCO_REFUSED p
    if want = old then b else { b with force := b.force.set (F.DRV_CNCO_CNCO.key p 0) old }

/-- SMODE values a mode allows at a frame boundary (R119). -/
def smodeOk (mode s : Nat) : Bool :=
  match s with
  | 0 => true
  | 4 => mode == 2
  | _ => mode != 2

/-- SMODE and SSLOT at a frame boundary (R119): a refused SMODE is treated as OFF and looked at again
at every boundary. -/
def checkStream (b : Blk) (p : Nat) : Blk :=
  let k := F.DRV_STREAM_SMODE.key p 0
  let want := if hostPending b k then b.act F.DRV_STREAM_SMODE p else b.rd F.DRV_STREAM_SMODE p
  if smodeOk (b.rd F.DRV_STATUS_MODE_ACT p) want then
    (if hostPending b k then b else b.commit k)
  else { b.stick F.DRV_STATUS_STREAM_REFUSED p with force := b.force.set k 0 }

/-- FRAME entries of a port whose time has come are taken out of both islands' queues and applied
(R9, R58). -/
def frameFields (b : Blk) (res : Nat) : Blk :=
  let isl := regionTile (resRegion res)
  let l := b.queueOf isl
  let mine := fun e : DlEnt => e.msg.eff == .frame && decide (e.due ≤ b.now) &&
    targetRes b e.msg.target == some res
  applyBatch (b.setQueue isl (l.filter (fun e => !mine e))) (l.filter mine)

/-- A frame boundary of a DAC port (R15, R101, R119). -/
def frameDac (b : Blk) (p : Nat) : Blk := checkStream (checkCnco (frameFields b p) p) p

end Sys2Proof.Machine
end

