-- ==== Sys2Proof/Machine/Acq.lean ====
section
/-!
DEFINITION. Acquisition ports: enables, gain, slot configurations, integration windows, the bin-step
test of the discriminator, decisions, tone tracking, crevasses (R135 to R174, R188).
-/

namespace Sys2Proof.Machine

/-! ### Enable, gain, configuration -/

/-- The port's samples become live or forced to zero at the present tick (R139). -/
def setLive (b : Blk) (k : Nat) (v : Bool) : Blk :=
  let a := b.acq k
  b.setAcq k { a with live := ((b.now, v) :: a.live).take 8 }

/-- The samples that reach the ADC at tick `t` are live: EN in force and READY. -/
def liveAt : List (Nat × Bool) → Nat → Bool
  | [], _ => false
  | (t0, v) :: l, t => if t0 ≤ t then v else liveAt l t

/-- ACQ_EN_SET: EN takes hold (R139). As 1 the ADC powers up and is ready within 8,000 ticks; as 0 the
samples are zero from now. Log 12 (DESIGN CHOICE). -/
def acqEnSet (k : Nat) (b : Blk) : Blk :=
  if b.actOn F.ACQ_CTRL_EN k then b.sched 8000 (.adcReady (Fin.ofNat 16 k))
  else setLive (b.wr F.ACQ_STATUS_READY 0 k) k false

/-- ADC_READY (R139). -/
def adcReady (k : Nat) (b : Blk) : Blk :=
  if b.actOn F.ACQ_CTRL_EN k then setLive (b.wr F.ACQ_STATUS_READY 1 k) k true else b

/-- GAIN_SETTLED: 40 ticks after the AGAIN change GAIN_BUSY clears (R137). -/
def gainSettled (k : Nat) (b : Blk) : Blk :=
  match (b.acq k).gainEnd with
  | some t => if t ≤ b.now then b.wr F.ACQ_STATUS_GAIN_BUSY 0 k else b
  | none => b

/-- The staged configuration of slot `s`. -/
def stagedSlot (b : Blk) (k s : Nat) : SlotCfg :=
  ⟨b.rd F.ACQ_DSLOT_MODE k s, b.rd F.ACQ_DSLOT_BIN k s, b.rd F.ACQ_DSLOT_SHIFT k s,
   b.rd F.ACQ_DSLOT_FNW k s, (List.range 4).map (fun i => b.rd F.ACQ_KDESC_KLEN k (4 * s + i))⟩

/-- Cost of a slot in MAC lane-operations (R143). -/
def slotCost (m : Nat) : Nat := match m with | 1 => 1 | 2 => 16 | _ => 0

/-- The first slot at which the running cost exceeds 32 (R151). -/
def overCap : Nat → Nat → List SlotCfg → Option Nat
  | _, _, [] => none
  | sum, i, c :: t =>
    if 32 < sum + slotCost c.mode then some i else overCap (sum + slotCost c.mode) (i + 1) t

/-- FNW within the range of its mode (R144). -/
def fnwOk (mode fnw : Nat) : Bool :=
  let x := toS 32 fnw
  let l : Int := if mode = 2 then 0x66666666 else 0x40000000
  decide (-l ≤ x) && decide (x ≤ l)

/-- The first slot check that fails: STATUS code and slot (R151, R152). -/
def slotFault : Nat → List SlotCfg → Option (Nat × Nat)
  | _, [] => none
  | i, c :: t =>
    if c.mode = 0 then slotFault (i + 1) t
    else if c.mode = 1 ∧ (c.bin < 4 ∨ 28 < c.bin) then some (4, i)
    else if !fnwOk c.mode c.fnw then some (5, i)
    else if c.klen.any (fun l => decide ((if c.mode = 2 then 128 else 2048) < l)) then some (6, i)
    else slotFault (i + 1) t

def cfgCost (l : List SlotCfg) : Nat := (l.map (fun c => slotCost c.mode)).foldl (· + ·) 0

/-- ACQ_CFG_APPLY: an APPLY starts the check of the staged configuration, withdrawing a pending one
(R151, R152).  Ignored while BUSY. Log 12 (DESIGN CHOICE). -/
def acqCfgApply (k : Nat) (b : Blk) : Blk :=
  if b.rd F.ACQ_CFG_CTRL_STATUS k = 1 then b
  else
    let st := (List.range 32).map (stagedSlot b k)
    let b := b.setAcq k { b.acq k with cfgStage := st, cfgPend := none }
    (b.wr F.ACQ_CFG_CTRL_STATUS 1 k).sched 25 (.acqCfgCheckDone (Fin.ofNat 16 k))

/-- What the check finds: STATUS and FAULT_SLOT. -/
def cfgVerdict (l : List SlotCfg) : Nat × Nat :=
  match overCap 0 0 l with
  | some i => (3, i)
  | none => match slotFault 0 l with
    | some x => x
    | none => (2, 0)

/-- ACQ_CFG_CHECK_DONE (R151): the configuration is pending or refused; a LOAD descriptor that waits
for the check gets its STATUS, FAULT_SLOT and LOAD_COST (R462, R463). -/
def acqCfgCheckDone (k : Nat) (b : Blk) : Blk :=
  if b.rd F.ACQ_CFG_CTRL_STATUS k ≠ 1 then b
  else
    let a := b.acq k
    let v := cfgVerdict a.cfgStage
    let cost := cfgCost a.cfgStage
    let b := ((b.wr F.ACQ_CFG_CTRL_STATUS v.1 k).wr F.ACQ_CFG_CTRL_FAULT_SLOT v.2 k).wr
      F.ACQ_CFG_CTRL_LOAD_COST cost k
    let pd := if v.1 = 2 then some a.cfgStage else none
    let b := b.setAcq k { a with cfgPend := pd, cfgStage := [], cfgCmd := none }
    match a.cfgCmd with
    | some (f, i) =>
      let st := if v.1 = 2 then 0 else 11
      { b with verdicts := b.verdicts ++
        [(f, i, st + 2 ^ 16 * (v.1 + 2 ^ 4 * v.2 + 2 ^ 16 * cost))] }
    | none => b

/-! ### Tracking (R157 to R160) -/

def signedOffset (b : Blk) (k s : Nat) : Int := toS 32 (b.rd F.ACQ_DTRKS_OFFSET k s)

/-- TRK_EN_SET: TRK_EN takes hold (R160). As 1: home is the FNW in force, offset 0, averager clear. -/
def trkEnSet (k s : Nat) (b : Blk) : Blk :=
  if b.actOn F.ACQ_DTRK_TRK_EN k s then
    let d := b.demod k s
    (b.setDemod k s { d with trk := ⟨toS 32 (b.rd F.ACQ_DSLOT_ACT_FNW k s), 0, 0, 0, 0⟩ }).wr
      F.ACQ_DTRKS_OFFSET 0 k s
  else b

/-- `x` divided by `2 ^ n`, rounded toward minus infinity: an arithmetic shift. -/
def sar (x : Int) (n : Nat) : Int := x / 2 ^ n

/-- TRACKER_STEP (R158): the averager takes a qualifying window's reported values and may compute a
step. -/
def trackerStep (k s : Nat) (i q : Int) (b : Blk) : Blk :=
  let d := b.demod k s
  let t := d.trk
  let sumI := t.sumI + i
  let sumQ := t.sumQ + q
  let lg := b.rd F.ACQ_TRACK_AVG_LOG2 k
  if t.count + 1 ≠ 2 ^ lg then
    b.setDemod k s { d with trk := { t with sumI := sumI, sumQ := sumQ, count := t.count + 1 } }
  else
    let im := sar sumI lg
    let qm := sar sumQ lg
    let b := b.setDemod k s { d with trk := { t with sumI := 0, sumQ := 0, count := 0 } }
    if (max im.natAbs qm.natAbs) < b.rd F.ACQ_TRACK2_MINMAG k then
      (b.wr F.ACQ_DTRKS_LOST 1 k s).stick F.ACQ_STATUS_TRK_LOST k
    else
      let phi : Int := atan2Turns qm im
      let e := toS 16 (ofS 16 (phi - b.rd F.ACQ_DTRK_PHI0 k s))
      let maxstep : Int := b.rd F.ACQ_TRACK_MAXSTEP k
      let span : Int := b.rd F.ACQ_TRACK2_SPAN k
      let fmax : Int := if b.rd F.ACQ_DSLOT_ACT_MODE k s = 2 then 0x66666666 else 0x40000000
      let old := signedOffset b k s
      let st := clampI (-maxstep) maxstep (- sar (e * b.rdS F.ACQ_DTRK_KGAIN k s + 128) 8)
      let off := clampI (-span) span (old + st)
      let off := clampI (-fmax) fmax (t.home + off) - t.home
      let lim := decide (off ≠ old + st)
      let d1 := b.demod k s
      let b := b.setDemod k s { d1 with trk := { d1.trk with pend := t.pend + (off - old) } }
      let b := ((b.wr F.ACQ_DTRKS_LOST 0 k s).wr F.ACQ_DTRKS_LIMIT (b2n lim) k s).wr
        F.ACQ_DTRKS_OFFSET (ofS 32 off) k s
      b.stickIf lim F.ACQ_STATUS_TRK_LIMIT k

/-- The paired probe slot's FTW moves with a step of the tracker (R159). -/
def probeStep (b : Blk) (k s : Nat) : Blk :=
  let d := b.demod k s
  if d.probePend = 0 then b
  else
    let unit : Int := if b.rd F.ACQ_DSLOT_ACT_MODE k s = 2 then 2 ^ 16 else 2 ^ 12
    let p := 32 + k
    let v := ofS 48 ((b.act F.DRV_SFREQ_FTW p s : Int) + d.probePend * unit)
    (takeFtw b p s v).setDemod k s { d with probePend := 0 }

/-- A pending tracker step is applied at the acquisition port's frame boundary (R159); the probe port
follows at the boundary of the same shot, or at its next. -/
def trackApply (b : Blk) (k s shot : Nat) : Blk :=
  let d := b.demod k s
  if d.trk.pend = 0 then b
  else
    let b := b.wr F.ACQ_DSLOT_ACT_FNW (ofS 32 (d.trk.home + signedOffset b k s)) k s
    let b := b.bump F.ACQ_DTRKS_STEPS k s
    let b := b.setDemod k s { d with probePend := d.probePend + d.trk.pend, trk := { d.trk with pend := 0 } }
    let ps := (b.seq (portSeq (32 + k))).shot
    if ps.live ∧ ps.no = shot ∧ ps.start = b.now then probeStep b k s else b

/-! ### Frame boundary of an acquisition port -/

/-- One slot of a configuration comes into force (R151, R160). -/
def slotInForce (k : Nat) (b : Blk) (s : Nat) (c : SlotCfg) : Blk :=
  let b := (((b.wr F.ACQ_DSLOT_ACT_MODE c.mode k s).wr F.ACQ_DSLOT_ACT_BIN c.bin k s).wr
    F.ACQ_DSLOT_ACT_SHIFT c.shift k s).wr F.ACQ_DSLOT_ACT_FNW c.fnw k s
  let a := b.acq k
  let kl := (List.range 4).foldl (fun t i => t.set (4 * s + i) (c.klen.getD i 0)) a.klen
  let b := b.setAcq k { a with klen := kl }
  let d := b.demod k s
  (b.setDemod k s { d with trk := ⟨toS 32 c.fnw, 0, 0, 0, 0⟩ }).wr F.ACQ_DTRKS_OFFSET 0 k s

def slotsInForce (k : Nat) : Nat → List SlotCfg → Blk → Blk
  | _, [], b => b
  | s, c :: t, b => slotsInForce k (s + 1) t (slotInForce k b s c)

/-- ACNCO at a frame boundary, against the AZONE in force after it (R138). -/
def checkAcnco (b : Blk) (k : Nat) : Blk :=
  let old := b.rd F.ACQ_CNCO_ACT_ACNCO k
  let want := b.act F.ACQ_CNCO_ACNCO k
  if (decide (2 ^ 31 ≤ want)) = b.actOn F.ACQ_CTRL_AZONE k then b.wr F.ACQ_CNCO_ACT_ACNCO want k
  else
    let b := b.stick F.ACQ_STATUS_CNCO_REFUSED k
    if want = old then b else { b with force := b.force.set (F.ACQ_CNCO_ACNCO.key k 0) old }

/-- A frame boundary of an acquisition port at the start of shot `shot` (R137, R138, R151, R159). -/
def frameAcq (b : Blk) (k shot : Nat) : Blk :=
  let g0 := b.act F.ACQ_CTRL_AGAIN k
  let b := frameFields b (48 + k)
  let b := checkAcnco b k
  let b := if b.act F.ACQ_CTRL_AGAIN k = g0 then b
    else ((b.setAcq k { b.acq k with gainEnd := some (b.now + 40) }).wr F.ACQ_STATUS_GAIN_BUSY 1 k).sched
      40 (.gainSettled (Fin.ofNat 16 k))
  let b := match (b.acq k).coef with
    | some (g, o, t) => ((setNow (setNow (setNow b F.CAL_ACOEF_GAIN g k 0) F.CAL_ACOEF_OFFSET o k 0)
        F.CAL_ACOEF_TSKEW t k 0).setAcq k { b.acq k with coef := none })
    | none => b
  match (b.acq k).cfgPend with
  | some l =>
    let b := slotsInForce k 0 l b
    let b := b.setAcq k { b.acq k with cfgPend := none }
    (b.wr F.ACQ_CFG_CTRL_STATUS 0 k).bump F.ACQ_CFG_CTRL_APPLY_COUNT k
  | none => (List.range 32).foldl (fun b s => trackApply b k s shot) b

/-- A frame boundary of a probe port lets the tracker's steps reach its slots (R159). -/
def frameProbe (b : Blk) (p : Nat) : Blk :=
  (List.range 32).foldl (fun b s => probeStep b (p - 32) s) b

/-! ### Windows -/

/-- The discriminator's configuration of channel `q` (R196). -/
def dscCfgOf (b : Blk) (q : Nat) : DCfg where
  three := b.rd F.DSC_CFG_SMODE q == 1
  eraseEn := b.on F.DSC_CFG_ERASE_EN q
  earlyEn := b.on F.DSC_CFG_EARLY_EN q
  cshift := b.rd F.DSC_CFG_CSHIFT q
  minstep := b.rd F.DSC_CFG_MINSTEP q
  wiA := b.rdS F.DSC_AXA_WI_A q
  wqA := b.rdS F.DSC_AXA_WQ_A q
  offA := b.rdS F.DSC_AXA_OFF_A q
  wiB := b.rdS F.DSC_AXB_WI_B q
  wqB := b.rdS F.DSC_AXB_WQ_B q
  offB := b.rdS F.DSC_AXB_OFF_B q
  drA := b.rdS F.DSC_DRIFT_DRIFT_A q
  drB := b.rdS F.DSC_DRIFT_DRIFT_B q
  hiA := b.rdS F.DSC_BNDA_HI_A q
  loA := b.rdS F.DSC_BNDA_LO_A q
  hiB := b.rdS F.DSC_BNDB_HI_B q
  loB := b.rdS F.DSC_BNDB_LO_B q
  ebA := b.rd F.DSC_ERASE_EB_A q
  ebB := b.rd F.DSC_ERASE_EB_B q

/-- The slot's windows occupy bin step `n0` in the sense of R154, at issue tick `e`. -/
def occupied (d : DemodSt) (n0 e : Nat) : Bool :=
  d.wins.any (fun w => decide (w.n0 ≤ n0) && decide (n0 < w.n0 + w.klen)) ||
  d.past.any (fun p => decide (e ≤ p.2.2) && decide (p.1 ≤ n0) && decide (n0 < p.1 + p.2.1))

/-- The first bin step of a window opened now. -/
def firstStep (b : Blk) : Nat := b.now / 4

/-- The entry copies of channel `q` change one tick and five ticks from now (R42, R176). -/
def dvChange (b : Blk) (dt q st code : Nat) (early : Bool) (d : Nat) : Blk :=
  (b.sched dt (.dvOwnTileUpdate (Fin.ofNat 768 q) (Fin.ofNat 4 st) (Fin.ofNat 4 code) early d)).sched
    (dt + 4) (.dvOtherTileUpdate (Fin.ofNat 768 q) (Fin.ofNat 4 st) (Fin.ofNat 4 code) early d)

/-- The port's samples are live apart from calibration (R139). -/
def adcUp (b : Blk) (k : Nat) : Bool := b.actOn F.ACQ_CTRL_EN k && b.on F.ACQ_STATUS_READY k

/-- A window opens while an unforced calibration step runs: the step is abandoned (R537). -/
def adcAbandon (b : Blk) (k : Nat) : Blk :=
  let a := b.adcCal k
  if a.stop.isSome ∧ !a.forcing then
    let sp := match a.spans with | (x, _) :: t => (x, b.now) :: t | [] => []
    (setLive (b.setAdcCal k { a with stop := none, spans := sp }) k (adcUp b k)).stick F.ACQ_STATUS_SETTLE k
  else b

/-- WINDOW_OPEN (R153, R154, R176): one slot's window at issue tick E = now. -/
def openWindow (b : Blk) (k s kidx : Nat) : Blk :=
  let d := b.demod k s
  let kl := (b.acq k).klen.get 0 (4 * s + kidx)
  if b.rd F.ACQ_DSLOT_ACT_MODE k s = 0 ∨ kl = 0 then b.stick F.ACQ_STATUS_WIN_EMPTY k
  else if occupied d (firstStep b) b.now then b.stick F.ACQ_STATUS_WIN_COLLIDE k
  else
    let q := chanOfSlot b k s
    let w : Win := {
      n0 := firstStep b, klen := kl, mode := b.rd F.ACQ_DSLOT_ACT_MODE k s,
      bin := b.rd F.ACQ_DSLOT_ACT_BIN k s, fnw := toS 32 (b.rd F.ACQ_DSLOT_ACT_FNW k s),
      shift := b.rd F.ACQ_DSLOT_ACT_SHIFT k s, kidx := kidx, chan := q, cfg := dscCfgOf b q,
      shot := (b.seq (acqSeq k)).shot.no, accI := 0, accQ := 0, n := 0, due := false, repI := 0,
      repQ := 0, ovr := false, aborted := false }
    let past := d.past.filter (fun p => decide (b.now ≤ p.2.2))
    let b := adcAbandon b k
    dvChange (b.setDemod k s { d with wins := d.wins ++ [w], past := past }) 1 q 1 0 false b.now

/-- The windows of an OPENW request: every slot of the mask, in ascending order (R153). -/
def openWindows (b : Blk) (k mask kidx : Nat) : Blk :=
  (List.range 32).foldl (fun b s => if bit mask s then openWindow b k s kidx else b) b

/-- A window is open on the port. -/
def anyWindow (b : Blk) (k : Nat) : Bool := (b.acq k).slots.any (fun e => !e.2.wins.isEmpty)

/-! ### The MAC (R144, R147, R148) -/

/-- A component rounded to 16 bits; a value outside 16 bits has no stated result and is free.
Log 49 (DESIGN CHOICE). -/
def narrow16 (fr : Nat) (x : Int) : Int :=
  if -32768 ≤ x ∧ x ≤ 32767 then x else toS 16 fr

/-- x′ = b × exp(−j 2π θ / 2³²), each component rounded half up once (R144). Log 49 (DESIGN CHOICE). -/
def rotate (fr : Nat) (x : Int × Int) (theta : Nat) : Int × Int :=
  let c := cosP theta
  let s := sinP theta
  (narrow16 fr (rndShift (x.1 * c + x.2 * s) 17), narrow16 (fr / 2 ^ 16) (rndShift (x.2 * c - x.1 * s) 17))

/-- The products of one bin step added up: demodulated samples with weights, from sample index `i`
and byte address `a`; whether a weight was poisoned. Log 25 (DESIGN CHOICE). -/
def macStep (m : Mem) (b : Blk) (fnw : Int) : List (Int × Int) → Nat → Nat → Int × Int × Bool
  | [], _, _ => (0, 0, false)
  | x :: t, i, a =>
    let y := rotate (Config.free (b.freeCtr + t.length)) x (ofS 32 (fnw * i))
    let bad := m.poisoned a
    let w := if bad then 0 else m.le a 4
    let wi := toS 16 (field w 0 16)
    let wq := toS 16 (field w 16 16)
    let r := macStep m b fnw t (i + 1) (a + 4)
    (wi * y.1 - wq * y.2 + r.1, wi * y.2 + wq * y.1 + r.2.1, bad || r.2.2)

/-- Packed 32-bit I/Q samples. -/
def unpackIq (n : Nat) : Int × Int := (toS 16 (field n 0 16), toS 16 (field n 16 16))

/-- The samples of a step: one for BIN, sixteen for DIRECT; a missing sample is 0. -/
def stepSamples (mode : Nat) (l : List Nat) : List (Int × Int) :=
  (List.range (if mode = 2 then 16 else 1)).map (fun i => unpackIq (l.getD i 0))

/-! ### The discriminator (R170, R171) -/

/-- S_X of R170. -/
def score (wi wq off dr i q : Int) (n : Nat) : Int :=
  satS 32 (satS 32 ((wi * i + wq * q + 2 ^ 14) / 2 ^ 15) - off - n * dr)

/-- abs32 of R171. -/
def abs32 (x : Int) : Int := min (x.natAbs : Int) (2 ^ 31 - 1)

/-- Scores and margin at step `n`: S_A, S_B, m01. -/
def scores (c : DCfg) (i q : Int) (n : Nat) : Int × Int × Int :=
  let sa := score c.wiA c.wqA c.offA c.drA i q n
  let sb := if c.three then score c.wiB c.wqB c.offB c.drB i q n else 0
  (sa, sb, if c.three then min (abs32 sa) (abs32 sb) else abs32 sa)

/-- The early part of R171: code and margin of a crossing at step `n`. -/
def earlyTest (c : DCfg) (i q : Int) (n : Nat) : Option (Nat × Int) :=
  let x := scores c i q n
  if c.earlyEn ∧ max c.minstep 1 ≤ n then
    if c.three ∧ c.hiB ≤ x.2.1 then some (2, abs32 x.2.1)
    else if !c.three ∨ x.2.1 ≤ c.loB then
      if c.hiA ≤ x.1 then some (1, x.2.2)
      else if x.1 ≤ c.loA then some (0, x.2.2)
      else none
    else none
  else none

/-- The late part of R171: code and margin at the window's end. -/
def lateTest (c : DCfg) (i q : Int) (n : Nat) : Nat × Int :=
  let x := scores c i q n
  if c.three ∧ c.eraseEn ∧ abs32 x.2.1 < c.ebB then (3, 0)
  else if c.three ∧ 0 ≤ x.2.1 then (2, abs32 x.2.1)
  else if c.eraseEn ∧ abs32 x.1 < c.ebA then (3, 0)
  else if 0 ≤ x.1 then (1, x.2.2)
  else (0, x.2.2)

/-- R174. -/
def confidence (m : Int) (cshift : Nat) : Nat := min 15 (m.toNat / 2 ^ cshift)

/-! ### Decisions -/

/-- The tick at which the test of the `n`-th step of a window from bin step `n0` runs (R140). -/
def testTick (n0 n : Nat) : Nat := 4 * (n0 + n - 1) + 3 + 41

/-- Taint of a shot of a sequencer by number: in progress, or ended with its summary to come. -/
def shotTaint (b : Blk) (q no : Nat) : Nat :=
  let s := b.seq q
  if s.shot.no = no then s.shot.taint
  else match s.ended.find? (fun e => e.1.no == no) with
    | some e => e.1.taint
    | none => 0

/-- The Habor ports that export channel `q` (R183). -/
def exporters (b : Blk) (q : Nat) : List Nat :=
  (List.range 4).filter (fun p => bit (b.act F.DSC_XMASK_MASK p (q / 64)) (q % 64))

/-- A record on its way to the intake (R188, R190). -/
def record (b : Blk) (r : Rec) : Blk := { b with dsc := { b.dsc with arriving := b.dsc.arriving ++ [r] } }

/-- A window of the port qualifies for tracking (R157). -/
def qualifies (b : Blk) (k s : Nat) (w : Win) : Bool :=
  let per := b.rd F.ACQ_TRACK_REF_PERIOD k
  decide (per ≠ 0) && decide (w.shot % per = 0) && b.actOn F.ACQ_DTRK_TRK_EN k s &&
  decide (w.n = w.klen) && !w.ovr && decide (shotTaint b (acqSeq k) w.shot = 0)

/-- The oldest undecided window of slot `s` ends with a decision (R171 to R174, R176, R183, R188); a soft
stop that waited for it completes with it (R230). -/
def endWindow (b : Blk) (k s : Nat) (w : Win) (code : Nat) (mg : Int) (early : Bool) : Blk :=
  let d := testTick w.n0 w.n
  let q := w.chan
  let conf := if code = 3 then 0 else confidence mg w.cfg.cshift
  let sl := b.demod k s
  let b := b.setDemod k s { sl with wins := sl.wins.drop 1, past := sl.past ++ [(w.n0, w.klen, d)] }
  let b := ((b.wr F.DSC_STAT_DTICK d q).wr F.DSC_STAT_CONF conf q)
  let b := dvChange b 1 q 2 code early d
  let b := b.publish q (code + 4 * b2n early + 65536 * w.n) d
  let b := if (exporters b q).isEmpty then b
    else b.sched 3 (.exportLatchSet (Fin.ofNat 512 q) (Fin.ofNat 4 code) early false d)
  let fl := b2n early + 2 * b2n (!early) + 16 * b2n w.aborted
  let b := record b ⟨q, fl, w.shot, code, conf, w.n, w.repI, w.repQ, d⟩
  let b := if early then b.sched 0 (.earlyToneStop (Fin.ofNat 48 (32 + k)) (Fin.ofNat 32 s) d) else b
  let b := if b.seqState (acqSeq k) = sStopping ∧ (b.seq (acqSeq k)).stopEnd ≤ b.now then
    b.sched 0 (.softStopComplete (Fin.ofNat 64 (acqSeq k))) else b
  if qualifies b k s w then trackerStep k s w.repI w.repQ b else b

/-- BIN_STEP_TEST (R136, R144, R147, R148, R169 to R172): the next bin step of the slot's oldest open
window, from the samples that the channelizer or downconverter gives, and the over-range flag.
Log 6 (DESIGN CHOICE). -/
def binStepTest (m : Mem) (k s : Nat) (samples : List Nat) (ovr : Bool) (b : Blk) : Blk :=
  match (b.demod k s).wins with
  | [] => b
  | w :: rest =>
    if w.due ∨ w.klen ≤ w.n then b
    else
      let step := w.n0 + w.n
      let a := b.acq k
      let lv := liveAt a.live (4 * step)
      let b := b.stickIf (!lv) F.ACQ_STATUS_WIN_OFF k
      let b := if ovr ∧ a.ovrStep ≠ step + 1 then
          ((b.inc F.ACQ_CNT_OVR_COUNT 1 k).stick F.ACQ_STATUS_OVR k).setAcq k { a with ovrStep := step + 1 }
        else b
      let b := match a.gainEnd with
        | some t => b.stickIf (decide (t ≤ 4 * step + 40) && decide (4 * step < t)) F.ACQ_STATUS_SETTLE k
        | none => b
      let xs := if lv then stepSamples w.mode samples else (stepSamples w.mode []).map (fun _ => (0, 0))
      let per := if w.mode = 2 then 16 else 1
      let r := macStep m b w.fnw xs (per * step) (kernBase k + 0x8000 * s + 0x2000 * w.kidx + 4 * (per * w.n))
      let b := { b with freeCtr := b.freeCtr + per }
      let b := if r.2.2 then poisonRead ((b.stick F.ACQ_STATUS_POISON k).taint (acqSeq k) tcPoison) (kernBase k) else b
      let accI := w.accI + r.1
      let accQ := w.accQ + r.2.1
      let vi := rndShift accI w.shift
      let vq := rndShift accQ w.shift
      let ri := satS 24 vi
      let rq := satS 24 vq
      let sats := b2n (decide (ri ≠ vi)) + b2n (decide (rq ≠ vq))
      let b := if sats = 0 then b else (b.inc F.ACQ_CNT_SAT_COUNT sats k).stick F.ACQ_STATUS_ACC_SAT k
      let w := { w with accI := accI, accQ := accQ, n := w.n + 1, repI := ri, repQ := rq, ovr := w.ovr || ovr }
      match earlyTest w.cfg ri rq w.n with
      | some (code, mg) => endWindow b k s w code mg true
      | none =>
        let last := decide (w.n = w.klen)
        let b := b.setDemod k s { b.demod k s with wins := { w with due := last } :: rest }
        if last then b.sched 0 (.lateDecision (Fin.ofNat 16 k) (Fin.ofNat 32 s)) else b

/-- LATE_DECISION (R171, R172). -/
def lateDecision (k s : Nat) (b : Blk) : Blk :=
  match (b.demod k s).wins with
  | w :: _ => if w.due then
      let r := lateTest w.cfg w.repI w.repQ w.n
      endWindow b k s w r.1 r.2 false
    else b
  | [] => b

/-! ### Crevasses (R156) -/

/-- G(t): `none` unbounded, else the ticks before the acquisition sequencer can next open a window. -/
def crevGap (b : Blk) (k : Nat) : Option Nat :=
  let q := acqSeq k
  let s := b.seq q
  if b.seqState q = sDisabled ∨ (b.seqState q = sArmed ∧ s.halted) then none
  else match s.line with
    | c :: _ =>
      if c.started ∧ c.e.kind = .wait then some ((c.stop.getD b.now) - b.now)
      else if c.started ∧ c.e.kind = .halt then none
      else some 0
    | [] => some 0

/-- CREVASSE_BEGIN: no window is open and G(t) ≥ 1,600. -/
def crevasseBegin (k : Nat) (b : Blk) : Blk :=
  if (b.acq k).crev.isSome ∨ anyWindow b k then b
  else
    let start (e : Option Nat) : Blk :=
      ((b.setAcq k { b.acq k with crev := some e }).wr F.ACQ_STATUS_CREV 1 k).bump F.ACQ_CREV_CREV_COUNT k
    match crevGap b k with
    | none => start none
    | some g => if 1600 ≤ g then (start (some (b.now + g))).sched g (.crevasseEnd (Fin.ofNat 16 k)) else b

/-- The crevasse that runs ends. -/
def endCrevasse (b : Blk) (k : Nat) : Blk :=
  match (b.acq k).crev with
  | some _ => (b.setAcq k { b.acq k with crev := none }).wr F.ACQ_STATUS_CREV 0 k
  | none => b

/-- CREVASSE_END: at t + G(t), or when an enable takes hold. -/
def crevasseEnd (k : Nat) (b : Blk) : Blk :=
  match (b.acq k).crev with
  | some (some t) => if t ≤ b.now then endCrevasse b k else b
  | some none => if crevGap b k = none then b else endCrevasse b k
  | none => b

/-- CREV_LEFT as it reads (R156). -/
def crevLeft (b : Blk) (k : Nat) : Nat :=
  match (b.acq k).crev with
  | none => 0
  | some none => 0xFFFFFFFF
  | some (some t) => min (t - b.now) 0xFFFFFFFF

def execAcqEnSet (k : AcqPort) (s : State) : Res := onBlk (fun _ => acqEnSet k) s
def execAdcReady (k : AcqPort) (s : State) : Res := onBlk (fun _ => adcReady k) s
def execGainSettled (k : AcqPort) (s : State) : Res := onBlk (fun _ => gainSettled k) s
def execAcqCfgApply (k : AcqPort) (s : State) : Res := onBlk (fun _ => acqCfgApply k) s
def execAcqCfgCheckDone (k : AcqPort) (s : State) : Res := onBlk (fun _ => acqCfgCheckDone k) s
def execLateDecision (k : AcqPort) (slot : Fin 32) (s : State) : Res := onBlk (fun _ => lateDecision k slot) s
def execTrkEnSet (k : AcqPort) (slot : Fin 32) (s : State) : Res := onBlk (fun _ => trkEnSet k slot) s
def execCrevasseBegin (k : AcqPort) (s : State) : Res := onBlk (fun _ => crevasseBegin k) s
def execCrevasseEnd (k : AcqPort) (s : State) : Res := onBlk (fun _ => crevasseEnd k) s

end Sys2Proof.Machine
end

