-- ==== Sys2Proof/Machine/Bia.lean ====
section
/-!
DEFINITION. The bias outputs (R342 to R364) under the energy limits of R335 and R336, their presets in
MRAM, and the queue in which events of the Firn island wait (R367, R368).
-/

namespace Sys2Proof.Machine

/-! ### Firn events (R367, R368) -/

/-- The module tick of a Firn time by the last two pairings; 0 where R367 has none. -/
def firnTick (b : Blk) (f : Nat) : Nat :=
  match b.frn.pairs with
  | (f1, m1) :: (f0, m0) :: _ =>
    if b.tim.running ∧ f1 ≠ f0 then
      ((m1 : Int) + rndDiv (((f : Int) - f1) * ((m1 : Int) - m0)) ((f1 : Int) - f0)).toNat
    else 0
  | _ => 0

/-- An event of the Firn island joins the queue, or is discarded and counted (R368). -/
def firnEvent (b : Blk) (src detail : Nat) : Blk :=
  let f := b.rd F.FRN_TIME_FTIME
  if 64 ≤ b.frn.evq.length then
    let b := b.inc F.FRN_STATUS_EVQ_DROP
    { b with frn := { b.frn with lost := b.frn.lost + 1 } }
  else { b with frn := { b.frn with evq := b.frn.evq ++ [⟨src, detail, f, firnTick b f⟩] } }

/-- A bias event: channel and the number of the status bit that was set (R420). Log 53 (DEDUCED). -/
def biasEvent (b : Blk) (c cause : Nat) : Blk := firnEvent b 1022 (c + 256 * cause)

/-! ### Channels -/

def BiaSt.reset : BiaSt := ⟨0, true, false, none, 0, false, 0, false, false, none, none⟩

def Blk.bia (b : Blk) (c : Nat) : BiaSt := b.bias.get BiaSt.reset c
def Blk.setBia (b : Blk) (c : Nat) (x : BiaSt) : Blk := { b with bias := b.bias.set c x }

/-- Ranges of R342: current mode, exponent of the code count, full scale in pV or nA. -/
def rangeCurrent (r : Nat) : Bool := decide (3 ≤ r)
def rangeBits (r : Nat) : Nat := if r = 2 then 20 else 19
def rangeFull (r : Nat) : Nat :=
  match r with
  | 0 => 10 ^ 13
  | 1 => 25 * 10 ^ 11
  | 2 => 10 ^ 13
  | 3 => 2 * 10 ^ 7
  | 4 => 2 * 10 ^ 6
  | _ => 2 * 10 ^ 5

/-- A 20-bit code read in a range (R342). -/
def codeIn (r n : Nat) : Int := if r = 2 then ((n % 2 ^ 20 : Nat) : Int) else toS 20 n

/-- The codes of a range. -/
def codeLow (r : Nat) : Int := if r = 2 then 0 else -524288
def codeHigh (r : Nat) : Int := if r = 2 then 1048575 else 524287

/-- ⌊√n⌋ by bits, for n below 4 ^ k. -/
def isqrtBits : Nat → Nat → Nat → Nat
  | 0, _, r => r
  | k + 1, n, r => if (r + 2 ^ k) * (r + 2 ^ k) ≤ n then isqrtBits k n (r + 2 ^ k) else isqrtBits k n r

/-- The largest code magnitude the stored-energy limit allows (R336); none with L = 0. -/
def energyCode (b : Blk) (c r : Nat) : Option Nat :=
  let l := b.rd F.GOV_BLOAD_L_NH c
  if l = 0 then none
  else
    let res := if rangeCurrent r then 1 else b.rd F.GOV_BLOAD_R_MOHM c
    let num := 2 * b.rd F.GOV_BLIM_EMAX_NJ c * (res * 2 ^ rangeBits r) * (res * 2 ^ rangeBits r) * 10 ^ 18
    some (isqrtBits 80 (num / (l * rangeFull r * rangeFull r)) 0)

/-- A target under the range's codes and the stored-energy limit, and whether that limit acts (R346). -/
def energyClamp (b : Blk) (c r : Nat) (x : Int) : Int × Bool :=
  let y := clampI (codeLow r) (codeHigh r) x
  match energyCode b c r with
  | none => (y, false)
  | some m =>
    let z := clampI (-(m : Int)) (m : Int) y
    (z, decide (z ≠ y))

/-- r × 1 µs / LSB as a fraction (R336, R345). Log 54 (DEDUCED). -/
def biasRate (b : Blk) (c r : Nat) : Nat × Nat :=
  let l := b.rd F.GOV_BLOAD_L_NH c
  let v := b.rd F.GOV_BLIM_VMAX_MV c
  let s := b.rd F.GOV_BSLEW_SLEW c
  let rate : Nat × Nat := if l = 0 ∨ s * l ≤ v * 10 ^ 9 then (s, 1) else (v * 10 ^ 9, l)
  let res := if rangeCurrent r then 1 else b.rd F.GOV_BLOAD_R_MOHM c
  (rate.1 * res * 2 ^ rangeBits r, rate.2 * rangeFull r)

/-- A voltage mode with L > 0 and R = 0 (R336). -/
def biasCfgErr (b : Blk) (c r : Nat) : Bool :=
  !rangeCurrent r && decide (0 < b.rd F.GOV_BLOAD_L_NH c) && b.rd F.GOV_BLOAD_R_MOHM c == 0

/-- The code at the DAC becomes `x`: the registers follow, and a change of 4,096 LSB or more is held
for 600 ns (R347). -/
def setOut (b : Blk) (c : Nat) (x : Int) : Blk :=
  let s := b.bia c
  let h := if 4096 ≤ (x - s.o).natAbs then some (s.o, b.elapsed + 480) else s.hold
  (b.setBia c { s with o := x, hold := h }).wr F.BIA_ACT_OUTCODE (ofS 20 x) c

/-- One step of a channel toward a target in the range in force (R345). -/
def stepToward (b : Blk) (c : Nat) (goal : Int) : Blk :=
  let s := b.bia c
  let r := biasRate b c (b.rd F.BIA_ACT_RANGE_ACT c)
  let d := (goal - s.o).natAbs
  let b := b.wr F.BIA_STAT_STALLED (b2n (r.1 == 0)) c
  if d = 0 ∨ r.1 = 0 then b.setBia c { s with wait := s.wait - 1 }
  else if r.1 < r.2 ∧ 0 < s.wait then b.setBia c { s with wait := s.wait - 1 }
  else
    let n := min d (max 1 (r.1 / r.2))
    let b := setOut b c (if s.o < goal then s.o + n else s.o - n)
    b.setBia c { b.bia c with wait := if r.1 < r.2 then (r.2 + r.1 - 1) / r.1 - 1 else 0 }

/-- A move toward target `x` under the energy limit: CLAMP, CFG_ERR, the step, and the state it reports
while moving and when it has arrived (R336, R346, R349). -/
def moveTo (b : Blk) (c : Nat) (x : Int) (moving there : Nat) (atOnce : Bool) : Blk :=
  let r := b.rd F.BIA_ACT_RANGE_ACT c
  if biasCfgErr b c r then (b.stick F.GOV_BSTAT_CFG_ERR c).wr F.BIA_STAT_STATE 5 c
  else
    let g := energyClamp b c r x
    let was := (b.bia c).clamping
    let b := b.setBia c { b.bia c with clamping := g.2 }
    let b := if g.2 then b.stick F.GOV_BSTAT_CLAMP c else b
    let b := if g.2 && !was then biasEvent b c 0 else b
    let b := if atOnce then setOut b c g.1 else stepToward b c g.1
    b.wr F.BIA_STAT_STATE (if (b.bia c).o = g.1 then there else moving) c

/-- The host's goal CODE + TRIM_ACT (R346). -/
def hostGoal (b : Blk) (c : Nat) : Int :=
  codeIn (b.rd F.BIA_ACT_RANGE_ACT c) (b.rd F.BIA_CODE_CODE c) + b.rdS F.BIA_ACT_TRIM_ACT c

/-- The target of the lowest FIRED rule with A_RAMP that names channel `c`, among those `p` admits
(R384, R385). Log 58 (DESIGN CHOICE). -/
def ruleTarget (b : Blk) (c : Nat) (p : Nat → Bool) : Option Int :=
  let js := (List.range 32).filter (fun j => b.on F.FRN_RSTAT_FIRED j && b.on F.FRN_RCFG_A_RAMP j &&
    bit (b.rd F.FRN_RMASK_MASK j) c && p j)
  js.head?.map (fun j => codeIn (b.rd F.BIA_ACT_RANGE_ACT c) (b.rd F.FRN_BSET_CODE (b.rd F.FRN_RCFG_BSET j) c))

/-- Rule `j` watches system source 0 or 1 (R386). -/
def safeRule (b : Blk) (j : Nat) : Bool :=
  b.rd F.FRN_RCFG_SRCKIND j == 3 && decide (b.rd F.FRN_RCFG_SRCIDX j ≤ 1)

/-- Biases are held unless such a rule moves them (R382, R386, R582). -/
def biasesHeld (b : Blk) : Bool := b.pwr.safe || b.on F.FRN_THERM_SHDN || b.rd F.GLB_LC_STATE == 3

/-- What the rules and the SAFE state say of a channel: `none` nothing, `some none` hold, else a target.
Log 56 (DEDUCED). -/
def ruleSays (b : Blk) (c : Nat) : Option (Option Int) :=
  if biasesHeld b then some (ruleTarget b c (safeRule b))
  else (ruleTarget b c (fun _ => true)).map some

/-- A parked channel is switched into range `r` at code 0 (R356, R358 step 4). -/
def unpark (b : Blk) (c r : Nat) (st : Option (Nat × Nat)) : Blk :=
  let s := b.bia c
  ((b.setBia c { s with parked := false, failed := false, o := 0, chg := st, wait := 0,
                        hold := some (0, b.elapsed + 480) }).wr F.BIA_ACT_RANGE_ACT r c).wr
    F.BIA_ACT_OUTCODE 0 c

/-- A parked channel at an update slot (R344, R356 to R360). -/
def parkedSlot (b : Blk) (c : Nat) : Blk :=
  let s := b.bia c
  match s.chg with
  | some (0, r) =>
    if b.on F.BIA_GLB_CLEAR_ACT then b.wr F.BIA_STAT_STATE 0 c
    else (unpark b c r none).wr F.BIA_STAT_STATE 1 c
  | some (_, r) =>
    match ruleSays b c with
    | some none => b.wr F.BIA_STAT_STATE 5 c
    | some (some _) => (unpark b c r (some (4, r))).wr F.BIA_STAT_STATE 6 c
    | none =>
      if s.until_ ≤ b.elapsed then (unpark b c r (some (4, r))).wr F.BIA_STAT_STATE 3 c
      else b.wr F.BIA_STAT_STATE 3 c
  | none => b.wr F.BIA_STAT_STATE 0 c

/-- The host's part of a slot: the range change that runs, or the goal (R358). -/
def hostSlot (b : Blk) (c : Nat) : Blk :=
  let s := b.bia c
  match s.chg with
  | none => moveTo b c (hostGoal b c) 1 2 false
  | some (1, r) =>
    let b := moveTo b c 0 3 3 false
    if (b.bia c).o = 0 then b.setBia c { b.bia c with chg := some (2, r), until_ := b.elapsed + 480 } else b
  | some (2, r) =>
    let b := b.wr F.BIA_STAT_STATE 3 c
    if s.until_ ≤ b.elapsed then
      (b.setBia c { s with parked := true, o := 0, chg := some (3, r), until_ := s.until_ + 1600 }).wr
        F.BIA_ACT_OUTCODE 0 c
    else b
  | some (_, r) =>
    let b := (b.setBia c { s with chg := some (5, r) })
    let b := moveTo b c (hostGoal b c) 3 2 false
    if b.rd F.BIA_STAT_STATE c = 2 then b.setBia c { b.bia c with chg := none } else b

/-- Remote sense and the limits of R343 at channel `c`: force and sense apart by more than 1 V, by
0.5 V or more, a limit acting. -/
def senseSlot (b : Blk) (c : Nat) (apart far limit : Bool) : Blk :=
  let s := b.bia c
  let b := b.wr F.BIA_STAT_COMPLIANCE (b2n (limit && !s.parked)) c
  if rangeCurrent (b.rd F.BIA_ACT_RANGE_ACT c) ∨ b.rd F.BIA_CFG_SENSE_EN c = 0 ∨ s.parked then
    b.setBia c { s with open_ := false }
  else if apart ∧ !s.open_ then
    biasEvent ((b.setBia c { s with open_ := true }).stick F.BIA_STAT_SENSE_OPEN c) c 6
  else if !far then b.setBia c { s with open_ := false }
  else b

/-- One channel at an update slot, by the precedence of R350. Log 54 (DEDUCED). -/
def biasSlot (apart far limit : Nat) (b : Blk) (c : Nat) : Blk :=
  let b := senseSlot b c (bit apart c) (bit far c) (bit limit c)
  let s := b.bia c
  if s.parked then parkedSlot b c
  else if b.on F.BIA_GLB_CLEAR_ACT then
    moveTo b c (codeIn (b.rd F.BIA_ACT_RANGE_ACT c) (b.rd F.BIA_CLR_CLRCODE c)) 4 4
      (b.on F.BIA_CFG_CLRMODE c && b.rd F.GOV_BLOAD_L_NH c == 0)
  else match ruleSays b c with
    | some none => b.wr F.BIA_STAT_STATE 5 c
    | some (some x) => moveTo b c x 6 5 false
    | none =>
      if s.stay then moveTo b c (codeIn (b.rd F.BIA_ACT_RANGE_ACT c) (b.rd F.BIA_CLR_CLRCODE c)) 4 4 false
      else hostSlot b c

/-- BIAS_UPDATE_SLOT (R345): every channel at one 1 µs slot; the operands give, by channel, what the
output stage finds (R343). Log 58 (DESIGN CHOICE). -/
def biasUpdateSlot (apart far limit : Nat) (b : Blk) : Blk :=
  (List.range 64).foldl (biasSlot apart far limit) b

/-- TRIM_GRADE (R346): TRIM_ACT one LSB toward TRIM. -/
def trimGrade (b : Blk) : Blk :=
  (List.range 64).foldl (fun b c =>
    let t := clampI (-4096) 4096 (b.rdS F.BIA_TRIM_TRIM c)
    let a := b.rdS F.BIA_ACT_TRIM_ACT c
    if a < t then b.wr F.BIA_ACT_TRIM_ACT (ofS 16 (a + 1)) c
    else if t < a then b.wr F.BIA_ACT_TRIM_ACT (ofS 16 (a - 1)) c
    else b) b

/-- The first accepted write that makes a failed channel leave park (R356). -/
def leavePark (b : Blk) (c : Nat) : Blk :=
  let s := b.bia c
  if s.failed then b.setBia c { s with failed := false, chg := some (0, b.rd F.BIA_CFG_RANGE c) } else b

/-- BIA_CODE_WRITE (R348, R357). -/
def biaCodeWrite (c v : Nat) (b : Blk) : Blk :=
  let b := leavePark (b.wr F.BIA_CODE_CODE v c) c
  if b.on F.BIA_GLB_CLEAR_ACT then b.stick F.BIA_STAT_CLR_DROP c
  else b.setBia c { b.bia c with stay := false }

/-- BIA_TRIM_WRITE (R346, R357). -/
def biaTrimWrite (c v : Nat) (b : Blk) : Blk :=
  (b.wr F.BIA_TRIM_TRIM v c).stickIf (b.on F.BIA_GLB_CLEAR_ACT) F.BIA_STAT_CLR_DROP c

/-- The range a channel is in or on its way to. Log 54 (DEDUCED). -/
def rangeBound (b : Blk) (c : Nat) : Nat :=
  match (b.bia c).chg with
  | some (_, r) => r
  | none => b.rd F.BIA_ACT_RANGE_ACT c

/-- RANGE_CHANGE (R342, R358, R359): RANGE of a BIA_CFG write. -/
def rangeChange (c v : Nat) (b : Blk) : Blk :=
  if 6 ≤ v then b
  else
    let was := rangeBound b c
    let b := leavePark (b.wr F.BIA_CFG_RANGE v c) c
    let s := b.bia c
    match s.chg with
    | some (n, _) =>
      if n ≤ 3 then b.setBia c { s with chg := some (n, v) }
      else if v = was then b else b.setBia c { s with chg := some (1, v) }
    | none => if s.parked ∨ v = was then b else b.setBia c { s with chg := some (1, v) }

/-! ### CLEAR_N (R357, R359) -/

/-- What the start of CLEAR_N does to one channel. Log 55 (DEDUCED). -/
def clearBegin (b : Blk) (c : Nat) : Blk :=
  let s := b.bia c
  let imm := b.on F.BIA_CFG_CLRMODE c && decide (0 < b.rd F.GOV_BLOAD_L_NH c) && !s.parked
  let b := b.stickIf imm F.GOV_BSTAT_IMM_DENIED c
  match s.chg with
  | some (0, _) => b
  | some (n, _) =>
    if n ≤ 2 then (b.setBia c { s with chg := none, stay := true }).stick F.BIA_STAT_CLR_DROP c
    else if n = 3 then
      let b := (unpark b c (b.rd F.BIA_ACT_RANGE_ACT c) none).stick F.BIA_STAT_CLR_DROP c
      b.setBia c { b.bia c with stay := true }
    else b.setBia c { s with chg := none, stay := true }
  | none => if s.parked then b else b.setBia c { s with stay := true }

/-- CLEAR_N_ACT: CLEAR_N has been low for 1 µs. -/
def clearNAct (b : Blk) : Blk :=
  if b.on F.BIA_GLB_CLEAR_ACT then b
  else (List.range 64).foldl clearBegin (b.wr F.BIA_GLB_CLEAR_ACT 1)

/-- CLEAR_N_RELEASE: it has been high for 1 µs; the outputs stay. -/
def clearNRelease (b : Blk) : Blk := b.wr F.BIA_GLB_CLEAR_ACT 0

/-! ### Presets (R352 to R356) -/

/-- CRC-32 of IEEE 802.3, one bit of the reflected register at a time. -/
def crcBits : Nat → Nat → Nat
  | 0, r => r
  | k + 1, r => crcBits k (if r % 2 = 1 then (r / 2) ^^^ 0xEDB88320 else r / 2)

def crcFold : List Byte → Nat → Nat
  | [], r => r
  | x :: t, r => crcFold t (crcBits 8 (r ^^^ x.toNat))

def crc32 (l : List Byte) : Nat := crcFold l 0xFFFFFFFF ^^^ 0xFFFFFFFF

/-- A slot's 40 bytes from the fields of R352 and its sequence number. -/
def presetImage (cfg code clr l r e v slew seq : Nat) : List Byte :=
  let x := leBytes 4 cfg ++ leBytes 4 code ++ leBytes 4 clr ++ leBytes 4 l ++ leBytes 4 r ++
    leBytes 4 e ++ leBytes 2 v ++ leBytes 2 0 ++ leBytes 4 slew ++ leBytes 4 seq
  x ++ leBytes 4 (crc32 x)

/-- The factory safe image (R355), with SEQ 1. Log 57 (PRESUMED). -/
def factorySafe : List Byte := presetImage 0 0 0 0 1000000 0 0 1000 1

/-- Slot A holds the factory safe image before any save, slot B nothing. Log 57 (PRESUMED). -/
def PSlot.reset (k : Nat) : PSlot := if k % 2 = 0 then ⟨factorySafe, true, 0⟩ else ⟨[], false, 0⟩

/-- Log 57 (PRESUMED). -/
def Blk.preset (b : Blk) (k : Nat) : PSlot := b.mram.get (PSlot.reset k) k
def Blk.setPreset (b : Blk) (k : Nat) (x : PSlot) : Blk := { b with mram := b.mram.set k x }

/-- `n` bytes of an image from byte `a` as a number. -/
def imageField (s : PSlot) (a n : Nat) : Nat := leNat ((s.image.drop a).take n)

/-- A slot is valid (R352). -/
def PSlot.valid (s : PSlot) : Bool :=
  s.commit && s.image.length == 40 && imageField s 36 4 == crc32 (s.image.take 36) &&
  decide (imageField s 0 4 % 8 < 6)

/-- The slot in force of channel `c`: 0 A, 1 B. -/
def inForce (b : Blk) (c : Nat) : Option Nat :=
  let x := b.preset (2 * c)
  let y := b.preset (2 * c + 1)
  if x.valid then (if y.valid ∧ imageField x 32 4 < imageField y 32 4 then some 1 else some 0)
  else if y.valid then some 1 else none

/-- BIA_PSTAT after the slots of channel `c` changed. -/
def showSlots (b : Blk) (c : Nat) : Blk :=
  let b := (b.wr F.BIA_PSTAT_A_VALID (b2n (b.preset (2 * c)).valid) c).wr F.BIA_PSTAT_B_VALID
    (b2n (b.preset (2 * c + 1)).valid) c
  match inForce b c with
  | some k => (b.wr F.BIA_PSTAT_IN_FORCE k c).wr F.BIA_PSTAT_SEQ (imageField (b.preset (2 * c + k)) 32 4) c
  | none => (b.wr F.BIA_PSTAT_IN_FORCE 0 c).wr F.BIA_PSTAT_SEQ 0 c

/-- The greater valid SEQ of a channel, 0 with neither slot valid. -/
def topSeq (b : Blk) (c : Nat) : Nat :=
  let g := fun k => if (b.preset (2 * c + k)).valid then imageField (b.preset (2 * c + k)) 32 4 else 0
  max (g 0) (g 1)

/-- The image of the live registers (R353). -/
def liveImage (b : Blk) (c seq : Nat) : List Byte :=
  presetImage (b.word .biaCfg c) (b.rd F.BIA_CODE_CODE c) (b.rd F.BIA_CLR_CLRCODE c)
    (b.rd F.GOV_BLOAD_L_NH c) (b.rd F.GOV_BLOAD_R_MOHM c) (b.rd F.GOV_BLIM_EMAX_NJ c)
    (b.rd F.GOV_BLIM_VMAX_MV c) (b.rd F.GOV_BSLEW_SLEW c) seq

/-- A preset write begins on slot `k` of channel `c`, or is refused (R353, R354). -/
def presetBegin (c k : Nat) (save : Bool) (b : Blk) : Blk :=
  if b.on F.BIA_PSTAT_BUSY c then b.wr F.BIA_PSTAT_RESULT 1 c
  else
    let p := b.preset (2 * c + k)
    if 10 ^ 9 ≤ p.writes then (b.wr F.BIA_PSTAT_RESULT 2 c).stick F.BIA_STAT_WEAR_OUT c
    else
      let img := if save then liveImage b c ((topSeq b c + 1) % 2 ^ 32) else p.image
      let b := b.setPreset (2 * c + k) ⟨img, false, p.writes + 1⟩
      let b := b.setBia c { b.bia c with cmd := some ⟨k, save⟩ }
      (showSlots (b.wr F.BIA_PSTAT_BUSY 1 c) c).sched 320000 (.presetDone (Fin.ofNat 64 c) true)

/-- SAVE_NEXT: the slot not in force, or A. Log 58 (DESIGN CHOICE). -/
def saveNext (c : Nat) (b : Blk) : Blk :=
  presetBegin c (match inForce b c with | some 0 => 1 | _ => 0) true b

/-- PRESET_DONE (R353, R354): the read-back verified or not. -/
def presetDone (c : Nat) (verified : Bool) (b : Blk) : Blk :=
  match (b.bia c).cmd with
  | none => b
  | some x =>
    let p := b.preset (2 * c + x.slot)
    let b := if x.save ∧ verified then b.setPreset (2 * c + x.slot) { p with commit := true } else b
    let b := (b.setBia c { b.bia c with cmd := none }).wr F.BIA_PSTAT_BUSY 0 c
    showSlots (b.wr F.BIA_PSTAT_RESULT (if x.save ∧ !verified then 3 else 0) c) c

/-- The live registers take an image (R353, R356). Log 55 (DEDUCED). -/
def takeImage (b : Blk) (c : Nat) (s : PSlot) : Blk :=
  let g := imageField s 0 4
  let b := ((b.wr F.BIA_CFG_RANGE g c).wr F.BIA_CFG_SENSE_EN (g / 16) c).wr F.BIA_CFG_CLRMODE (g / 64) c
  let b := (b.wr F.BIA_CODE_CODE (imageField s 4 4) c).wr F.BIA_CLR_CLRCODE (imageField s 8 4) c
  let b := (b.wr F.GOV_BLOAD_L_NH (imageField s 12 4) c).wr F.GOV_BLOAD_R_MOHM (imageField s 16 4) c
  let b := (b.wr F.GOV_BLIM_EMAX_NJ (imageField s 20 4) c).wr F.GOV_BLIM_VMAX_MV (imageField s 24 2) c
  b.wr F.GOV_BSLEW_SLEW (imageField s 28 4) c

/-- RELOAD (R353, R354, R356, R360). Log 55 (DEDUCED). -/
def reload (c : Nat) (b : Blk) : Blk :=
  if b.on F.BIA_PSTAT_BUSY c then b.wr F.BIA_PSTAT_RESULT 1 c
  else match inForce b c with
    | none => b.wr F.BIA_PSTAT_RESULT 4 c
    | some k =>
      let b := (takeImage b c (b.preset (2 * c + k))).wr F.BIA_PSTAT_RESULT 0 c
      let s := b.bia c
      let r := b.rd F.BIA_CFG_RANGE c
      if s.parked then b.setBia c { s with failed := false, chg := some (0, r), stay := false }
      else if s.chg.isNone ∧ r = b.rd F.BIA_ACT_RANGE_ACT c then b.setBia c { s with stay := false }
      else b.setBia c { s with chg := some (1, r), stay := false }

/-- One channel of PRESET_CHECK. -/
def checkPreset (b : Blk) (c : Nat) : Blk :=
  let b := showSlots b c
  match inForce b c with
  | some k =>
    let b := takeImage b c (b.preset (2 * c + k))
    b.setBia c { BiaSt.reset with chg := some (0, b.rd F.BIA_CFG_RANGE c) }
  | none =>
    let b := takeImage b c ⟨factorySafe, true, 0⟩
    biasEvent ((b.setBia c { BiaSt.reset with failed := true }).stick F.BIA_STAT_PRESET_FAIL c) c 5

/-- PRESET_CHECK (R356): once after VIN valid. -/
def presetCheck (b : Blk) : Blk :=
  if b.on F.BIA_GLB_PRESET_DONE then b
  else ((List.range 64).foldl checkPreset b).wr F.BIA_GLB_PRESET_DONE 1

/-- The presets after the sweep of a life-cycle change (R355): the factory safe image in A, B clear, and
every channel reloads. -/
def presetsSwept (b : Blk) : Blk :=
  (List.range 64).foldl (fun b c =>
    let b := (b.setPreset (2 * c) ⟨factorySafe, true, (b.preset (2 * c)).writes + 1⟩).setPreset (2 * c + 1)
      ⟨[], false, (b.preset (2 * c + 1)).writes + 1⟩
    let b := (b.setBia c { b.bia c with cmd := none }).wr F.BIA_PSTAT_BUSY 0 c
    reload c (showSlots b c)) b

def execBiasUpdateSlot (apart far limit : Nat) (s : State) : Res :=
  onBlk (fun _ => biasUpdateSlot apart far limit) s
def execTrimGrade (s : State) : Res := onBlk (fun _ => trimGrade) s
def execBiaCodeWrite (c : BiasCh) (v : Nat) (s : State) : Res := onBlk (fun _ => biaCodeWrite c v) s
def execBiaTrimWrite (c : BiasCh) (v : Nat) (s : State) : Res := onBlk (fun _ => biaTrimWrite c v) s
def execRangeChange (c : BiasCh) (v : Fin 8) (s : State) : Res := onBlk (fun _ => rangeChange c v) s
def execSaveNext (c : BiasCh) (s : State) : Res := onBlk (fun _ => saveNext c) s
def execSaveA (c : BiasCh) (s : State) : Res := onBlk (fun _ => presetBegin c 0 true) s
def execSaveB (c : BiasCh) (s : State) : Res := onBlk (fun _ => presetBegin c 1 true) s
def execEraseA (c : BiasCh) (s : State) : Res := onBlk (fun _ => presetBegin c 0 false) s
def execEraseB (c : BiasCh) (s : State) : Res := onBlk (fun _ => presetBegin c 1 false) s
def execReload (c : BiasCh) (s : State) : Res := onBlk (fun _ => reload c) s
def execPresetDone (c : BiasCh) (verified : Bool) (s : State) : Res := onBlk (fun _ => presetDone c verified) s
def execPresetCheck (s : State) : Res := onBlk (fun _ => presetCheck) s
def execClearNAct (s : State) : Res := onBlk (fun _ => clearNAct) s
def execClearNRelease (s : State) : Res := onBlk (fun _ => clearNRelease) s

end Sys2Proof.Machine
end

