-- ==== Sys2Proof/Machine/Ring.lean ====
section
/-!
DEFINITION. Interrupts and the rings the module writes in host memory (R446, R455 to R458, R464).
-/

namespace Sys2Proof.Machine

/-! ### Interrupts (R446) -/

/-- Dword `j` of function `f`'s MSI-X table; per PCIe a vector control dword resets to masked. Log 33 (PRESUMED). -/
def msixDword (b : Blk) (f j : Nat) : Nat :=
  match b.regs.find ⟨.msixTable, f, j, 0⟩ with
  | some v => v
  | none => if j % 4 = 3 then 1 else 0

/-- Vector `v` of function `f` is masked. Log 33 (PRESUMED). -/
def vecMasked (b : Blk) (f v : Nat) : Bool := bit (msixDword b f (4 * v + 3)) 0

/-- Pending bits of function `f`: one 128-bit field. -/
abbrev msixPending : Fld := ⟨.msixPba, 0, 128⟩

/-- The message of vector `v`, with the address and data of its table entry. -/
def emitMsix (b : Blk) (f v : Nat) : Blk :=
  b.emit (.msix f v (msixDword b f (4 * v) + 2 ^ 32 * msixDword b f (4 * v + 1)) (msixDword b f (4 * v + 2)))

/-- An MSI-X message is sent, or its pending bit set while the vector is masked. -/
def sendMsix (b : Blk) (f v : Nat) : Blk :=
  if vecMasked b f v then b.wr msixPending (orW 128 (b.rd msixPending f) (2 ^ v)) f
  else emitMsix b f v

/-- Cause `c` of function `f` is raised (R446). -/
def raiseCause (b : Blk) (f c : Nat) : Blk :=
  if b.on ⟨.hifIrqmap, 8 * c + 7, 1⟩ f then sendMsix b f (b.rd ⟨.hifIrqmap, 8 * c, 7⟩ f) else b

/-- A status bit of HIF_FSTAT that raises the alarm when it becomes set (R446, cause 6). -/
def alarmStick (b : Blk) (fl : Fld) (f : Nat) : Blk :=
  if b.on fl f then b else raiseCause (b.stick fl f) f 6

/-! ### Rings (R455 to R458) -/

def ringProduced (b : Blk) (f k : Nat) : Nat := b.rd F.DB_RING_PRODUCED f k
def ringCons (b : Blk) (f k : Nat) : Nat := b.rd F.DB_RING_CONS f k

/-- Entries of ring `k` of function `f`. -/
def ringSize (b : Blk) (f k : Nat) : Nat := 2 ^ b.rd F.HIF_RCFG_LOG2N f k

/-- Bytes of an entry of ring `k` (R455). -/
def entrySize : Nat → Nat
  | 0 => 64
  | 1 => 16
  | 5 => 1088
  | _ => 32

/-- Host address of the entry that count `n` of ring `k` occupies (R455, R456, R475). -/
def entryAddr (b : Blk) (f k n : Nat) : Nat :=
  4096 * b.rd F.HIF_RBASE_ADDR f k + entrySize k * (n % ringSize b f k)

/-- Entries the host has not returned. -/
def ringUsed (b : Blk) (f k : Nat) : Nat := (ringProduced b f k + 2 ^ 32 - ringCons b f k) % 2 ^ 32

/-- The ring is enabled and has a free entry. -/
def ringRoom (b : Blk) (f k : Nat) : Bool :=
  b.on F.HIF_RCFG_EN f k && decide (ringUsed b f k < ringSize b f k)

/-- The generation word of the entry with count `n` (R457). -/
def generation (n : Nat) : Nat := if (n + 1) % 2 ^ 32 = 0 then 1 else (n + 1) % 2 ^ 32

/-- The phase bit of the completion entry with count `n` (R457). -/
def phaseBit (n size : Nat) : Nat := 1 - n / size % 2

/-- Bytes of an entry with its marker: a generation word after the body, or PHASE in bit 7 of the last
byte of a completion. -/
def markEntry (b : Blk) (f k : Nat) (body : List Byte) : List Byte :=
  let n := ringProduced b f k
  if k = 1 then body ++ [BitVec.ofNat 8 (128 * phaseBit n (ringSize b f k))]
  else body ++ leBytes 4 (generation n)

/-- An entry is produced: written to host memory, counted, and announced under R458. Log 37 (DESIGN CHOICE). -/
def ringPut (b : Blk) (f k : Nat) (body : List Byte) : Blk :=
  let n := ringProduced b f k
  let b := (b.emit (.ring f k n (entryAddr b f k n) (markEntry b f k body))).wr F.DB_RING_PRODUCED (n + 1) f k
  if b.on F.DB_RING_ARM f k then
    let us := b.rd F.HIF_RCFG_MODER f k
    if us = 0 then raiseCause (b.wr F.DB_RING_ARM 0 f k) f (k - 1)
    else
      let c : Instr := .moderationExpire (Fin.ofNat 16 f) (Fin.ofNat 6 k)
      if b.agenda.any (fun a => decide (a.2 = c)) then b else b.sched (800 * us) c
  else b

/-- The 28 bytes of a result record below its generation word (R464). -/
def recBytes (r : Rec) : List Byte :=
  leBytes 2 r.chan ++ leBytes 2 r.flags ++ leBytes 4 r.shot ++ leBytes 2 (r.code + 4 * r.conf) ++
  leBytes 2 r.len ++ leBytes 3 (ofS 24 r.i) ++ leBytes 3 (ofS 24 r.q) ++ leBytes 6 r.dtick ++ leBytes 4 0

end Sys2Proof.Machine
end

