-- ==== Sys2Proof/Machine/Trg.lean ====
section
/-!
DEFINITION. Tone triggers, general units, external trigger inputs, capture engines and marker outputs
(R395 to R419).  Time stamps are kept in 1/16 ticks.
-/

namespace Sys2Proof.Machine

def ToneSt.reset : ToneSt := ⟨[], [], false, 0, 0, none⟩
def UnitSt.reset : UnitSt := ⟨none, false, false, none, none, false, 0, 0, none⟩
def CapSt.reset : CapSt := ⟨0, 0, [], 0, none, [], 0, [], []⟩
def MarkSt.reset : MarkSt := ⟨none, none, false, -1⟩

def Blk.tone (b : Blk) (q : Nat) : ToneSt := b.trg.tones.get ToneSt.reset q
def Blk.setTone (b : Blk) (q : Nat) (x : ToneSt) : Blk := { b with trg := { b.trg with tones := b.trg.tones.set q x } }
def Blk.unit (b : Blk) (u : Nat) : UnitSt := b.trg.units.get UnitSt.reset u
def Blk.setUnit (b : Blk) (u : Nat) (x : UnitSt) : Blk := { b with trg := { b.trg with units := b.trg.units.set u x } }
def Blk.cap (b : Blk) (e : Nat) : CapSt := b.trg.caps.get CapSt.reset e
def Blk.setCap (b : Blk) (e : Nat) (x : CapSt) : Blk := { b with trg := { b.trg with caps := b.trg.caps.set e x } }
def Blk.mark (b : Blk) (k : Nat) : MarkSt := b.trg.marks.get MarkSt.reset k
def Blk.setMark (b : Blk) (k : Nat) (x : MarkSt) : Blk := { b with trg := { b.trg with marks := b.trg.marks.set k x } }

/-- A stamp in its 52-bit field (R395). -/
def stampField (x : Int) : Nat := ofS 52 x

/-- The ADC trim of acquisition port `k` in 1/128 ticks (R73, R83). Log 108 (DEDUCED). -/
def acqTrim (b : Blk) (k : Nat) : Nat := b.act F.TIM_ATRIM_DLY k

/-- A date in 1/128 ticks, rounded to 1/16 tick. -/
def stampOf (d : Int) : Int := rndDiv d 8

/-- The time, rounded to 1/16 tick, at which the line through (t0, v0) and (t1, v1) meets `lev`; the dates are
in 1/128 ticks, so that the ADC trim's part of one is exact; a level line has no crossing and the value is free
(R74, R395, R398). Log 66 (DESIGN CHOICE), 108 (DEDUCED). -/
def crossing (fr : Nat) (t0 v0 t1 v1 lev : Int) : Int :=
  if v0 < v1 then rndDiv (t0 * (v1 - v0) + (t1 - t0) * (lev - v0)) (8 * (v1 - v0))
  else if v1 < v0 then rndDiv (t0 * (v0 - v1) + (t1 - t0) * (v0 - lev)) (8 * (v0 - v1))
  else (fr : Int)

/-! ### Capture engines (R405 to R410) -/

abbrev cIdle : Nat := 0
abbrev cCollect : Nat := 1
abbrev cPost : Nat := 2
abbrev cFull : Nat := 3
abbrev cStopped : Nat := 4

def Blk.capState (b : Blk) (e : Nat) : Nat := b.rd F.TRG_CSTAT_STATE e
def Blk.setCapState (b : Blk) (e x : Nat) : Blk := b.wr F.TRG_CSTAT_STATE x e

def capMode (b : Blk) (e : Nat) : Nat := b.rd F.TRG_CCFG_MODE e
def capSegs (b : Blk) (e : Nat) : Nat := b.rd F.TRG_CBUF_NSEG e + 1

/-- Segment size in bytes (R406). -/
def capSegSize (b : Blk) (e : Nat) : Nat := b.rd F.TRG_CBUF_NPAGE e * 4096 / capSegs b e / 64 * 64

/-- Bytes per granule (R405). -/
def capGran (b : Blk) (e : Nat) : Nat :=
  if capMode b e = 1 then 128 else if capMode b e = 2 then 4 * popcount 32 (b.rd F.TRG_CCFG_TMASK e) else 16

/-- Byte offset of segment `g` in the capture store. -/
def capSegAt (b : Blk) (e g : Nat) : Nat := b.rd F.TRG_CBUF_BASE e * 4096 + g * capSegSize b e

/-- Segments fill back to back with no trigger (R408). -/
def capCont (b : Blk) (e : Nat) : Bool := capMode b e == 3 || b.on F.TRG_CCFG_TMODE e

/-- Acquisition ports an engine takes data from. -/
def capPorts (b : Blk) (e : Nat) : List Nat :=
  if capMode b e = 3 then (List.range 16).filter (fun k => bit (b.rd F.TRG_CCFG_TMASK e) k)
  else [b.rd F.TRG_CCFG_PORT e]

/-- The engine's owner owns the trigger source (R406). -/
def capSourceOk (b : Blk) (e : Nat) : Bool :=
  let o := b.owner (144 + e)
  let i := b.rd F.TRG_CCFG_TSELIDX e
  match b.rd F.TRG_CCFG_TSELK e with
  | 0 => o == 0
  | 1 => b.chanOwner i == o
  | 2 => o == 0
  | _ => match b.rd F.EVF_CHCFG_SEC (i % 256) with
    | 0 => o == 0
    | 1 => b.rd F.EVF_CHCFG_OKIND (i % 256) == 0 && b.rd F.EVF_CHCFG_OIDX (i % 256) == o || o == 0
    | _ => true

/-- The checks of ARM in their order: the STATUS (R406). -/
def capCheck (b : Blk) (e : Nat) : Nat :=
  let mode := capMode b e
  let tm := b.rd F.TRG_CCFG_TMASK e
  let base := b.rd F.TRG_CBUF_BASE e
  let n := b.rd F.TRG_CBUF_NPAGE e
  let o := b.owner (144 + e)
  if mode = 0 ∨ (mode = 2 ∧ tm = 0) ∨ (mode = 3 ∧ tm % 2 ^ 16 = 0) then 1
  else if n = 0 ∨ 6144 < base + n then 2
  else if (List.range 16).any (fun x => decide (x ≠ e) && b.capState x != cIdle &&
      decide (b.rd F.TRG_CBUF_BASE x < base + n) &&
      decide (base < b.rd F.TRG_CBUF_BASE x + b.rd F.TRG_CBUF_NPAGE x)) then 3
  else if (capPorts b e).any (fun k => b.owner (48 + k) != o) || (!capCont b e && !capSourceOk b e) then 4
  else if (mode ≠ 3 ∧ capSegSize b e < 64 + (b.rd F.TRG_CWIN_PRE e + b.rd F.TRG_CWIN_POST e) * capGran b e) ∨
      (capCont b e ∧ capSegSize b e < 128) then 5
  else 0

def showFree (b : Blk) (e : Nat) : Blk := b.wr F.TRG_CSTAT_FREESEG (capSegs b e - (b.cap e).busy.length) e

/-- CAPTURE_ARM (R406), on an engine that is IDLE or STOPPED. Log 64 (DEDUCED). -/
def captureArm (e : Nat) (b : Blk) : Blk :=
  if b.capState e ≠ cIdle ∧ b.capState e ≠ cStopped then b
  else
    let st := capCheck b e
    let b := b.wr F.TRG_CSTAT_STATUS st e
    if st ≠ 0 then b.setCapState e cIdle
    else
      let b := b.setCap e { CapSt.reset with begin_ := granule b.now, posted := (b.cap e).posted,
                                              waiting := (b.cap e).waiting }
      showFree (b.setCapState e cCollect) e

/-- Ticks from the last tick of a granule to its reaching the engine (R405). -/
def capLat (b : Blk) (e : Nat) : Nat := if capMode b e = 1 then 17 else 44

/-- A stamp's anchor (R407). -/
def anchorOf (stamp : Nat) : Nat := stamp / 16 / 4 * 4

/-- First granule of the segment in progress. Log 108 (DEDUCED). -/
def capFirst (b : Blk) (e : Nat) : Nat :=
  let c := b.cap e
  match c.anchor with
  | some (s, _, _) => max c.begin_ (anchorOf s - 4 * b.rd F.TRG_CWIN_PRE e)
  | none => c.begin_

/-- Granules of the segment that have reached the engine by now, at most those of its window. -/
def capGot (b : Blk) (e : Nat) : Nat :=
  let c := b.cap e
  let f := capFirst b e
  let n := if f + 3 + capLat b e ≤ b.now then (b.now - 3 - capLat b e - f) / 4 + 1 else 0
  let room := (capSegSize b e - 64) / capGran b e
  match c.anchor with
  | some (s, _, _) => min n ((anchorOf s + 4 * b.rd F.TRG_CWIN_POST e - f) / 4)
  | none => if capCont b e then min n room else min n (b.rd F.TRG_CWIN_PRE e)

/-- The header of R409 below its generation word. Log 64 (DEDUCED). -/
def capHeader (b : Blk) (e len flags : Nat) : List Byte :=
  let c := b.cap e
  let a := match c.anchor with | some (s, k, _) => (s, k) | none => (0, 0)
  let first := if capMode b e = 3 then c.first else capFirst b e
  let pre := match c.anchor with | some (s, _, _) => (anchorOf s - capFirst b e) / 4 | none => 0
  let short := match c.anchor with
    | some (s, _, _) => decide (anchorOf s < capFirst b e + 4 * b.rd F.TRG_CWIN_PRE e)
    | none => false
  leBytes 8 (a.1 % 2 ^ 52) ++ leBytes 8 (first % (if capMode b e = 3 then 2 ^ 52 else 2 ^ 48)) ++ leBytes 2 pre ++
    leBytes 2 (e + 256 * capMode b e) ++ leBytes 4 len ++ leBytes 2 (flags + 2 * b2n short) ++ leBytes 2 a.2 ++
    leBytes 4 c.segSeq ++ leBytes 28 0

/-- The capture-ring entry below its generation word (R466). -/
def capEntry (b : Blk) (e len flags : Nat) : List Byte :=
  let h := capHeader b e len flags
  leBytes 2 e ++ (h.drop 24).take 2 ++ leBytes 4 (b.cap e).segSeq ++ leBytes 4 (capSegAt b e (b.cap e).seg) ++
    leBytes 4 len ++ h.take 8 ++ leBytes 4 0

/-- Closed segments go to the owner's capture ring while it has room (R456, R466). -/
def capPost (e : Nat) : List (Nat × List Byte) → Blk → Blk
  | [], b => b.setCap e { b.cap e with waiting := [] }
  | (g, x) :: t, b =>
    let o := b.owner (144 + e)
    if ringRoom b o 3 then
      let n := ringProduced b o 3
      let b := ringPut b o 3 x
      capPost e t (b.setCap e { b.cap e with posted := (b.cap e).posted ++ [(n, g)] })
    else b.setCap e { b.cap e with waiting := (g, x) :: t }

/-- The next free segment after `g`, in cyclic order. -/
def nextSeg (b : Blk) (e g : Nat) : Option Nat :=
  ((List.range (capSegs b e)).map (fun i => (g + 1 + i) % capSegs b e)).find? (fun x => !(b.cap e).busy.contains x)

/-- The segment in progress is closed: data and header written, the entry posted, the segment filled
(R409).  The granules come from the engine's source; a HITS segment holds its records. Log 63 (DESIGN CHOICE). -/
def closeSegment (b : Blk) (m : Mem) (e : Nat) (data : List Byte) (flags : Nat) : Blk × Mem :=
  let c := b.cap e
  let hits := capMode b e == 3
  let len := if hits then c.recs.length / 16 else capGot b e
  let want := len * capGran b e
  let free : List Byte := (List.range (want - data.length)).map (fun i => BitVec.ofNat 8 (Config.free (b.freeCtr + i)))
  let body := if hits then c.recs else data.take want ++ free
  let b := if hits then b else { b with freeCtr := b.freeCtr + (want - data.length) }
  let at_ := captBase + capSegAt b e c.seg
  let w := storeWrite b m (at_ + 64) body
  let w := storeWrite w.1 w.2 at_ (capHeader b e len flags ++ leBytes 4 (generation c.segSeq))
  let b := w.1
  let x := capEntry b e len flags
  let b := b.setCap e { c with busy := c.busy ++ [c.seg], segSeq := c.segSeq + 1, anchor := none, recs := [] }
  let b := capPost e ((b.cap e).waiting ++ [(c.seg, x)]) b
  (showFree b e, w.2)

/-- After a close: the engine goes on in the next free segment, waits for one, or stops (R407, R408). -/
def capGoOn (b : Blk) (e : Nat) : Blk :=
  match nextSeg b e (b.cap e).seg with
  | some g => (b.setCap e { b.cap e with seg := g, begin_ := granule b.now }).setCapState e cCollect
  | none => b.setCapState e cFull

/-- An engine of back-to-back segments has no free segment after the present one (R408). -/
def capExhausted (b : Blk) (e : Nat) : Bool :=
  capCont b e && !(List.range (capSegs b e)).any (fun g => g != (b.cap e).seg && !(b.cap e).busy.contains g)

/-- Overflow (R408, R409): OVF in the header, STOPPED, the memory event. -/
def capOverflow (b : Blk) (m : Mem) (e : Nat) (data : List Byte) : Blk × Mem :=
  let w := closeSegment b m e data 1
  (((w.1.stick F.TRG_CSTAT_OVF e).setCapState e cStopped).publish 995 e w.1.now, w.2)

/-- CAPTURE_OVERFLOW. Log 63 (DESIGN CHOICE). -/
def captureOverflow (e : Nat) (data : List Byte) (m : Mem) (b : Blk) : Blk × Mem :=
  if b.capState e = cCollect ∨ b.capState e = cPost then capOverflow b m e data else (b, m)

/-- The tick at which the last granule of the window reaches the engine (R407). -/
def capDone (b : Blk) (e stamp : Nat) : Nat :=
  anchorOf stamp + 4 * b.rd F.TRG_CWIN_POST e - 1 + capLat b e

/-- The segment is complete: its window has reached the engine, or it is full (R407, R408). -/
def capComplete (b : Blk) (e : Nat) : Bool :=
  match (b.cap e).anchor with
  | some (s, _, _) => b.capState e == cPost && decide (capDone b e s ≤ b.now)
  | none =>
    b.capState e == cCollect && capCont b e &&
      (if capMode b e = 3 then decide (capSegSize b e < 64 + (b.cap e).recs.length + 16)
       else decide ((capSegSize b e - 64) / capGran b e ≤ capGot b e))

/-- SEGMENT_CLOSE (R407 to R409). Log 6 (DESIGN CHOICE), 63 (DESIGN CHOICE). -/
def segmentClose (e : Nat) (data : List Byte) (m : Mem) (b : Blk) : Blk × Mem :=
  if !capComplete b e then (b, m)
  else if capExhausted b e then capOverflow b m e data
  else
    let w := closeSegment b m e data 0
    (capGoOn w.1 e, w.2)

/-- CAPTURE_FLUSH (R408): FLUSH µs have passed since the first record of a HITS segment. -/
def captureFlush (e : Nat) (m : Mem) (b : Blk) : Blk × Mem :=
  if b.capState e ≠ cCollect ∨ capMode b e ≠ 3 ∨ (b.cap e).recs.isEmpty ∨ b.rd F.TRG_CWIN_FLUSH e = 0 ∨
      b.elapsed < (b.cap e).begin_ + 800 * b.rd F.TRG_CWIN_FLUSH e then (b, m)
  else if capExhausted b e then capOverflow b m e []
  else
    let w := closeSegment b m e [] 0
    (capGoOn w.1 e, w.2)

/-- CAPTURE_STOP (R409). Log 63 (DESIGN CHOICE). -/
def captureStop (e : Nat) (data : List Byte) (m : Mem) (b : Blk) : Blk × Mem :=
  if b.capState e = cCollect ∨ b.capState e = cPost then
    let w := closeSegment b m e data 0
    (w.1.setCapState e cIdle, w.2)
  else (b.setCapState e cIdle, m)

/-- The segment closes with SRC_LOST and the engine stops: a selected port is contained (R409). -/
def captureLost (b : Blk) (m : Mem) (e : Nat) : Blk × Mem :=
  if b.capState e = cCollect ∨ b.capState e = cPost then
    let w := closeSegment b m e [] 8
    (w.1.setCapState e cStopped, w.2)
  else (b, m)

/-- CAPTURE_TRIGGER (R407): a trigger with a stamp and its kind. -/
def captureTrigger (e stamp kind : Nat) (b : Blk) : Blk :=
  if capCont b e then b
  else
    let c := b.cap e
    if b.capState e = cCollect then
      (b.setCap e { c with anchor := some (stamp, kind, b.elapsed) }).setCapState e cPost
    else if b.capState e = cPost then
      let b := b.inc F.TRG_CSTAT_TRIG_BUSY 1 e
      match c.anchor with
      | some (s, _, t) => if t = b.elapsed ∧ stamp < s then b.setCap e { c with anchor := some (stamp, kind, t) } else b
      | none => b
    else if b.capState e = cFull then b.inc F.TRG_CSTAT_TRIG_MISS 1 e
    else b

/-- A segment returned by the host is free again (R408, R466). -/
def capReturn (b : Blk) (o e cons : Nat) : Blk :=
  if b.owner (144 + e) ≠ o then b
  else
    let c := b.cap e
    let back := (c.posted.takeWhile (fun x => decide ((cons + 2 ^ 32 - x.1 - 1) % 2 ^ 32 < 2 ^ 31))).map (·.2)
    let b := b.setCap e { c with posted := c.posted.drop back.length, busy := c.busy.filter (fun g => !back.contains g) }
    let b := capPost e (b.cap e).waiting b
    let b := showFree b e
    if b.capState e = cFull then capGoOn b e else b

/-- Sources of R407 trigger every engine that selects them. -/
def capSelect (b : Blk) (kind idx stamp : Nat) : Blk :=
  (List.range 16).foldl (fun b e =>
    if b.rd F.TRG_CCFG_TSELK e = kind ∧ b.rd F.TRG_CCFG_TSELIDX e = idx then
      b.sched 0 (.captureTrigger (Fin.ofNat 16 e) stamp 0) else b) b

/-! ### General units (R400 to R402) -/

/-- Ticks from a sample's date to the tick it reaches the unit (R400). Log 65 (DEDUCED). -/
def unitDelay (b : Blk) (u : Nat) : Nat :=
  match b.act F.TRG_GCFG_SRCK u with
  | 0 => 43 + 2 * 2 ^ b.act F.TRG_TCFG_AVG (b.act F.TRG_GCFG_SRCIDX u)
  | 1 => 44
  | 2 => 18
  | 3 => 3
  | _ => 0

/-- The ADC trim, in 1/128 ticks, that the stamps of unit `u`'s source are corrected for (R74, R395).
Log 108 (DEDUCED). -/
def unitTrim (b : Blk) (u : Nat) : Nat :=
  let i := b.act F.TRG_GCFG_SRCIDX u
  match b.act F.TRG_GCFG_SRCK u with
  | 0 | 1 => acqTrim b (slotOfChan b i).1
  | 2 => acqTrim b i
  | _ => 0

/-- The tick in which a source that unit `u` watches samples what is stamped `x`, at its end (R74).
Log 108 (DEDUCED). -/
def unitTick (b : Blk) (u : Nat) (x : Int) : Nat := ((8 * x + unitTrim b u + 127) / 128).toNat

/-- A qualification with stamp `x`: the unit decides one tick after its source would deliver a sample
dated there, and not before the source has shown it (R402). Log 65 (DEDUCED). -/
def unitQualify (b : Blk) (u : Nat) (x : Int) : Blk :=
  let at_ := unitTick b u x + unitDelay b u + 1
  b.sched (max (at_ - b.now) 1) (.generalUnitFire (Fin.ofNat 32 u) x)

/-- A timeout counted from a crossing (R401). -/
def unitTimeoutFrom (b : Blk) (u : Nat) (x : Int) : Blk :=
  if b.act F.TRG_GCFG_QUAL u = 5 ∧ b.actOn F.TRG_GCFG_EN u then
    let at_ := unitTick b u (x + b.act F.TRG_GTIME_T1 u) + unitDelay b u + 1
    b.sched (max (at_ - b.now) 1) (.generalUnitTimeout (Fin.ofNat 32 u) x)
  else b

/-- The source rises above the upper level at `x`. -/
def unitRise (b : Blk) (u : Nat) (x : Int) : Blk :=
  let s := b.unit u
  let t1 : Int := b.act F.TRG_GTIME_T1 u
  let b := b.setUnit u { s with above := true, rise := some x, reached := true, crossed := x }
  let b := unitTimeoutFrom b u x
  let took := s.lowRise.map (fun l => x - l)
  match b.act F.TRG_GCFG_QUAL u with
  | 0 => unitQualify b u x
  | 6 => match took with | some d => if d < t1 then unitQualify b u x else b | none => b
  | 7 => match took with | some d => if t1 < d then unitQualify b u x else b | none => b
  | _ => b

/-- The source falls from above the upper level at `x`. -/
def unitFall (b : Blk) (u : Nat) (x : Int) : Blk :=
  let s := b.unit u
  let t1 : Int := b.act F.TRG_GTIME_T1 u
  let t2 : Int := b.act F.TRG_GTIME_T2 u
  let b := unitTimeoutFrom (b.setUnit u { s with above := false, rise := none, crossed := x }) u x
  match s.rise with
  | none => b
  | some r =>
    match b.act F.TRG_GCFG_QUAL u with
    | 1 => if t1 < x - r then unitQualify b u (r + t1) else b
    | 2 => if x - r < t1 then unitQualify b u x else b
    | 3 => if t1 ≤ x - r ∧ x - r < t2 then unitQualify b u x else b
    | _ => b

/-- A pulse that has lasted longer than T1 by `x` (WIDTH_GT). -/
def unitLasts (b : Blk) (u : Nat) (x : Int) : Blk :=
  match (b.unit u).rise with
  | some r =>
    let t1 : Int := b.act F.TRG_GTIME_T1 u
    if b.act F.TRG_GCFG_QUAL u = 1 ∧ t1 < x - r then
      unitQualify (b.setUnit u { b.unit u with rise := none }) u (r + t1)
    else b
  | none => b

/-- A sample of an analogue source reaches unit `u`: value and date in 1/128 ticks (R400, R401). -/
def unitSample (u : Nat) (v0 date : Int) (b : Blk) : Blk :=
  if !b.actOn F.TRG_GCFG_EN u then b
  else
    let neg := b.act F.TRG_GCFG_POL u = 1
    let sg : Int := if neg then -1 else 1
    let v := sg * v0
    let hi := sg * toS 32 (b.act F.TRG_GLEV_LEVHI u)
    let lo := sg * toS 32 (b.act F.TRG_GLEV_LEVLO u)
    let s := b.unit u
    let cr := fun (lev : Int) => match s.last with
      | some (pv, pd) => crossing b.fresh pd pv date v lev
      | none => stampOf date
    let up := decide (hi < v)
    let low := decide (lo < v)
    let first := s.last.isNone
    let b := b.spend.setUnit u { s with last := some (v, date) }
    if first then b.setUnit u { b.unit u with above := up, low := low }
    else
      let b := if low && !s.low then b.setUnit u { b.unit u with low := true, lowRise := some (cr lo), reached := false } else b
      let b := if up && !s.above then unitRise b u (cr hi)
        else if !up && s.above then unitFall b u (cr hi)
        else unitLasts b u (stampOf date)
      if !low && s.low then
        let was := b.unit u
        let b := b.setUnit u { was with low := false, lowRise := none }
        if b.act F.TRG_GCFG_QUAL u = 4 ∧ was.lowRise.isSome ∧ !was.reached then unitQualify b u (cr lo) else b
      else b

/-- The level of a binary source changes at `x` (R400, R401). -/
def unitLevel (u : Nat) (level : Bool) (x : Int) (b : Blk) : Blk :=
  if !b.actOn F.TRG_GCFG_EN u then b
  else
    let up := if b.act F.TRG_GCFG_POL u = 1 then !level else level
    let was := (b.unit u).above
    if up && !was then unitRise b u x else if !up && was then unitFall b u x else b

/-- Units whose source in force is kind `k`, index `i`. -/
def unitsOn (b : Blk) (k i : Nat) : List Nat :=
  (List.range 32).filter (fun u => b.actOn F.TRG_GCFG_EN u && b.act F.TRG_GCFG_SRCK u == k &&
    b.act F.TRG_GCFG_SRCIDX u == i)

/-- A unit is in its hold-off for a stamp (R402). -/
def unitHeld (b : Blk) (u : Nat) (x : Int) : Bool :=
  match b.act F.TRG_GCFG_HMODE u with
  | 1 => match (b.unit u).fireAt with
    | some f => decide (x - f < 16 * (b.act F.TRG_GCFG_HOLD u : Int))
    | none => false
  | 2 => decide (0 < (b.unit u).holdLeft)
  | _ => false

/-- ARMED and HOLDING of TRG_GSTAT. -/
def showUnit (b : Blk) (u : Nat) : Blk :=
  let h := b.actOn F.TRG_GCFG_EN u && unitHeld b u (16 * b.now)
  (b.wr F.TRG_GSTAT_HOLDING (b2n h) u).wr F.TRG_GSTAT_ARMED (b2n (b.actOn F.TRG_GCFG_EN u && !h)) u

/-- GENERAL_UNIT_FIRE (R402): a qualification with its stamp, unless a hold-off ignores it. Log 65 (DEDUCED). -/
def generalUnitFire (u : Nat) (x : Int) (b : Blk) : Blk :=
  if !b.actOn F.TRG_GCFG_EN u then b
  else if unitHeld b u x then
    showUnit (b.setUnit u { b.unit u with holdLeft := (b.unit u).holdLeft - 1 }) u
  else
    let b := b.setUnit u { b.unit u with fireAt := some x, holdLeft := b.act F.TRG_GCFG_HOLD u }
    let b := b.wr F.TRG_GSTAT_STAMP (stampField x) u
    let b := b.publish (768 + u) (stampField x % 2 ^ 32) b.now
    showUnit (capSelect b 0 u (stampField x)) u

/-- GENERAL_UNIT_TIMEOUT (R401): no crossing since `since`. -/
def generalUnitTimeout (u : Nat) (since : Int) (b : Blk) : Blk :=
  if b.act F.TRG_GCFG_QUAL u = 5 ∧ (b.unit u).crossed = since then
    generalUnitFire u (since + b.act F.TRG_GTIME_T1 u) b
  else b

/-- The unit drops partial qualification and hold-off, and re-arms (R402). -/
def unitRestart (u : Nat) (b : Blk) : Blk :=
  let x : Int := 16 * (b.now + 1)
  let lvl := b.rd F.TRG_GCFG_SRCK u == 3 && b.on F.TRG_XIN_LEVEL (b.rd F.TRG_GCFG_SRCIDX u)
  let up := if b.rd F.TRG_GCFG_POL u = 1 ∧ b.rd F.TRG_GCFG_SRCK u ∈ [1, 3, 4] then !lvl else lvl
  let b := b.setUnit u { UnitSt.reset with crossed := x, above := up }
  if b.rd F.TRG_GCFG_QUAL u = 5 ∧ b.on F.TRG_GCFG_EN u then
    b.sched (max 1 ((b.rd F.TRG_GTIME_T1 u + 15) / 16 + unitDelay b u + 2)) (.generalUnitTimeout (Fin.ofNat 32 u) x)
  else b

/-- Fields of a register staged to take hold at the next tick, by the physical function (R9). -/
def stageTicks (b : Blk) (i v : Nat) (fs : List Fld) : Blk :=
  fs.foldl (fun b f => hostWrite b 0 2 .tick f (field v f.lsb f.wid) i 0) b

/-- TRG_GCFG_WRITE (R400 to R402): word 0 TRG_GCFG, 1 TRG_GLEV, 2 TRG_GTIME. -/
def trgGcfgWrite (u word v : Nat) (b : Blk) : Blk :=
  match word with
  | 0 =>
    let k := field v 12 3
    let q := field v 16 3
    let i := field v 0 9
    if 5 ≤ k ∨ field v 20 2 = 3 then b
    else if (k ∈ [1, 3, 4] ∧ q ∈ [4, 6, 7]) ∨ (k ∈ [2, 3] ∧ 16 ≤ i) ∨ (k = 4 ∧ 80 ≤ i) then
      b.stick F.TRG_GSTAT_CFG_REFUSED u
    else
      unitRestart u (stageTicks b u v [F.TRG_GCFG_HOLD, F.TRG_GCFG_EN, F.TRG_GCFG_HMODE, F.TRG_GCFG_POL,
        F.TRG_GCFG_QUAL, F.TRG_GCFG_SRCK, F.TRG_GCFG_SRCIDX])
  | 1 =>
    if toS 32 v < toS 32 (v / 2 ^ 32) then b.stick F.TRG_GSTAT_CFG_REFUSED u
    else unitRestart u (stageTicks b u v [F.TRG_GLEV_LEVLO, F.TRG_GLEV_LEVHI])
  | _ => unitRestart u (stageTicks b u v [F.TRG_GTIME_T2, F.TRG_GTIME_T1])

/-! ### External inputs (R403, R404) -/

/-- TRIG_IN_EDGE: input `i` took a new level at a sample of the tick three ticks ago, and held it.
Log 67 (DEDUCED). -/
def trigInEdge (i : Nat) (level : Bool) (sample held : Nat) (b : Blk) : Blk :=
  let t := b.now - 3
  if held < b.rd F.TRG_XIN_DEB i + 1 ∨ b.on F.TRG_XIN_LEVEL i = level then b
  else
    let b := b.wr F.TRG_XIN_LEVEL (b2n level) i
    if b.trg.lastEdge.find i = some t then
      (unitsOn b 3 i).foldl (fun b u => unitLevel u level (16 * (t + 1)) b) (b.inc F.TRG_XIN_XDROP 1 i)
    else
      let b := { b with trg := { b.trg with lastEdge := b.trg.lastEdge.set i t } }
      let x := rndDiv (256 * (t : Int) + 16 * sample - b.rdS F.TRG_XIN_SKEW i) 16
      let sel := bit (b.rd F.TRG_XIN_EDGES i) (if level then 0 else 1)
      let b := if sel then capSelect (b.publish (800 + i) (b2n level) b.now) 2 i (stampField x) else b
      (unitsOn b 3 i).foldl (fun b u => unitLevel u level x b) b

/-! ### Tone triggers (R396 to R399) -/

/-- The slot of trigger `q`'s readout pair is watched (R396, R399). -/
def toneActive (b : Blk) (q : Nat) : Bool :=
  let p := slotOfChan b q
  b.actOn F.TRG_TCFG_EN q && b.rd F.ACQ_DSLOT_ACT_MODE p.1 p.2 == 1 && b.actOn F.ACQ_CTRL_EN p.1 &&
    b.rd F.RCV_RSTAT_STATE (p.1 / 2) == 0

/-- The watched value from the averaged sample (R397). -/
def toneValue (b : Blk) (q : Nat) (i qq : Int) : Int :=
  if b.act F.TRG_TCFG_SIG q = 0 then
    let n := (i * i + qq * qq).toNat
    let r := isqrtBits 20 n 0
    if r < n - r * r then r + 1 else r
  else toS 16 (ofS 16 ((atan2Turns qq i : Int) - b.act F.TRG_TCFG_PREF q))

/-- The watched level. -/
def toneLevel (b : Blk) (q : Nat) : Int :=
  if b.act F.TRG_TCFG_SIG q = 0 then b.act F.TRG_TLEV_LEV q else toS 16 (b.act F.TRG_TLEV_LEV q)

/-- The condition of R398 after a step of value `v`, its state before being `was`. -/
def toneCond (b : Blk) (q : Nat) (was : Bool) (v : Int) (old : Option Int) : Bool :=
  let lev := toneLevel b q
  let h : Int := b.act F.TRG_TLEV_HYS q
  let pol := b.act F.TRG_TCFG_POL q
  if was then (if pol = 0 then !decide (v ≤ lev - h) else !decide (lev + h ≤ v))
  else
    (if pol = 0 then decide (lev < v) else decide (v < lev)) &&
      (b.act F.TRG_TCFG_SLEWN q == 0 || old.any (fun o => decide ((b.act F.TRG_TLEV_SLEW q : Int) ≤ (v - o).natAbs)))

def toneWidth (b : Blk) (q : Nat) : Nat := max 1 (b.act F.TRG_TCFG_WIDTH q)

/-- STATE of TRG_TSTAT. -/
def showTone (b : Blk) (q : Nat) : Blk :=
  let s := b.tone q
  b.wr F.TRG_TSTAT_STATE (if !toneActive b q then 0 else if s.since.isSome then 3 else if s.cond then 2 else 1) q

/-- One bin step of trigger `q` with demodulated sample `x` (R397, R398). -/
def toneStep (b : Blk) (q n : Nat) (x : Int × Int) (judge : Bool) : Blk :=
  if !toneActive b q then (b.setTone q ToneSt.reset).wr F.TRG_TSTAT_STATE 0 q
  else
    let s := b.tone q
    let avg := b.act F.TRG_TCFG_AVG q
    let xs := (x :: s.xs).take 64
    let since := s.since.map (· + 1)
    if xs.length < 2 ^ avg ∨ !judge then showTone (b.setTone q { s with xs := xs, since := since }) q
    else
      let w := xs.take (2 ^ avg)
      let i := rndShift (w.foldl (fun (a : Int) y => a + y.1) 0) avg
      let qq := rndShift (w.foldl (fun (a : Int) y => a + y.2) 0) avg
      let v := toneValue b q i qq
      let date : Int := 128 * (4 * (n : Int) + 2 - 2 * (2 ^ avg - 1)) - acqTrim b (slotOfChan b q).1
      let sl := b.act F.TRG_TCFG_SLEWN q
      let old := (s.vs.drop (sl - 1)).head?.map (·.1)
      let cond := toneCond b q s.cond v (if sl = 0 then none else old)
      let cross := if cond && !s.cond then
          (match s.vs.head? with
           | some (pv, pd) => crossing b.fresh pd pv date v (toneLevel b q)
           | none => (b.fresh : Int))
        else s.cross
      let run := if cond then s.run + 1 else 0
      let b := b.spend.setTone q { s with xs := xs, vs := ((v, date) :: s.vs).take 256, cond := cond, run := run,
                                          cross := cross, since := since }
      let b := (unitsOn b 0 q).foldl (fun b u => unitSample u v date b) b
      let b := if since.isNone ∧ cond ∧ run = toneWidth b q then b.sched 0 (.toneTriggerFire (Fin.ofNat 512 q)) else b
      let b := if !cond && since.any (fun k => decide (b.act F.TRG_TCFG_HOLD q ≤ k)) then
          b.sched 0 (.toneTriggerRearm (Fin.ofNat 512 q)) else b
      showTone b q

/-- TONE_TRIGGER_FIRE (R398, R399). -/
def toneTriggerFire (q : Nat) (b : Blk) : Blk :=
  let s := b.tone q
  if s.since.isSome ∨ !s.cond ∨ s.run < toneWidth b q then b
  else
    let b := (b.setTone q { s with since := some 0 }).wr F.TRG_TSTAT_STAMP (stampField s.cross) q
    let v := match s.vs.head? with | some y => y.1 | none => 0
    (b.wr F.TRG_TSTAT_STATE 3 q).sched 3 (.toneTriggerArrive (Fin.ofNat 512 q) v s.cross)

/-- A hit record (R410). -/
def hitRecord (q : Nat) (v x : Int) : List Byte :=
  leBytes 2 q ++ leBytes 2 0 ++ leBytes 4 (ofS 32 v) ++ leBytes 8 (stampField x)

/-- A hit record enters every HITS engine that selects the port (R408, R410). -/
def logHit (b : Blk) (q : Nat) (v x : Int) : Blk :=
  (List.range 16).foldl (fun b e =>
    let c := b.cap e
    if capMode b e = 3 ∧ b.capState e = cCollect ∧ (slotOfChan b q).1 ∈ capPorts b e then
      let fst := c.recs.isEmpty
      let c := if fst then { c with first := stampField x, begin_ := b.elapsed } else c
      let b := b.setCap e { c with recs := c.recs ++ hitRecord q v x }
      let fl := b.rd F.TRG_CWIN_FLUSH e
      let b := if fst ∧ fl ≠ 0 then b.sched (800 * fl) (.captureFlush (Fin.ofNat 16 e)) else b
      if capComplete b e then b.sched 0 (.segmentClose (Fin.ofNat 16 e) []) else b
    else b) b

/-- TONE_TRIGGER_ARRIVE (R399): the firing reaches the timing island. -/
def toneTriggerArrive (q : Nat) (v x : Int) (b : Blk) : Blk :=
  let b := b.inc F.TRG_TCNT_HITS 1 q
  let b := (unitsOn b 1 q).foldl (fun b u => unitLevel u false (x + 64) (unitLevel u true x b)) b
  logHit (capSelect b 1 q (stampField x)) q v x

/-- TONE_TRIGGER_REARM (R398). -/
def toneTriggerRearm (q : Nat) (b : Blk) : Blk :=
  let s := b.tone q
  if !s.cond && s.since.any (fun k => decide (b.act F.TRG_TCFG_HOLD q ≤ k)) then
    showTone (b.setTone q { s with since := none }) q
  else b

/-- TRG_TCFG_WRITE (R397): a write of TRG_TCFG or TRG_TLEV has taken hold; the average restarts. -/
def trgTcfgWrite (q : Nat) (b : Blk) : Blk :=
  showTone (b.setTone q { ToneSt.reset with since := (b.tone q).since }) q

/-- The sample x′ of slot `s` of port `k` at bin step `n` (R144). -/
def toneSample (b : Blk) (k s n : Nat) (samples : List Nat) : Int × Int :=
  rotate b.fresh (unpackIq (samples.getD 0 0)) (ofS 32 (toS 32 (b.rd F.ACQ_DSLOT_ACT_FNW k s) * n))

/-- BIN_STEP_TEST: the oldest window of the slot takes its step, and the slot's tone trigger watches the
same sample (R396); a step whose average spans a calibration granule is not evaluated (R536). -/
def binStep (m : Mem) (k s : Nat) (samples : List Nat) (ovr : Bool) (b : Blk) : Blk :=
  let n := match (b.demod k s).wins with
    | w :: _ => if w.due ∨ w.klen ≤ w.n then (b.now - 44) / 4 else w.n0 + w.n
    | [] => (b.now - 44) / 4
  let x := toneSample b k s n (if liveAt (b.acq k).live (4 * n) then samples else [])
  let q := chanOfSlot b k s
  let avg := b.act F.TRG_TCFG_AVG q
  let clear := !(b.adcCal k).spans.any (fun p =>
    decide (p.1 < 4 * n + 4) && decide (4 * n + 4 < p.2 + 4 * 2 ^ avg))
  let b := binStepTest m k s samples ovr b
  if b.actOn F.TRG_TCFG_EN q then toneStep b q n x clear else b

/-! ### Markers (R411 to R413) -/

/-- MARKER_PATTERN_START: by TRG_MCMD (`by_` 0) or by MRKP of sequencer `by_ - 1`. -/
def markerPatternStart (k pat by_ : Nat) (b : Blk) : Blk :=
  let s := b.mark k
  if by_ = 0 then
    if b.actOn F.TRG_MCFG_EN k then b.setMark k { s with next := some (granule (b.now + 2), pat, false) } else b
  else if b.rd F.TRG_MCFG_SEQ k ≠ by_ - 1 then b.inc F.TRG_MSTAT_MRK_REFUSED 1 k
  else if b.actOn F.TRG_MCFG_EN k then
    let nx := match s.next with | some (t, _, _) => if t ≤ b.now then none else s.next | none => none
    (b.setMark k { s with play := some (pat, b.now), next := nx }).wr F.TRG_MSTAT_LAST_PAT pat k
  else b

/-- The nibble of tick `t` of a pattern: level D and timing set TS (R411). -/
def patTick (b : Blk) (pat t : Nat) : Bool × Nat :=
  let w := b.rd F.TRG_PAT_BITS pat (t / 16)
  (bit w (4 * (t % 16)), field w (4 * (t % 16) + 1) 3)

/-- An edge of marker `k` at position `pos` in 1/64 ticks, or its drop (R413). Log 67 (DEDUCED). -/
def placeEdge (b : Blk) (k : Nat) (pos : Int) (level : Bool) : Blk :=
  if pos ≤ (b.mark k).lastPos then b.inc F.TRG_MSTAT_EDGE_DROP 1 k
  else
    let b := (b.setMark k { b.mark k with lastPos := pos }).wr F.TRG_MSTAT_LEVEL (b2n level) k
    b.emit (.marker k pos.toNat level)

/-- Markers are driven low whatever plays (R411). -/
def markersLow (b : Blk) : Bool :=
  b.pwr.safe || b.pwr.off || b.rd F.TIM_STATUS_SCLK_LOCK == 0 || b.tim.relocking

/-- Marker `k` at one tick: the pattern that starts, its edge of this tick, its end (R411 to R413). -/
def markerTick (b : Blk) (k : Nat) : Blk :=
  let s := b.mark k
  if !b.actOn F.TRG_MCFG_EN k || markersLow b then
    if s.play.isSome ∨ s.next.isSome ∨ s.prevD ∨ b.on F.TRG_MSTAT_LEVEL k then
      let b := if b.on F.TRG_MSTAT_LEVEL k then (b.wr F.TRG_MSTAT_LEVEL 0 k).emit (.marker k (64 * b.now) false) else b
      b.setMark k { s with play := none, next := none, prevD := false }
    else b
  else
    let b := match s.next with
      | some (t, p, _) => if t ≤ b.now then
          (b.setMark k { s with play := some (p, t), next := none }).wr F.TRG_MSTAT_LAST_PAT p k else b
      | none => b
    match (b.mark k).play with
    | none => b
    | some (p, e) =>
      let t := b.now - e
      if 4 * b.rd F.TRG_PLEN_LEN p ≤ t then b.setMark k { b.mark k with play := none }
      else
        let d := patTick b p t
        let was := (b.mark k).prevD
        let b := b.setMark k { b.mark k with prevD := d.1 }
        if d.1 = was then b
        else
          let delay := if d.1 then b.act F.TRG_MTS_RISE k d.2 else b.act F.TRG_MTS_FALL k d.2
          placeEdge b k (64 * (b.now + 16) + delay + b.act F.TRG_MCFG_SKEW k) d.1

def execBinStepTest (k : AcqPort) (slot : Fin 32) (samples : List Nat) (ovr : Bool) (s : State) : Res :=
  onBlk (fun m => binStep m k slot samples ovr) s
def execToneTriggerFire (t : Chan) (s : State) : Res := onBlk (fun _ => toneTriggerFire t) s
def execToneTriggerArrive (t : Chan) (v stamp : Int) (s : State) : Res := onBlk (fun _ => toneTriggerArrive t v stamp) s
def execToneTriggerRearm (t : Chan) (s : State) : Res := onBlk (fun _ => toneTriggerRearm t) s
def execTrgTcfgWrite (t : Chan) (s : State) : Res := onBlk (fun _ => trgTcfgWrite t) s
def execGeneralUnitFire (u : Fin 32) (stamp : Int) (s : State) : Res := onBlk (fun _ => generalUnitFire u stamp) s
def execGeneralUnitTimeout (u : Fin 32) (since : Int) (s : State) : Res := onBlk (fun _ => generalUnitTimeout u since) s
def execTrgGcfgWrite (u : Fin 32) (word : Fin 3) (v : Nat) (s : State) : Res := onBlk (fun _ => trgGcfgWrite u word v) s
def execTrigInEdge (i : Fin 16) (level : Bool) (sample : Fin 16) (held : Nat) (s : State) : Res :=
  onBlk (fun _ => trigInEdge i level sample held) s
def execCaptureArm (e : Fin 16) (s : State) : Res := onBlk (fun _ => captureArm e) s
def execCaptureTrigger (e : Fin 16) (stamp : Nat) (kind : Fin 3) (s : State) : Res :=
  onBlk (fun _ => captureTrigger e stamp kind) s
def execCaptureSoft (e : Fin 16) (s : State) : Res := onBlk (fun _ b => captureTrigger e (16 * b.now) 2 b) s
def execCaptureStop (e : Fin 16) (data : List Byte) (s : State) : Res := onBoth (captureStop e data) s
def execSegmentClose (e : Fin 16) (data : List Byte) (s : State) : Res := onBoth (segmentClose e data) s
def execCaptureFlush (e : Fin 16) (s : State) : Res := onBoth (captureFlush e) s
def execCaptureOverflow (e : Fin 16) (data : List Byte) (s : State) : Res := onBoth (captureOverflow e data) s
def execMarkerPatternStart (mk : Fin 16) (pat : Fin 256) (by_ : Nat) (s : State) : Res :=
  onBlk (fun _ => markerPatternStart mk pat by_) s

end Sys2Proof.Machine
end

