-- ==== Sys2Proof/Machine/Frn.lean ====
section
/-!
DEFINITION. The Firn island: Firn time, the measurement sequence, comparators, thermal protection,
rules, wake causes and the SMBus target (R365 to R394).
-/

namespace Sys2Proof.Machine

def Blk.setFrn (b : Blk) (x : FrnSt) : Blk := { b with frn := x }

/-! ### Time and events (R366 to R368) -/

/-- FIRN_TIME_PAIRING (R367): the present Firn time is paired with the module time counter. Log 62 (DEDUCED). -/
def firnTimePairing (b : Blk) : Blk :=
  if b.tim.running then b.setFrn { b.frn with pairs := (b.rd F.FRN_TIME_FTIME, b.now) :: b.frn.pairs.take 1 }
  else b

/-- Events carry their Firn time for sources 816 to 927 alone (R422). -/
def carriesFirn (src : Nat) : Bool := decide (816 ≤ src) && decide (src ≤ 927)

/-- FIRN_EVENT_DELIVER (R368): the control fabric accepts the oldest event; a place thereby free is
taken by source 1023 if events were discarded (R420). Log 61 (DEDUCED). -/
def firnEventDeliver (b : Blk) : Blk :=
  match b.frn.evq with
  | [] => b
  | e :: t =>
    if b.pwr.off then b
    else
      let b := b.setFrn { b.frn with evq := t }
      let b := if b.frn.lost = 0 then b
        else
          let f := b.rd F.FRN_TIME_FTIME
          b.setFrn { b.frn with evq := t ++ [⟨1023, b.frn.lost, f, firnTick b f⟩], lost := 0 }
      b.sched 0 (.eventPublish (Fin.ofNat 1024 e.src) e.birth e.detail (if carriesFirn e.src then e.ftime else 0))

/-! ### FAULT_N and ALERT_N (R381, R382, R564, R622) -/

/-- FAULT_N is asserted (R564). -/
def faultN (b : Blk) : Bool :=
  b.pwr.safe || b.rd F.RCV_STATUS_TILE_OFF != 0 || b.on F.RCV_STATUS_TIMING || b.on F.FRN_THERM_SHDN ||
  (List.range 8).any (fun r => b.rd F.RCV_RSTAT_STATE r == 3 && b.on F.RCV_RSTAT_PERSIST r) ||
  (List.range 32).any (fun j => b.on F.FRN_RSTAT_FIRED j && b.on F.FRN_RCFG_A_FAULT j) ||
  (b.on F.RCV_CTRL_FN_ALL && ((List.range 8).any (fun r => b.rd F.RCV_RSTAT_STATE r != 0) ||
    b.rd F.RCV_STATUS_ISL_BUSY != 0))

/-- ALERT_N is held low (R381, R382). -/
def alertN (b : Blk) : Bool := b.on F.FRN_STATUS_RISE || b.on F.FRN_THERM_SHDN

/-! ### Rules (R383 to R386) -/

/-- y passes CMP of rule `j`. -/
def ruleTest (b : Blk) (j : Nat) (y : Int) : Bool :=
  let t1 := b.rdS F.FRN_RCOND_THR1 j
  let t2 := b.rdS F.FRN_RCOND_THR2 j
  match b.rd F.FRN_RCFG_CMP j with
  | 0 => decide (t1 < y)
  | 1 => decide (y < t1)
  | 2 => decide (y < t1) || decide (t2 < y)
  | _ => decide (t1 ≤ y) && decide (y ≤ t2)

def Blk.setRule (b : Blk) (j : Nat) (x : Bool × Nat) : Blk := b.setFrn { b.frn with rules := b.frn.rules.set j x }

/-- An evaluation of rule `j` counted toward PERSIST. -/
def ruleCount (b : Blk) (j : Nat) (c : Bool) : Blk :=
  let r := b.frn.rules.get (false, 0) j
  b.setRule j (true, if c then min (r.2 + 1) 16 else 0)

/-- A new value of a result or a sensor for the rules that watch it (R383). -/
def ruleValues (kind idx : Nat) (x : Int) (b : Blk) : Blk :=
  (List.range 32).foldl (fun b j =>
    if b.on F.FRN_RCFG_EN j ∧ b.rd F.FRN_RCFG_SRCKIND j = kind ∧ b.rd F.FRN_RCFG_SRCIDX j = idx then
      let r := b.frn.rules.get (false, 0) j
      let old := b.rdS F.FRN_RSTAT_FVAL j
      let y := if r.1 then old + (x - old) / 2 ^ b.rd F.FRN_RCFG_FK j else x
      ruleCount (b.wr F.FRN_RSTAT_FVAL (ofS 24 y) j) j (ruleTest b j y)
    else b) b

/-- The value of a comparator or system source: `none` while a comparator is UNSETTLED. -/
def ruleSource (b : Blk) (j : Nat) : Option Nat :=
  let i := b.rd F.FRN_RCFG_SRCIDX j
  if b.rd F.FRN_RCFG_SRCKIND j = 2 then
    (if b.rd F.FRN_CMPS_STATE i = 3 then none else some (b.rd F.FRN_CMPS_STATE i))
  else match i with
    | 0 => some (b2n b.pwr.safe)
    | 1 => some (b.rd F.FRN_THERM_SHDN)
    | 2 => some (b2n b.frn.hib)
    | 3 => some (b.rd F.FRN_STATUS_RISE)
    | _ => some 0

/-- Every RF port of a tile goes to HARD_MUTE at the tile's output stages. -/
def muteTile (b : Blk) (t : Nat) : Blk :=
  (List.range 48).foldl (fun b p => if portRegion p / 4 = t then hardMute b p .safe else b) b

/-- RULE_FIRE (R384): rule `j` performs its actions; A_RAMP acts through FIRED (`ruleTarget`). -/
def ruleFire (b : Blk) (j : Nat) : Blk :=
  let b := b.wr F.FRN_RSTAT_FIRED 1 j
  let b := if b.on F.FRN_RCFG_A_EVENT j then firnEvent b (896 + j) (b.rd F.FRN_RSTAT_FVAL j) else b
  let b := if b.on F.FRN_RCFG_A_WAKE j then b.sched 0 (.wake 1 j) else b
  let b := if b.on F.FRN_RCFG_A_FAULT j then b.stick F.FRN_STATUS_RULE_FAULT else b
  let shut := fun (b : Blk) t => if bit (b.rd F.FRN_RCFG_A_SHDN j) t then
    (muteTile b t).sched 0 (.faultDetected 6 t) else b
  shut (shut b 0) 1

/-- One rule in a pass (R383, R384). -/
def rulePassOne (b : Blk) (j : Nat) : Blk :=
  if !b.on F.FRN_RCFG_EN j then b
  else
    let b := if 2 ≤ b.rd F.FRN_RCFG_SRCKIND j then
        match ruleSource b j with
        | some y => ruleCount (b.wr F.FRN_RSTAT_FVAL y j) j (ruleTest b j y)
        | none => ruleCount b j false
      else b
    let r := b.frn.rules.get (false, 0) j
    let c := decide (0 < r.2)
    let b := b.wr F.FRN_RSTAT_TRUE (b2n c) j
    if b.on F.FRN_RSTAT_FIRED j then
      (if b.on F.FRN_RCFG_AUTO j && !c then b.wr F.FRN_RSTAT_FIRED 0 j else b)
    else if b.rd F.FRN_RCFG_PERSIST j + 1 ≤ r.2 then ruleFire b j
    else b

/-- RULE_PASS (R384): every 10 µs, in ascending rule number. -/
def rulePass (b : Blk) : Blk := (List.range 32).foldl rulePassOne b

/-- RELEASE (R384). -/
def ruleRelease (j : Nat) (b : Blk) : Blk := b.wr F.FRN_RSTAT_FIRED 0 j

/-! ### Thermal protection (R380 to R382) -/

/-- Thermal shutdown by sensor `s` (R382). Log 61 (DEDUCED). -/
def thermalShutdown (b : Blk) (s : Nat) : Blk :=
  if b.on F.FRN_THERM_SHDN then b
  else
    let b := (b.wr F.FRN_THERM_SHDN 1).wr F.FRN_THERM_SHDN_SRC s
    let b := firnEvent (hardMuteAll b .safe) 1014 0
    let b := { b with tim := { b.tim with running := false }, pwr := { b.pwr with off := true } }
    (b.sched 0 (.faultDetected 6 0)).sched 0 (.faultDetected 6 1)

/-- TEMP_UPDATE (R380, R381): sensor `s` reads `t` in 0.0625 °C. -/
def tempUpdate (b : Blk) (s : Nat) (t : Int) : Blk :=
  let f := b.rd F.FRN_TIME_FTIME
  let hist := ((t, f) :: b.frn.temps.get [] s).take 9
  let b := b.setFrn { b.frn with temps := b.frn.temps.set s hist }
  let b := (b.wr F.FRN_TEMP_TEMP (ofS 16 t) s).bump F.FRN_TEMP_SEQCNT s
  let rate : Option (Int × Int) := match hist.drop 8 with
    | (t0, f0) :: _ => some ((t - t0) * 50000000, (((f + 2 ^ 48 - f0) % 2 ^ 48 : Nat) : Int))
    | [] => none
  let was := b.frn.fast.contains s
  let above := rate.any (fun r => decide ((b.rd F.FRN_THERM_RISE_LIM : Int) * r.2 < r.1))
  let b := match rate with
    | some (n, d) =>
      let q := n / max d 1
      let r := if q * d = n then q else q + (b.fresh % 2 : Nat)
      (b.spend.wr F.FRN_TEMP_RATE (if -32768 ≤ r ∧ r ≤ 32767 then ofS 16 r else b.fresh) s)
    | none => b
  let b := b.setFrn { b.frn with fast := if above then (if was then b.frn.fast else s :: b.frn.fast)
                                          else b.frn.fast.filter (fun x => x ≠ s) }
  let trip := above && was
  let b := if trip && !b.on F.FRN_STATUS_RISE then firnEvent (b.stick F.FRN_STATUS_RISE) 1013 0 else b
  let b := if (s ≤ 11 ∧ 2000 ≤ t) ∨ (trip ∧ b.on F.FRN_THERM_RISE_SHDN) then thermalShutdown b s else b
  ruleValues 1 s t b

/-! ### The measurement sequence (R369 to R375) -/

/-- Conversion rates of R370 in 1/4 S/s. Log 60 (DESIGN CHOICE). -/
def rate4 (c : Nat) : Nat :=
  [30, 60, 120, 240, 500, 1000, 2000, 4000, 8000, 15625, 31250, 62500, 125000].getD c 0

/-- INPUT codes that exist (R369). -/
def inputOk (i : Nat) : Bool :=
  decide (i ≤ 0x9D) || (decide (0xA0 ≤ i) && decide (i ≤ 0xA7)) || i == 0xF0 || i == 0xF1

/-- An entry lasts longer than 1,800 µs (R371, R372). -/
def entryLong (v : Nat) : Bool :=
  let r := rate4 (field v 12 4)
  decide (1800 * r < (field v 24 8 + 4) * (1 + field v 19 1) * 4000000 + field v 32 16 * r)

/-- A write of FRN_SEQ is refused (R369, R370, R372). -/
def seqRefused (v : Nat) : Bool :=
  !inputOk (field v 0 8) || (field v 16 3 != 0 && decide (0x10 ≤ field v 0 8)) || decide (13 ≤ field v 12 4) ||
  field v 16 3 == 7 || (bit v 21 && entryLong v)

/-- How long entry `e` lasts, in cycles of the 50 MHz Firn oscillator, a begun cycle counted whole (R371, R372).
Log 60 (DESIGN CHOICE). -/
def entryCycles (b : Blk) (e : Nat) : Nat :=
  if 112 ≤ e then 8000
  else
    let r := rate4 (b.rd F.FRN_SEQ_RATE e)
    ((b.rd F.FRN_SEQ_REPEAT e + 4) * (1 + b.rd F.FRN_SEQ_REV e) * 200000000 + r - 1) / r + 50 * b.rd F.FRN_SEQ_POSTDLY e

/-- Entry `e` begins on modulator `k`; REV and its length are taken now (R371, R389). Log 60 (DESIGN CHOICE). -/
def frnBegin (b : Blk) (k e : Nat) : Blk :=
  b.setFrn { b.frn with cur := b.frn.cur.set k (e, b.on F.FRN_SEQ_REV e),
                        ends := b.frn.ends.set k (b.rd F.FRN_TIME_FTIME, entryCycles b e) }

/-- Firn cycles since the entry of modulator `k` began, and those it lasts. -/
def entryTime (b : Blk) (k : Nat) : Option (Nat × Nat) :=
  (b.frn.ends.find k).map (fun x => ((b.rd F.FRN_TIME_FTIME + 2 ^ 48 - x.1) % 2 ^ 48, x.2))

/-- The entry of modulator `k` has run its time (R371, R372). -/
def entryOver (b : Blk) (k : Nat) : Bool := (entryTime b k).all (fun x => decide (x.2 ≤ x.1))

/-- An entry whose time is over in this cycle completes of itself in the next tick, with free codes and a free
temperature, unless its completion comes from outside before (R371). Log 60 (DESIGN CHOICE). -/
def entryEnd (b : Blk) (k : Nat) : Blk :=
  match b.frn.cur.find k with
  | some (e, _) =>
    if e < 128 ∧ (entryTime b k).any (fun x => decide (x.1 = x.2)) then
      let b1 := b.spend
      let b2 := b1.spend
      let b3 := b2.spend
      b3.spend.sched 1 (.frnEntryComplete (Fin.ofNat 128 e) [toS 24 (b.fresh % 2 ^ 24)] [toS 24 (b1.fresh % 2 ^ 24)]
        (bit b2.fresh 0) (toS 16 (b3.fresh % 2 ^ 16)))
    else b
  | none => b

/-- The next vendor entry begins on modulator B (R372). Log 60 (DESIGN CHOICE). -/
def vendorBegin (b : Blk) : Blk :=
  let b := frnBegin b 1 (112 + b.frn.vendNext % 16)
  b.setFrn { b.frn with vendNext := (b.frn.vendNext + 1) % 16, vendAt := b.rd F.FRN_TIME_FTIME }

/-- Enabled entries of modulator `k`, CONT or triggered, ascending. -/
def entriesOf (b : Blk) (k : Nat) (trig : Bool) : List Nat :=
  (List.range 112).filter (fun e => b.on F.FRN_SEQ_EN e && (b.on F.FRN_SEQ_TRIG e == trig) && b.rd F.FRN_SEQ_MOD e == k)

/-- What modulator `k` runs next (R372, R373). -/
def frnNext (b : Blk) (k : Nat) (afterCustomer : Bool) : Blk :=
  if k = 1 ∧ afterCustomer then vendorBegin b
  else match b.frn.trigQ.get [] k with
    | e :: _ => frnBegin b k e
    | [] =>
      let l := entriesOf b k false
      let last := b.frn.lastCont.find k
      let nx := match last with
        | some x => (match l.find? (fun e => decide (x < e)) with | some e => some e | none => l.head?)
        | none => l.head?
      match nx with
      | some e => frnBegin (b.setFrn { b.frn with lastCont := b.frn.lastCont.set k e }) k e
      | none => b.setFrn { b.frn with cur := b.frn.cur.erase k }

/-- An idle modulator looks for work. -/
def frnKick (b : Blk) : Blk :=
  let one := fun (b : Blk) k => if (b.frn.cur.find k).isNone then frnNext b k false else b
  one (one b 0) 1

/-- Both modulators have finished their triggered entries. -/
def trigDone (b : Blk) : Bool := (b.frn.trigQ.get [] 0).isEmpty && (b.frn.trigQ.get [] 1).isEmpty

/-- The triggered sequence begins. -/
def trigBegin (b : Blk) : Blk :=
  let b := b.setFrn { b.frn with trigQ := [(0, entriesOf b 0 true), (1, entriesOf b 1 true)] }
  let b := frnKick (b.wr F.FRN_STATUS_TRIG_BUSY 1)
  if trigDone b then b.sched 0 .trigSequenceEnd else b

/-- A trigger (R373). -/
def frnTriggered (b : Blk) : Blk :=
  if !b.on F.FRN_STATUS_TRIG_BUSY then trigBegin b
  else if b.on F.FRN_STATUS_TQPEND then b.inc F.FRN_STATUS_TRIG_DROP
  else b.wr F.FRN_STATUS_TQPEND 1

/-- TRIG_SEQUENCE_END (R373). -/
def trigSequenceEnd (b : Blk) : Blk :=
  if !b.on F.FRN_STATUS_TRIG_BUSY || !trigDone b then b
  else if b.on F.FRN_STATUS_TQPEND then trigBegin (b.wr F.FRN_STATUS_TQPEND 0)
  else b.wr F.FRN_STATUS_TRIG_BUSY 0

/-- FRN_SEQ_WRITE (R369, R370, R372). -/
def frnSeqWrite (e v : Nat) (b : Blk) : Blk :=
  if 112 ≤ e then b
  else if seqRefused v then b.stick F.FRN_STATUS_SEQ_REFUSED
  else frnKick ([F.FRN_SEQ_POSTDLY, F.FRN_SEQ_REPEAT, F.FRN_SEQ_EN, F.FRN_SEQ_TRIG, F.FRN_SEQ_MOD, F.FRN_SEQ_FILT,
    F.FRN_SEQ_REV, F.FRN_SEQ_EXC, F.FRN_SEQ_RATE, F.FRN_SEQ_GAIN, F.FRN_SEQ_INPUT].foldl
      (fun b f => b.wr f (field v f.lsb f.wid) e) b)

/-- The result of an entry from the codes of its conversions, forward and reversed (R371): their
average, or half the difference of the averages; where that is no whole number its rounding is free.
Log 60 (DESIGN CHOICE). -/
def entryCode (fr : Nat) (conv rev : List Int) (reversed : Bool) : Int :=
  let sum := fun (l : List Int) => l.foldl (· + ·) 0
  let num := if reversed then sum conv - sum rev else sum conv
  let den : Int := max 1 (if reversed then 2 * conv.length else conv.length)
  let q := num / den
  clampI (-8388608) 8388607 (if q * den = num then q else q + (fr % 2 : Nat))

/-- What runs on a modulator beside entries 0 to 127: its calibration, a bias-trim measurement. -/
abbrev runCal : Nat := 128
abbrev runTrim : Nat := 129

/-- CAL_CTRL.FPER in ticks; 0 acts as 1 (R541). -/
def fperTicks (b : Blk) : Nat := 800000000 * max 1 (b.rd F.CAL_CTRL_FPER)

/-- A calibration of modulator `m` is wanted: half of FPER has passed since the last. Log 93 (DEDUCED). -/
def fmodWanted (b : Blk) (m : Nat) : Bool :=
  b.on F.CAL_CTRL_FMOD_EN && decide ((b.fmodCal m).since + fperTicks b / 2 ≤ b.elapsed)

/-- Entry `e` has completed on modulator `m` and leaves a gap for calibration (R540, R541). -/
def gapAfter (b : Blk) (m e : Nat) : Bool :=
  let gap := b.on F.CAL_FMOD_GAP_EN m && decide (e < 112) && b.rd F.CAL_FMOD_GAP_AFTER m == e &&
    !b.on F.FRN_STATUS_TRIG_BUSY && fmodWanted b m
  gap || ((b.fmodCal m).starved && b.on F.CAL_FMOD_FORCE_EN m)

/-- FRN_ENTRY_COMPLETE (R371, R374, R375, R380): the entry that runs on its modulator completes, once its time is over.
Log 60 (DESIGN CHOICE). -/
def frnEntryComplete (e : Nat) (conv rev : List Int) (isOver : Bool) (temp : Int) (b : Blk) : Blk :=
  match b.frn.cur.find? (fun x => x.2.1 == e) with
  | none => b
  | some (k, _, reversed) =>
   if !entryOver b k then b
   else
    let c := entryCode b.fresh conv rev reversed
    let b := ((b.spend.wr F.FRN_RES_CODE (ofS 24 c) e).wr F.FRN_RES_OVR (b2n isOver) e).wr F.FRN_RES_READY 1 e
    let b := b.bump F.FRN_RES_SEQCNT e
    let b := b.setFrn { b.frn with smbReady := natInsert b.frn.smbReady e }
    let b := ruleValues 0 e c b
    let b := if 112 ≤ e ∧ e < 126 then tempUpdate b (e - 112) temp else b
    let b := match b.frn.trigQ.get [] k with
      | x :: t => if x = e then b.setFrn { b.frn with trigQ := b.frn.trigQ.set k t } else b
      | [] => b
    let b := if gapAfter b k e then
        (b.setFrn { b.frn with cur := b.frn.cur.erase k }).sched 0 (.fmodCal (Fin.ofNat 2 k))
      else frnNext b k (decide (e < 112))
    if b.on F.FRN_STATUS_TRIG_BUSY ∧ trigDone b then b.sched 0 .trigSequenceEnd else b

/-- FRN_RES_READ (R374): the register is returned, then READY clears. -/
def frnResRead (e : Nat) (b : Blk) : Blk :=
  (b.emit (.readData 0 (b.word .frnRes e))).wr F.FRN_RES_READY 0 e

/-! ### Comparators (R376 to R379) -/

/-- COMPARATOR_EDGE: comparator `i` enters state `to`. -/
def comparatorEdge (i dest : Nat) (b : Blk) : Blk :=
  let st := b.rd F.FRN_CMPS_STATE i
  if b.rd F.FRN_CMP_MODE i = 0 ∨ st = 3 ∨ st = dest then b
  else
    let b := b.wr F.FRN_CMPS_STATE dest i
    let f := b.rd F.FRN_TIME_FTIME
    let x : Int := 16 * firnTick b f
    let b := (unitsOn b 4 i).foldl (fun b u => unitLevel u (dest == 2) x b) b
    if bit (b.rd F.FRN_CMP_EDGE i) dest then
      let b := b.wr F.FRN_CMPS_LATCH (orW 3 (b.rd F.FRN_CMPS_LATCH i) (2 ^ dest)) i
      let b := firnEvent b (816 + i) dest
      if b.on F.FRN_CMP_WAKE_EN i then b.sched 0 (.wake 2 i) else b
    else b

/-- COMPARATOR_SETTLE (R377): no edge, no latch, no event. Log 61 (DEDUCED). -/
def comparatorSettle (i dest : Nat) (b : Blk) : Blk :=
  if b.rd F.FRN_CMP_MODE i ≠ 0 ∧ b.rd F.FRN_CMPS_STATE i = 3 then b.wr F.FRN_CMPS_STATE dest i else b

/-- LATCH_PERIOD_CLEAR (R379). -/
def latchPeriodClear (b : Blk) : Blk :=
  (List.range 80).foldl (fun b i => if b.on F.FRN_CMP_LMODE i then b.wr F.FRN_CMPS_LATCH 0 i else b) b

/-- FRN_CMP_WRITE (R376 to R378). -/
def frnCmpWrite (i v : Nat) (b : Blk) : Blk :=
  let was := b.rd F.FRN_CMP_MODE i
  let mode := field v 30 2
  if field v 16 10 < field v 0 10 then b
  else if mode = 3 ∧ was ≠ 3 ∧ 16 ≤ ((List.range 80).filter (fun x => b.rd F.FRN_CMP_MODE x == 3)).length then
    b.stick F.FRN_STATUS_FAST_REFUSED
  else
    let b := [F.FRN_CMP_LMODE, F.FRN_CMP_WAKE_EN, F.FRN_CMP_EDGE, F.FRN_CMP_MODE, F.FRN_CMP_HYS, F.FRN_CMP_THHI,
      F.FRN_CMP_THLO].foldl (fun b f => b.wr f (field v f.lsb f.wid) i) b
    let b := b.wr F.FRN_CMP_SEL (if i < 64 then field v 32 1 else 0) i
    if mode = 0 then b.wr F.FRN_CMPS_STATE 1 i else if was = 0 then b.wr F.FRN_CMPS_STATE 3 i else b

/-! ### Wake (R387) -/

/-- Hibernate has been reached. -/
def hibernated (b : Blk) : Bool := b.pwr.off && b.rd F.GLB_PWR_STATE == 2

/-- WAKE (R387, R578, R580, R585): cause 1 rule, 2 comparator, 3 WAKE_N, 4 PCIe. -/
def wake (src index : Nat) (b : Blk) : Blk :=
  if b.rd F.GLB_PWR_STATE = 0 then b
  else if hibernated b ∧ (b.on F.FRN_THERM_SHDN ∨ b.rd F.RCV_STATUS_TILE_OFF ≠ 0) then b
  else
    let b := (b.wr F.FRN_WAKE_LAST_SRC src).wr F.FRN_WAKE_INDEX index
    if b.rd F.GLB_PWR_STATE = 1 then b.sched 16000 .idleExit else b.sched 0 .hibernateWake

/-- WAKE_N. -/
def wakeN (b : Blk) : Blk := wake 3 0 b

/-! ### SMBus (R388) -/

/-- SMB_READ_STATUS: command 0x00. -/
def smbReadStatus (b : Blk) : Blk :=
  b.emit (.smbus [b.rd F.FRN_THERM_SHDN + 2 * b.rd F.FRN_STATUS_RISE + 4 * b2n b.pwr.safe + 8 * b2n (faultN b) +
    16 * b.rd F.BIA_GLB_PRESET_DONE])

/-- SMB_SET_POINTER: command 0x10, the offset a multiple of 8. -/
def smbSetPointer (v : Nat) (b : Blk) : Blk := b.setFrn { b.frn with smbPtr := v % 2 ^ 16 / 8 * 8 }

def execFirnTimePairing (s : State) : Res := onBlk (fun _ => firnTimePairing) s
def execFirnEventDeliver (s : State) : Res := onBlk (fun _ => firnEventDeliver) s
def execFrnSeqWrite (e : Fin 128) (v : Nat) (s : State) : Res := onBlk (fun _ => frnSeqWrite e v) s
def execFrnEntryComplete (e : Fin 128) (conv rev : List Int) (isOver : Bool) (temp : Int) (s : State) : Res :=
  onBlk (fun _ => frnEntryComplete e conv rev isOver temp) s
def execFrnTrigger (s : State) : Res :=
  onBlk (fun _ b => if b.on F.FRN_CTRL_TRIG_EN then frnTriggered b else b) s
def execSoftTrig (s : State) : Res := onBlk (fun _ => frnTriggered) s
def execTrigSequenceEnd (s : State) : Res := onBlk (fun _ => trigSequenceEnd) s
def execFrnResRead (e : Fin 128) (s : State) : Res := onBlk (fun _ => frnResRead e) s
def execComparatorEdge (i : Fin 80) (dest : Fin 3) (s : State) : Res := onBlk (fun _ => comparatorEdge i dest) s
def execComparatorSettle (i : Fin 80) (dest : Fin 3) (s : State) : Res := onBlk (fun _ => comparatorSettle i dest) s
def execLatchPeriodClear (s : State) : Res := onBlk (fun _ => latchPeriodClear) s
def execFrnCmpWrite (i : Fin 80) (v : Nat) (s : State) : Res := onBlk (fun _ => frnCmpWrite i v) s
def execRulePass (s : State) : Res := onBlk (fun _ => rulePass) s
def execRelease (j : Fin 32) (s : State) : Res := onBlk (fun _ => ruleRelease j) s
def execWake (src : Fin 5) (index : Nat) (s : State) : Res := onBlk (fun _ => wake src index) s
def execWakeN (s : State) : Res := onBlk (fun _ => wakeN) s
def execSmbReadStatus (s : State) : Res := onBlk (fun _ => smbReadStatus) s
def execSmbSetPointer (v : Nat) (s : State) : Res := onBlk (fun _ => smbSetPointer v) s

end Sys2Proof.Machine
end

