-- ==== Sys2Proof/Machine/Cal.lean ====
section
/-!
DEFINITION. Self-calibration: the relief cores' rotation, ADC steps in crevasses, the Firn modulators, bias
trims (R530 to R544).  What a calibration finds is analogue: every new coefficient is a free value.
-/

namespace Sys2Proof.Machine

/-! ### Coefficients -/

/-- New coefficients of DAC core `i`: free values, in force at once. Log 92 (DESIGN CHOICE). -/
def newDcoef (b : Blk) (i : Nat) : Blk :=
  let n := b.freeCtr
  let b := setNow (setNow (setNow b F.CAL_DCOEF_GAIN (Config.free n) i 0) F.CAL_DCOEF_OFFSET
    (Config.free (n + 1)) i 0) F.CAL_DCOEF_TSKEW (Config.free (n + 2)) i 0
  { b with freeCtr := n + 3 }

/-- A field returned to its factory value with the Effect of its register (R531): FRAME where a port carries
it, else at once. -/
def reloadField (b : Blk) (f : Fld) (i : Nat) : Blk :=
  let v := resetOf b.is32 (f.key i 0)
  match keyRes b (f.key i 0) with
  | some x => hostWrite b 0 (regionTile (resRegion x)) .frame f v i 0
  | none => setNow b f v i 0

/-- CAL_RELOAD (R531). Log 93 (DEDUCED). -/
def calReload (b : Blk) : Blk :=
  let b := (List.range 16).foldl (fun b k =>
    [F.CAL_ACOEF_GAIN, F.CAL_ACOEF_OFFSET, F.CAL_ACOEF_TSKEW].foldl (fun b f => reloadField b f k) b) b
  let b := (List.range 56).foldl (fun b i =>
    [F.CAL_DCOEF_GAIN, F.CAL_DCOEF_OFFSET, F.CAL_DCOEF_TSKEW].foldl (fun b f => reloadField b f i) b) b
  let b := (List.range 48).foldl (fun b p => reloadField b F.CAL_GCAL_GCAL p) b
  (List.range 2).foldl (fun b m =>
    [F.CAL_FMOD_GAIN, F.CAL_FMOD_OFFSET].foldl (fun b f => b.wr f (resetOf b.is32 (f.key m 0)) m) b) b

/-! ### Relief-core rotation (R532 to R535) -/

/-- Phases of CAL_ROT (R532). -/
abbrev phIdle : Nat := 0
abbrev phMatch : Nat := 1
abbrev phTakeover : Nat := 2
abbrev phCal : Nat := 3
abbrev phReturn : Nat := 4
abbrev phHandback : Nat := 5
abbrev phSelfcal : Nat := 6

def Blk.phase (b : Blk) (r : Nat) : Nat := b.rd F.CAL_ROT_PHASE r

/-- Ticks of a phase: 20 ms, 2 ms, or the longest wait of 1 s. -/
def phaseTicks (ph : Nat) : Nat :=
  if ph = phSelfcal ∨ ph = phCal then 16000000 else if ph = phMatch ∨ ph = phReturn then 1600000 else 800000000

/-- What ends a phase in time. -/
def phaseEnd (ph r : Nat) : Instr :=
  if ph = phSelfcal then .selfcalDone (Fin.ofNat 8 r)
  else if ph = phCal then .calDone (Fin.ofNat 8 r)
  else .matchDone (Fin.ofNat 8 r)

/-- A phase begins. -/
def phaseStart (b : Blk) (r ph : Nat) : Blk :=
  let b := (b.wr F.CAL_ROT_PHASE ph r).setRot r { b.rot r with due := b.elapsed + phaseTicks ph }
  if ph = phTakeover ∨ ph = phHandback then b else b.sched (phaseTicks ph) (phaseEnd ph r)

/-- Phase `ph` of region `r` has run its time and is not stopped by a containment. -/
def phaseOver (b : Blk) (r ph : Nat) : Bool :=
  b.phase r == ph && (b.rot r).left.isNone && decide ((b.rot r).due ≤ b.elapsed)

/-- PER_MS in ticks; below 50 it acts as 50. -/
def perTicks (b : Blk) (r : Nat) : Nat := 800000 * max 50 (b.rd F.CAL_ROT_PER_MS r)

/-- A port cycle may start: PER_MS has passed since the last one started. -/
def cycleDue (b : Blk) (r : Nat) : Bool :=
  b.phase r == phIdle && b.on F.CAL_CTRL_DAC_EN && !regionHeld b r &&
    (match (b.rot r).startAt with
     | some t => decide (t + perTicks b r ≤ b.elapsed)
     | none => true)

/-- PORT_CYCLE_START (R532). -/
def portCycleStart (r : Nat) (b : Blk) : Blk :=
  if cycleDue b r then
    let x := b.rot r
    let b := (b.wr F.CAL_ROT_CUR (x.nextP % 6) r).setRot r { x with startAt := some b.elapsed, nextP := (x.nextP + 1) % 6 }
    phaseStart b r phSelfcal
  else b

/-- SELFCAL_DONE. -/
def selfcalDone (r : Nat) (b : Blk) : Blk :=
  if phaseOver b r phSelfcal then phaseStart (newDcoef b (48 + r)) r phMatch else b

/-- MATCH_DONE: the relief core matches the port's core, or the port's core the relief core. -/
def matchDone (r : Nat) (b : Blk) : Blk :=
  if phaseOver b r phMatch then phaseStart (newDcoef b (48 + r)) r phTakeover
  else if phaseOver b r phReturn then phaseStart (newDcoef b (rotPort b r)) r phHandback
  else b

/-- CAL_DONE: the displaced core is calibrated. -/
def calDone (r : Nat) (b : Blk) : Blk :=
  if phaseOver b r phCal then phaseStart (newDcoef b (rotPort b r)) r phReturn else b

/-- No sound in the granule that begins now (R109): no segment that is not vetoed, no tail, no stream; or the
port is muted. -/
def granuleSilent (b : Blk) (p : Nat) : Bool :=
  let seg := (b.seq (portSeq p)).line.any (fun c => c.e.kind == .seg && !c.veto && decide (c.start < b.now + 4) &&
    (match c.stop with | some e => decide (b.now < e) | none => true))
  let tail := (b.port p).slots.any (fun e => decide (e.2.eI ≠ 0) || decide (e.2.eQ ≠ 0))
  (!seg && !tail && !b.on F.DRV_STATUS_STREAM_ACT p) || b.ostate p == oMuted || b.ostate p == oHard

/-- That silence follows from entries committed by their commit points (R533): every entry in the granule is
a WAIT, SYNC, HALT or vetoed segment. -/
def granuleKnown (b : Blk) (p : Nat) : Bool :=
  (b.seq (portSeq p)).line.all (fun c =>
    decide (b.now + 4 ≤ c.start) || (match c.stop with | some e => decide (e ≤ b.now) | none => false) ||
    c.e.kind == .wait || c.e.kind == .sync || c.e.kind == .halt || (c.e.kind == .seg && c.veto))

/-- The port's sequencer has been DISABLED or ARMED since 12 ticks ago. -/
def idle12 (b : Blk) (r : Nat) : Bool :=
  match (b.rot r).idle with
  | some t => decide (t + 12 ≤ b.elapsed)
  | none => false

/-- The present tick is a handover instant of the region's port in cycle (R533). -/
def handoverInstant (b : Blk) (r : Nat) : Bool :=
  let p := rotPort b r
  b.now % 4 == 0 && (b.rot r).silent && granuleSilent b p && (idle12 b r || ((b.rot r).known && granuleKnown b p))

def waiting (b : Blk) (r : Nat) : Bool := (b.phase r == phTakeover || b.phase r == phHandback) && (b.rot r).left.isNone

/-- The handover itself. -/
def handOver (b : Blk) (r : Nat) : Blk :=
  let b := b.bump F.CAL_ROT_HANDOVERS r
  if b.phase r = phTakeover then phaseStart b r phCal
  else (b.wr F.CAL_ROT_PHASE phIdle r).wr F.CAL_ROT_CUR 6 r

/-- HANDOVER (R533). -/
def handover (r : Nat) (b : Blk) : Blk := if waiting b r && handoverInstant b r then handOver b r else b

/-- A segment committed after the wait's second was up starts now (R534). -/
def forcedInstant (b : Blk) (r : Nat) : Bool :=
  decide ((b.rot r).due + 12 ≤ b.elapsed) &&
    (b.seq (portSeq (rotPort b r))).line.any (fun c => c.e.kind == .seg && c.start == b.now)

/-- FORCED_HANDOVER (R534). -/
def forcedHandover (r : Nat) (b : Blk) : Blk :=
  if waiting b r && forcedInstant b r then
    let p := rotPort b r
    let b := (b.inc F.CAL_ROT_FORCED 1 r).taint (portSeq p) tcForcedCal
    handOver (b.setPort p { b.port p with glitch := some b.now }) r
  else b

/-- What the rotation remembers of the tick for the next granule. Log 93 (DEDUCED). -/
def rotRemember (b : Blk) (r : Nat) : Blk :=
  let x := b.rot r
  let p := rotPort b r
  let st := b.seqState (portSeq p)
  let idle := if st = sDisabled ∨ st = sArmed then (match x.idle with | some t => some t | none => some b.elapsed) else none
  b.setRot r (if b.now % 4 = 0 then
    { x with idle := idle, silent := granuleSilent b p, known := granuleKnown b p } else { x with idle := idle })

/-- The rotation's part of a tick: a handover where one may be made. -/
def rotTick (b : Blk) (r : Nat) : Blk := rotRemember (forcedHandover r (handover r b)) r

/-- The region is contained: the rotation stops in its phase (R535). -/
def rotPause (b : Blk) (r : Nat) : Blk :=
  if b.phase r = phIdle ∨ (b.rot r).left.isSome then b
  else b.setRot r { b.rot r with left := some ((b.rot r).due - b.elapsed) }

/-- The region leaves containment: the rotation resumes where it stopped. -/
def rotResume (b : Blk) (r : Nat) : Blk :=
  match (b.rot r).left with
  | none => b
  | some t =>
    let b := b.setRot r { b.rot r with left := none, due := b.elapsed + t }
    let ph := b.phase r
    if ph = phTakeover ∨ ph = phHandback ∨ ph = phIdle then b else b.sched t (phaseEnd ph r)

/-! ### ADC calibration (R536 to R539) -/

/-- A step may start in the crevasse that runs (R536). -/
def crevStep (b : Blk) (k : Nat) : Bool :=
  match (b.acq k).crev with
  | some none => true
  | some (some e) => decide (b.now + 1360 ≤ e)
  | none => false

def adcEnabled (b : Blk) (k : Nat) : Bool := b.on F.CAL_ACTL_EN k && b.on F.CAL_CTRL_ADC_EN

/-- A forced step may start (R539). -/
def forceStep (b : Blk) (k : Nat) : Bool := (b.adcCal k).starved && b.on F.CAL_ACTL_FORCE_EN k

/-- A step begins: 1,280 ticks of zero samples. -/
def stepBegin (b : Blk) (k : Nat) (forcing : Bool) : Blk :=
  let a := b.adcCal k
  setLive (b.setAdcCal k { a with stop := some (b.elapsed + 1280), forcing := forcing,
                                  spans := ((b.now, b.now + 1280) :: a.spans).take 2 }) k false

/-- ADC_CAL_STEP (R536, R539). Log 93 (DEDUCED). -/
def adcCalStep (k : Nat) (b : Blk) : Blk :=
  if (b.adcCal k).stop.isSome ∨ !adcEnabled b k ∨ b.now % 4 ≠ 0 then b
  else if crevStep b k then stepBegin b k false
  else if forceStep b k then
    let a := b.adcCal k
    let b := if a.forced then b else (b.inc F.CAL_STATUS_FORCED).setAdcCal k { a with forced := true }
    stepBegin (b.taint (acqSeq k) tcForcedCal) k true
  else b

/-- A step whose 1,280 ticks are over counts; the samples are live again; the 32nd completes the
calibration. -/
def adcStepEnd (b : Blk) (k : Nat) : Blk :=
  match (b.adcCal k).stop with
  | some t =>
    if t ≤ b.elapsed then
      let b := setLive (b.setAdcCal k { b.adcCal k with stop := none }) k (adcUp b k)
      let n := b.rd F.CAL_ACTL_STEPS k + 1
      let b := b.wr F.CAL_ACTL_STEPS n k
      if 32 ≤ n then b.sched 0 (.adcCalComplete (Fin.ofNat 16 k)) else b
    else b
  | none => b

/-- ADC_CAL_COMPLETE (R538): new coefficients wait for the port's next frame boundary. Log 92 (DESIGN CHOICE). -/
def adcCalComplete (k : Nat) (b : Blk) : Blk :=
  if b.rd F.CAL_ACTL_STEPS k < 32 then b
  else
    let n := b.freeCtr
    let b := b.setAcq k { b.acq k with coef := some (Config.free n, Config.free (n + 1), Config.free (n + 2)) }
    let b := { b with freeCtr := n + 3 }
    (b.setAdcCal k { b.adcCal k with since := b.elapsed, starved := false, forced := false }).wr
      F.CAL_ACTL_STEPS 0 k

/-- CAL_CTRL.APER in ticks; 0 acts as 1. -/
def aperTicks (b : Blk) : Nat := 800000000 * max 1 (b.rd F.CAL_CTRL_APER)

/-- ASTARVED (R539). -/
def astarved (k : Nat) (b : Blk) : Blk :=
  let a := b.adcCal k
  if a.starved ∨ b.elapsed < a.since + aperTicks b then b
  else
    let s := b.rd F.CAL_STATUS_ASTARVED
    (b.setAdcCal k { a with starved := true }).wr F.CAL_STATUS_ASTARVED (orW 16 s (2 ^ k))

/-! ### Firn modulators (R540, R541) -/

/-- FMOD_CAL: in an idle gap a calibration begins, of 320 µs; when its time is over its coefficients are
written and the modulator goes on. Log 92 (DESIGN CHOICE). -/
def fmodCal (m : Nat) (b : Blk) : Blk :=
  let x := b.fmodCal m
  match x.stop with
  | some t =>
    if b.elapsed < t then b
    else
      let n := b.freeCtr
      let b := (b.wr F.CAL_FMOD_GAIN (Config.free n) m).wr F.CAL_FMOD_OFFSET (Config.free (n + 1)) m
      let b := { b.setFmodCal m ⟨none, b.elapsed, false⟩ with freeCtr := n + 2 }
      frnNext b m true
  | none =>
    if (b.frn.cur.find m).isSome ∨ !b.on F.CAL_CTRL_FMOD_EN then b
    else
      let forced := x.starved && b.on F.CAL_FMOD_FORCE_EN m
      let b := if forced then b.inc F.CAL_STATUS_FORCED else b
      let b := b.setFrn { b.frn with cur := b.frn.cur.set m (runCal, false) }
      (b.setFmodCal m { x with stop := some (b.elapsed + 256000) }).sched 256000 (.fmodCal (Fin.ofNat 2 m))

/-- FSTARVED (R541). -/
def fstarved (m : Nat) (b : Blk) : Blk :=
  let x := b.fmodCal m
  if x.starved ∨ b.elapsed < x.since + fperTicks b then b
  else
    let s := b.rd F.CAL_STATUS_FSTARVED
    (b.setFmodCal m { x with starved := true }).wr F.CAL_STATUS_FSTARVED (orW 2 s (2 ^ m))

/-! ### Bias trims (R542) -/

/-- The channels of a round of measurements from `c` on. -/
def trimNextFrom (b : Blk) (c : Nat) : Nat :=
  ((List.range 64).find? (fun i => decide (c ≤ i) && bit (b.rd F.CAL_BIAS_AUTO) i &&
    b.rd F.BIA_STAT_STATE i == 2)).getD 64

/-- BIAS_TRIM_MEASURE: a measurement of channel `c` completes; `d` is nominal minus measured output in 1/256
LSB.  Only a settled selected channel's TRIM is set; a sum outside 16 bits has no stated value and is free.
Log 92 (DESIGN CHOICE), 93 (DEDUCED). -/
def biasTrimMeasure (c : Nat) (d : Int) (b : Blk) : Blk :=
  let b := if b.frn.cur.find 1 = some (runTrim, false) then
      frnNext (b.setFrn { b.frn with cur := b.frn.cur.erase 1 }) 1 true else b
  if b.on F.CAL_CTRL_BIAS_EN && bit (b.rd F.CAL_BIAS_AUTO) c && b.rd F.BIA_STAT_STATE c == 2 then
    let t := b.rdS F.BIA_ACT_TRIM_ACT c + rndShift d 8
    if -32768 ≤ t ∧ t ≤ 32767 then b.wr F.BIA_TRIM_TRIM (ofS 16 t) c
    else b.spend.wr F.BIA_TRIM_TRIM b.fresh c
  else b

/-- The rounds of R542: a new round every BPER seconds; while modulator B is free the next channel's 1 ms
entry begins. -/
def trimTick (b : Blk) : Blk :=
  if !b.on F.CAL_CTRL_BIAS_EN then b
  else
    let per := 800000000 * max 1 (b.rd F.CAL_CTRL_BPER)
    let b := if b.cal.trimAt + per ≤ b.elapsed then
        { b with cal := { b.cal with trimCh := 0, trimAt := b.elapsed } } else b
    let c := trimNextFrom b b.cal.trimCh
    if 64 ≤ b.cal.trimCh ∨ (b.frn.cur.find 1).isSome then b
    else if 64 ≤ c then { b with cal := { b.cal with trimCh := 64 } }
    else
      let b := b.setFrn { b.frn with cur := b.frn.cur.set 1 (runTrim, false) }
      let b := { b with cal := { b.cal with trimCh := c + 1 } }
      b.spend.sched 800000 (.biasTrimMeasure (Fin.ofNat 64 c) (toS 16 b.fresh))

/-- What self-calibration does in a tick beside the rotation. -/
def calTick (b : Blk) : Blk :=
  let b := (List.range 16).foldl (fun b k => adcCalStep k (astarved k (adcStepEnd b k))) b
  let b := (List.range 2).foldl (fun b m =>
    let b := fstarved m b
    if (b.frn.cur.find m).isNone ∧ fmodWanted b m then fmodCal m b else b) b
  trimTick ((List.range 8).foldl (fun b r => portCycleStart r b) b)

def execPortCycleStart (r : Region) (s : State) : Res := onBlk (fun _ => portCycleStart r) s
def execSelfcalDone (r : Region) (s : State) : Res := onBlk (fun _ => selfcalDone r) s
def execMatchDone (r : Region) (s : State) : Res := onBlk (fun _ => matchDone r) s
def execHandover (r : Region) (s : State) : Res := onBlk (fun _ => handover r) s
def execForcedHandover (r : Region) (s : State) : Res := onBlk (fun _ => forcedHandover r) s
def execCalDone (r : Region) (s : State) : Res := onBlk (fun _ => calDone r) s
def execAdcCalStep (k : AcqPort) (s : State) : Res := onBlk (fun _ => adcCalStep k) s
def execAdcCalComplete (k : AcqPort) (s : State) : Res := onBlk (fun _ => adcCalComplete k) s
def execAstarved (k : AcqPort) (s : State) : Res := onBlk (fun _ => astarved k) s
def execFmodCal (m : Fin 2) (s : State) : Res := onBlk (fun _ => fmodCal m) s
def execFstarved (m : Fin 2) (s : State) : Res := onBlk (fun _ => fstarved m) s
def execBiasTrimMeasure (c : BiasCh) (d : Int) (s : State) : Res := onBlk (fun _ => biasTrimMeasure c d) s
def execCalReload (s : State) : Res := onBlk (fun _ => calReload) s

end Sys2Proof.Machine
end

