-- ==== Sys2Proof/Machine/Dsc.lean ====
section
/-!
DEFINITION. The decision vector and its copies, decisions across modules, the result collector (R175
to R194).
-/

namespace Sys2Proof.Machine

/-! ### Decision vector -/

def DvEnt.reset : DvEnt := ⟨0, 3, 0, false, false, 0⟩

/-- Entry `e` of a tile's copy. -/
def Blk.dvEnt (b : Blk) (tile e : Nat) : DvEnt := b.dsc.dv.get DvEnt.reset (1024 * tile + e)

/-- DONE or UNAVAIL: what satisfies a wait and adds a notice (R180, R296). -/
def dvFinal (st : Nat) : Bool := st == 2 || st == 3

/-- A mailbox of core `n` looks at entry `e`, by its notice mask or a group mask (R296, R299). -/
def mailboxSees (b : Blk) (n e : Nat) : Bool :=
  bit (b.rd ⟨.odrMbmask, 0, 64⟩ n (e / 64)) (e % 64) ||
  (List.range 4).any (fun g => bit (b.rd ⟨.odrGmask, 0, 64⟩ n (12 * g + e / 64)) (e % 64))

/-- An update of a tile's copy reaches the mailboxes of the tile's cores (R295). Log 51 (DESIGN CHOICE). -/
def toMailboxes (b : Blk) (tile e st code : Nat) (early ovr : Bool) (d : Nat) : Blk :=
  (List.range 8).foldl (fun b i =>
    let n := 8 * tile + i
    if mailboxSees b n e then
      b.sched 1 (.mailboxNotice (Fin.ofNat 16 n) (Fin.ofNat 768 e) (Fin.ofNat 4 st) (Fin.ofNat 4 code)
        early ovr d)
    else b) b

/-- The waits of a tile's sequencers that the update of entry `e` satisfies (R180): the last one
schedules the lookup at U + 1. -/
def toWaits (b : Blk) (tile e : Nat) : Blk :=
  (List.range 32).foldl (fun b i =>
    let q := 32 * tile + i
    let s := b.seq q
    if s.waitSel.contains e then
      let l := s.waitSel.filter (fun x => x ≠ e)
      let b := b.setSeq q { s with waitSel := l, satU := if l.isEmpty then some b.now else s.satU }
      if l.isEmpty then b.sched 1 (.waitdSatisfied (Fin.ofNat 64 q)) else b
    else b) b

/-- One copy's entry changes (R175, R176): PENDING keeps code and EARLY of the previous decision. -/
def dvSet (b : Blk) (tile e st code : Nat) (early ovr : Bool) (d : Nat) : Blk :=
  let old := b.dvEnt tile e
  let new : DvEnt := if st = 1 then { old with st := 1, at_ := b.now }
    else ⟨b.now, code, st, early, ovr, d⟩
  let b := { b with dsc := { b.dsc with dv := b.dsc.dv.set (1024 * tile + e) new } }
  if dvFinal st then toWaits (toMailboxes b tile e st code early ovr d) tile e else b

/-- DV_OWN_TILE_UPDATE (R176). -/
def dvOwnTileUpdate (e st code : Nat) (early : Bool) (d : Nat) (b : Blk) : Blk :=
  if e < 512 then dvSet b (e / 256) e st code early false d else b

/-- DV_OTHER_TILE_UPDATE (R42, R176). -/
def dvOtherTileUpdate (e st code : Nat) (early : Bool) (d : Nat) (b : Blk) : Blk :=
  if e < 512 then dvSet b (1 - e / 256) e st code early false d else b

/-- The 8-bit layout of R201. -/
def dvByte (x : DvEnt) : Nat := x.code + 4 * x.st + 16 * b2n x.early + 32 * b2n x.ovr

/-! ### Across modules -/

/-- States of LNK_PSTAT (R503). -/
abbrev lnkDown : Nat := 0
abbrev lnkTraining : Nat := 1
abbrev lnkSynced : Nat := 2
abbrev lnkLocked : Nat := 3
abbrev lnkFree : Nat := 4
abbrev lnkRaw : Nat := 5

def LnkSt.reset : LnkSt := ⟨(0, 0), [], [], 0, none, none, 0⟩

def Blk.link (b : Blk) (p : Nat) : LnkSt := b.lnk.get LnkSt.reset p
def Blk.setLink (b : Blk) (p : Nat) (x : LnkSt) : Blk := { b with lnk := b.lnk.set p x }

/-- First slot of a frame that begins in tick `i` of it: the least k with ⌊33 k / 40⌋ = i (R505). -/
def firstSlot (i : Nat) : Nat := (40 * i + 32) / 33

/-- The lane of the decision slot of the present tick. -/
def decisionLane (b : Blk) : Nat := firstSlot (b.now % 33) % 2

/-- Parity of a block: the exclusive or of its eight bytes (R508). Log 94 (DEDUCED). -/
def parity8 (w : Nat) : Nat := (List.range 8).foldl (fun x i => xorW 8 x (field w (8 * i) 8)) 0

/-- A block leaves on a lane, and counts in the lane's parity (R508). Log 94 (DEDUCED). -/
def sendBlock (b : Blk) (p lane w : Nat) : Blk :=
  let x := b.link p
  let q := parity8 w
  let y := if lane = 0 then (xorW 8 x.bip.1 q, x.bip.2) else (x.bip.1, xorW 8 x.bip.2 q)
  (b.setLink p { x with bip := y }).emit (.habor p lane w)

/-- EXPORT_LATCH_SET (R183): for each port that exports the channel; an unsent decision is replaced and
marked.  A port outside locked mode keeps no latch. -/
def exportLatchSet (q code : Nat) (early unav : Bool) (d : Nat) (b : Blk) : Blk :=
  (exporters b q).foldl (fun b p =>
    if b.rd F.LNK_PSTAT_STATE p ≠ lnkLocked then b
    else
      let k := 512 * p + q
      let isOver := (b.dsc.latch.find k).isSome
      let b := if isOver then b.inc F.DSC_XCNT_OVERRUNS 1 p else b
      { b with dsc := { b.dsc with latch := b.dsc.latch.set k ⟨b.now + 2, code, early, unav, isOver, d⟩ } }) b

/-- An entry of a decision block (R184). -/
def blockEntry (q : Nat) (code : Nat) (early ovr unav : Bool) : Nat :=
  q + 1024 * b2n unav + 2048 * code + 8192 * b2n early + 16384 * b2n ovr + 32768

/-- Latches of port `p` that may be sent now, oldest decision tick first, lowest channel first. -/
def latchBefore (x y : Nat × XLatch) : Bool :=
  decide (x.2.dtick < y.2.dtick) || (x.2.dtick == y.2.dtick && decide (x.1 ≤ y.1))

def latchInsert (e : Nat × XLatch) : List (Nat × XLatch) → List (Nat × XLatch)
  | [] => [e]
  | x :: t => if latchBefore e x then e :: x :: t else x :: latchInsert e t

def readyLatches (b : Blk) (p : Nat) : List (Nat × XLatch) :=
  ((b.dsc.latch.filter (fun e => e.1 / 512 == p && decide (e.2.at_ ≤ b.now))).foldr latchInsert []).take 3

/-- A block's payload from an origin and up to three entries. -/
def blockOf (origin : Nat) (es : List Nat) : Nat :=
  2 ^ 60 + origin * 2 ^ 54 + es.getD 0 0 + es.getD 1 0 * 2 ^ 16 + es.getD 2 0 * 2 ^ 32

/-- The forwarded decisions that the next block carries: up to three of one origin. -/
def forwardRun (now : Nat) (l : List XDec) : List XDec :=
  match l with
  | [] => []
  | x :: _ => (l.take 3).takeWhile (fun y => y.origin == x.origin && decide (y.at_ ≤ now))

/-- DECISION_BLOCK_SEND (R184): the decision slot of a tick of a locked port. -/
def decisionBlockSend (p : Nat) (b : Blk) : Blk :=
  if b.rd F.LNK_PSTAT_STATE p ≠ lnkLocked then b
  else
    let fw := b.dsc.fwd.get [] p
    let run := forwardRun b.now fw
    let send (b : Blk) (origin : Nat) (es : List Nat) : Blk :=
      (sendBlock b p (decisionLane b) (blockOf origin es)).wr F.DSC_XCNT_SENT (b.rd F.DSC_XCNT_SENT p + es.length) p
    match run with
    | x :: _ =>
      send { b with dsc := { b.dsc with fwd := b.dsc.fwd.set p (fw.drop run.length) } } x.origin
        (run.map (fun y => blockEntry y.chan y.code y.early y.ovr y.unav))
    | [] =>
      match readyLatches b p with
      | [] => b
      | l =>
        let lt := l.foldl (fun t e => t.erase e.1) b.dsc.latch
        send { b with dsc := { b.dsc with latch := lt } } (b.rd F.LNK_GCFG_MODNUM)
          (l.map (fun e => blockEntry (e.1 % 512) e.2.code e.2.early e.2.ovr e.2.unav))

/-- A block that fails its check is discarded and counted (R508). -/
def chkFail (b : Blk) (p lane block : Nat) : Blk :=
  (b.inc F.LNK_CNT_CHK_ERR 1 p).publish (946 + 4 * p) (lane + 16 * field block 60 4) b.now

/-- A received decision is queued on every port that forwards its origin (R185). -/
def forwardDec (b : Blk) (p : Nat) (x : XDec) : Blk :=
  (List.range 4).foldl (fun b r =>
    if r = p ∨ x.origin = b.rd F.LNK_GCFG_MODNUM ∨ !bit (b.act F.DSC_FWD_ORIGINS r) x.origin then b
    else
      let l := b.dsc.fwd.get [] r
      if 64 ≤ l.length then b.inc F.DSC_XCNT_FWD_DROPS 1 r
      else { b with dsc := { b.dsc with fwd := b.dsc.fwd.set r (l ++ [x]) } }) b

/-- DECISION_BLOCK_RECEIVE (R185, R186, R508): a block at the end of its check. -/
def decisionBlockReceive (p lane block : Nat) (ok : Bool) (b : Blk) : Blk :=
  if !ok ∨ 7 ≤ field block 60 4 then chkFail b p lane block
  else if b.rd F.LNK_PSTAT_STATE p ≠ lnkLocked ∨ field block 60 4 ≠ 1 then b
  else
    let origin := field block 54 6
    (List.range 3).foldl (fun b i =>
      let e := field block (16 * i) 16
      if bit e 15 then
        let q := field e 0 9
        let b := b.sched 3 (.importUpdate (Fin.ofNat 4 p) (Fin.ofNat 64 origin) (Fin.ofNat 512 q)
          (Fin.ofNat 4 (field e 11 2)) (bit e 13) (bit e 14) (bit e 10))
        forwardDec b p ⟨b.now + 3, origin, q, field e 11 2, bit e 13, bit e 14, bit e 10⟩
      else b) b

/-- IMPORT_UPDATE (R185): every import entry bound to the decision, in both copies.  The block carries
no decision tick, so the tick a notice reports for it is free. -/
def importUpdate (p origin chan code : Nat) (early ovr unav : Bool) (b : Blk) : Blk :=
  (List.range 256).foldl (fun b j =>
    if b.actOn F.DSC_IMPORT_VALID j && b.act F.DSC_IMPORT_ORIGIN j == origin &&
        b.act F.DSC_IMPORT_CHANNEL j == chan then
      let st := if unav then 3 else 2
      let c := if unav then 3 else code
      let d := b.fresh
      let b := b.spend
      let b := dvSet (dvSet b 0 (512 + j) st c early ovr d) 1 (512 + j) st c early ovr d
      { b with dsc := { b.dsc with impPort := b.dsc.impPort.set j p } }
    else b) b

/-- The import entries last updated on port `p` become UNAVAIL (R187). -/
def importsUnavail (b : Blk) (p : Nat) : Blk :=
  b.dsc.impPort.foldl (fun b e =>
    if e.2 = p then
      dvSet (dvSet b 0 (512 + e.1) 3 3 false false b.now) 1 (512 + e.1) 3 3 false false b.now
    else b) b

/-- Port `p` leaves locked mode: latches and forward queue are cleared, its imports fail (R183, R187). -/
def leaveLocked (b : Blk) (p : Nat) : Blk :=
  let l := b.dsc.latch.filter (fun e => e.1 / 512 != p)
  importsUnavail { b with dsc := { b.dsc with latch := l, fwd := b.dsc.fwd.set p [] } } p

/-! ### Collector (R188 to R193) -/

/-- Records of function `f` in the buffer. -/
def fill (b : Blk) (f : Nat) : Nat := (b.dsc.buffer.filter (fun e => e.1 == f)).length

/-- A record of `f` is lost: its loss marker, the loss event (R192). -/
def loseRecord (b : Blk) (f : Nat) (r : Rec) : Blk :=
  let mk := match b.dsc.marker.find f with
    | none => ⟨r.shot, r.dtick, 1, fill b f⟩
    | some m => { m with shot := if m.shot = r.shot then m.shot else 0xFFFFFFFF,
                         count := min (m.count + 1) 0x7FFFFF }
  let ls := if b.dsc.lostShots.contains (f, r.shot) then b.dsc.lostShots else (f, r.shot) :: b.dsc.lostShots
  ({ b with dsc := { b.dsc with marker := b.dsc.marker.set f mk, lostShots := ls } }).publish 996 f b.now

/-- A record enters the buffer against QUOTA (R191), its flags completed (R189). -/
def toBuffer (b : Blk) (f q : Nat) (r : Rec) : Blk :=
  if fill b f < b.rd F.DSC_COLQ_QUOTA f then
    let s := b.seq q
    let t := shotTaint b q r.shot
    let gg := if s.shot.no = r.shot then s.shot.gg
      else match s.ended.find? (fun e => e.1.no == r.shot) with | some e => e.1.gg | none => 256
    let lost := b.dsc.lostShots.contains (f, r.shot)
    let fl := orW 16 r.flags (4 * b2n (decide (t ≠ 0)) + 8 * b2n (decide (gg < 256)) + 32 * b2n lost)
    let b := { b with dsc := { b.dsc with buffer := b.dsc.buffer ++ [(f, { r with flags := fl })] } }
    b.wr F.DSC_COLQ_FILL (fill b f) f
  else loseRecord (b.inc F.DSC_COLLOST_LOST_QUOTA 1 f) f r

/-- Ascending decision tick, then channel (R190). -/
def recBefore (x y : Rec) : Bool := decide (x.dtick < y.dtick) || (x.dtick == y.dtick && decide (x.chan ≤ y.chan))

def recInsert (r : Rec) : List Rec → List Rec
  | [] => [r]
  | x :: t => if recBefore r x then r :: x :: t else x :: recInsert r t

/-- A record reaches the intake: each channel has two places (R190). -/
def intakeArrive (b : Blk) (r : Rec) : Blk :=
  if 2 ≤ (b.dsc.intake.filter (fun x => x.chan == r.chan)).length then
    let f := b.chanOwner r.chan
    loseRecord (b.inc F.DSC_COLLOST_LOST_HOLD 1 f) f r
  else { b with dsc := { b.dsc with intake := recInsert r b.dsc.intake } }

/-- COLLECTOR_INTAKE (R190, R191): the records whose time has come (D + 3) reach the intake, and up to
64 of those that wait are taken. -/
def collectorIntake (b : Blk) : Blk :=
  let now := b.dsc.arriving.filter (fun r => decide (r.dtick + 3 ≤ b.now))
  let b := { b with dsc := { b.dsc with
    arriving := b.dsc.arriving.filter (fun r => !decide (r.dtick + 3 ≤ b.now)) } }
  let b := (now.foldr recInsert []).foldl intakeArrive b
  let taken := b.dsc.intake.take 64
  let b := hit b 0x606 taken.length
  let b := { b with dsc := { b.dsc with intake := b.dsc.intake.drop 64 } }
  taken.foldl (fun b r => toBuffer b (b.chanOwner r.chan) (acqSeq (slotOfChan b r.chan).1) r) b

/-- The buffer without the first record of `f`. -/
def dropFirst (f : Nat) : List (Nat × Rec) → List (Nat × Rec)
  | [] => []
  | e :: t => if e.1 = f then t else e :: dropFirst f t

/-- The loss marker of `f` is the next thing in its order (R192). -/
def markerDue (b : Blk) (f : Nat) : Bool :=
  match b.dsc.marker.find f with
  | some m => m.ahead == 0
  | none => false

/-- RESULT_RECORD_WRITE (R193): the oldest record of `f` goes to its ring when the ring has room. -/
def resultRecordWrite (f : Nat) (b : Blk) : Blk :=
  if !ringRoom b f 2 || markerDue b f then b
  else match b.dsc.buffer.find? (fun e => e.1 == f) with
    | none => b
    | some e =>
      let mk := match b.dsc.marker.find f with
        | some m => b.dsc.marker.set f { m with ahead := m.ahead - 1 }
        | none => b.dsc.marker
      let b := { b with dsc := { b.dsc with buffer := dropFirst f b.dsc.buffer, marker := mk } }
      ringPut (b.wr F.DSC_COLQ_FILL (fill b f) f) f 2 (recBytes e.2)

/-- LOSS_MARKER_WRITE (R192). -/
def lossMarkerWrite (f : Nat) (b : Blk) : Blk :=
  if !ringRoom b f 2 || !markerDue b f then b
  else match b.dsc.marker.find f with
    | none => b
    | some m =>
      let b := { b with dsc := { b.dsc with marker := b.dsc.marker.erase f } }
      ringPut b f 2 (recBytes ⟨0xFFFF, 32, m.shot, 3, 0, 0, m.count, 0, m.dtick⟩)

/-- Every record of the windows of shot `no` on acquisition port `k` has passed the intake (R465). -/
def shotRecordsIn (b : Blk) (k no : Nat) : Bool :=
  let mine (c : Nat) : Bool := (slotOfChan b c).1 == k
  !(b.acq k).slots.any (fun e => e.2.wins.any (fun w => w.shot == no)) &&
  !b.dsc.arriving.any (fun r => r.shot == no && mine r.chan) &&
  !b.dsc.intake.any (fun r => r.shot == no && mine r.chan)

/-- The first ended shot with a number, taken out of the list. -/
def dropShot (no : Nat) : List (Shot × Nat) → List (Shot × Nat)
  | [] => []
  | e :: t => if e.1.no = no then t else e :: dropShot no t

/-- SHOT_SUMMARY (R465): the summary of an ended shot enters the buffer, on an acquisition sequencer
once the shot's records have passed the intake. -/
def shotSummary (q no : Nat) (b : Blk) : Blk :=
  let s := b.seq q
  match s.ended.find? (fun e => e.1.no == no) with
  | none => b
  | some (sh, t) =>
    let f := b.seqOwner q
    if seqKind q = .acq ∧ !shotRecordsIn b (seqPort q) no then
      b.sched 1 (.shotSummary (Fin.ofNat 64 q) no)
    else if !b.on F.HIF_FCTRL_SUMMARY_EN f then b.setSeq q { s with ended := dropShot no s.ended }
    else
      let r : Rec := ⟨0xFFFE, 16 * b2n sh.aborted, no, 3, 0, q, sh.taint, sh.gg, t⟩
      let b := toBuffer b f q r
      b.setSeq q { b.seq q with ended := dropShot no (b.seq q).ended }

/-- COLQ_WRITE (R191): quotas may not sum to more than 1,024. -/
def colqWrite (f v : Nat) (b : Blk) : Blk :=
  let others := ((List.range 16).filter (fun g => g ≠ f)).foldl (fun n g => n + b.rd F.DSC_COLQ_QUOTA g) 0
  if 1024 < others + v % 2048 then b.stick F.DSC_COLSTAT_QUOTA_ERR
  else b.wr F.DSC_COLQ_QUOTA v f

def execDvOwnTileUpdate (entry : Fin 768) (st code : Fin 4) (early : Bool) (d : Nat) (s : State) : Res :=
  onBlk (fun _ => dvOwnTileUpdate entry st code early d) s
def execDvOtherTileUpdate (entry : Fin 768) (st code : Fin 4) (early : Bool) (d : Nat) (s : State) : Res :=
  onBlk (fun _ => dvOtherTileUpdate entry st code early d) s
def execExportLatchSet (q : Chan) (code : Fin 4) (early unav : Bool) (d : Nat) (s : State) : Res :=
  onBlk (fun _ => exportLatchSet q code early unav d) s
def execDecisionBlockSend (p : HabPort) (s : State) : Res := onBlk (fun _ => decisionBlockSend p) s
def execDecisionBlockReceive (p : HabPort) (lane : Fin 2) (block : Nat) (chkOk : Bool) (s : State) : Res :=
  onBlk (fun _ => decisionBlockReceive p lane block chkOk) s
def execImportUpdate (p : HabPort) (origin : Fin 64) (chan : Chan) (code : Fin 4) (early ovr unav : Bool)
    (s : State) : Res := onBlk (fun _ => importUpdate p origin chan code early ovr unav) s
def execCollectorIntake (s : State) : Res := onBlk (fun _ => collectorIntake) s
def execResultRecordWrite (f : Func) (s : State) : Res := onBlk (fun _ => resultRecordWrite f) s
def execLossMarkerWrite (f : Func) (s : State) : Res := onBlk (fun _ => lossMarkerWrite f) s
def execShotSummary (q : SeqNo) (shot : Nat) (s : State) : Res := onBlk (fun _ => shotSummary q shot) s
def execColqWrite (f : Func) (v : Nat) (s : State) : Res := onBlk (fun _ => colqWrite f v) s

end Sys2Proof.Machine
end

