-- ==== Sys2Proof/Machine/Evf.lean ====
section
/-!
DEFINITION. The event fabric and the performance counters (R420 to R443).
-/

namespace Sys2Proof.Machine

/-! ### Sources, channels and ownership (R420 to R427) -/

/-- Sources that exist (R420). -/
def srcExists (s : Nat) : Bool :=
  !(decide (966 ≤ s ∧ s ≤ 975) || decide (981 ≤ s ∧ s ≤ 991) || decide (999 ≤ s ∧ s ≤ 1007)) && decide (s < 1024)

/-- Sources whose EVF_SRCMAP reads 0 and ignores writes (R421). -/
def srcFixed (s : Nat) : Bool := !srcExists s || decide (928 ≤ s ∧ s ≤ 943)

/-- The function that owns a source (R424). -/
def srcOwner (b : Blk) (s : Nat) : Nat :=
  if s < 512 then b.chanOwner s
  else if s < 768 then b.seqOwner ((s - 512) / 4)
  else if 928 ≤ s ∧ s ≤ 943 then b.owner (64 + (s - 928))
  else 0

/-- The function a channel counts as owned by (R425). -/
def chFunc (b : Blk) (c : Nat) : Nat :=
  match b.rd F.EVF_CHCFG_OKIND c with
  | 0 => b.rd F.EVF_CHCFG_OIDX c
  | 1 => b.owner (64 + b.rd F.EVF_CHCFG_OIDX c)
  | _ => 0

/-- A source may publish on channel `c` through its map (R424). -/
def mayCarry (b : Blk) (c s : Nat) : Bool :=
  match b.rd F.EVF_CHCFG_OKIND c with
  | 0 => srcOwner b s == b.rd F.EVF_CHCFG_OIDX c
  | 2 => decide (816 ≤ s ∧ s ≤ 927)
  | _ => false

/-- The check of SEC for a subscriber's function (R425). -/
def secOk (b : Blk) (c f : Nat) : Bool :=
  match b.rd F.EVF_CHCFG_SEC c with
  | 0 => f == 0
  | 1 => f == chFunc b c
  | _ => true

/-- A counter owned by function `f` may select input `sel` (R436). -/
def selOk (b : Blk) (f sel : Nat) : Bool :=
  f == 0 || (if sel < 0x400 then srcOwner b sel == f
    else if sel < 0x410 then sel - 0x400 == f
    else if 0x500 ≤ sel ∧ sel < 0x600 then secOk b (sel - 0x500) f
    else false)

/-- Counter inputs that exist (R436). -/
def selExists (sel : Nat) : Bool :=
  decide (sel < 0x410) || (decide (0x500 ≤ sel) && decide (sel ≤ 0x608))

/-! ### Publication (R428, R431 to R435) -/

/-- Publication order of log records: tick, channel, source (R432). -/
def logBefore (x y : LogRec) : Bool :=
  decide (x.at_ < y.at_) || (x.at_ == y.at_ && (decide (x.ch < y.ch) || (x.ch == y.ch && decide (x.ev.src < y.ev.src))))

def logInsert (e : Nat × LogRec) : List (Nat × LogRec) → List (Nat × LogRec)
  | [] => [e]
  | x :: t => if logBefore e.2 x.2 then e :: x :: t else x :: logInsert e t

/-- A record for the log of a channel's owner; lost when the intake queue is full (R432). Log 36 (DEDUCED). -/
def logEvent (b : Blk) (c : Nat) (e : Ev) : Blk :=
  let f := chFunc b c
  let l := logInsert (f, ⟨b.now, c, e⟩) b.evf.logq
  match l.getLast? with
  | some x =>
    if 256 < l.length then (b.setEvf { b.evf with logq := l.dropLast }).inc F.EVF_FSTAT_LOG_LOST 1 x.1
    else b.setEvf { b.evf with logq := l }
  | none => b

/-- What one publication on an enabled channel does besides relaying. -/
def publishHere (b : Blk) (c : Nat) (e : Ev) : Blk :=
  let b := hit (b.bump F.EVF_CHSTAT_PUBLISHED c) (0x500 + c) 1
  let b := if b.on F.EVF_CHCFG_LOG c then logEvent b c e else b
  let b := if b.on F.EVF_CHCFG_IRQ c then raiseCause b (chFunc b c) 5 else b
  b.setEvf { b.evf with flight := b.evf.flight ++ [(b.elapsed + 12, c, e)] }

/-- A delayed copy waits on link `k`, or is lost when sixteen wait (R435). Log 32 (DEDUCED). -/
def relayLater (b : Blk) (k dst d : Nat) (e : Ev) : Blk :=
  let l := b.evf.pend.get [] k
  if 16 ≤ l.length then b.stick F.EVF_LINK_OVF k
  else b.setEvf { b.evf with pend := b.evf.pend.set k (l ++ [(b.now + d, dst, { e with birth := b.now + d })]) }

/-- A copy that is cut (R434). -/
def cutLoop (b : Blk) (k dst : Nat) : Blk :=
  ((b.stick F.EVF_LINK_LOOP k).stick F.EVF_STATUS_LOOP).stick F.EVF_CHSTAT_LOOP dst

/-- An event is published on channel `c` with its ancestry, and relayed (R428, R431, R434).  An
ancestry names each channel once, so 256 steps suffice. -/
def publishOn : Nat → List Nat → Nat → Ev → Blk → Blk
  | 0, _, _, _, b => b
  | fuel + 1, anc, c, e, b =>
    if !b.actOn F.EVF_CHCFG_EN c then b.inc F.EVF_CHSTAT_DROPS 1 c
    else
      (List.range 64).foldl (fun b k =>
        if b.actOn F.EVF_LINK_EN k && b.act F.EVF_LINK_SRC k == c then
          let dst := b.act F.EVF_LINK_DST k
          let d := b.act F.EVF_LINK_DELAY k
          if d = 0 then
            if anc.contains dst then cutLoop b k dst else publishOn fuel (dst :: anc) dst e b
          else relayLater b k dst d e
        else b) (publishHere b c e)

/-- First publication of an event on channel `c`. -/
def publishFirst (b : Blk) (c src birth detail ftime : Nat) : Blk :=
  publishOn 256 [c] c ⟨src, c, birth, detail, ftime⟩ b

/-- EVENT_PUBLISH (R421, R428): a source publishes on the channel its map names. -/
def eventPublish (src birth detail ftime : Nat) (b : Blk) : Blk :=
  if !srcExists src then b
  else
    let b := hit b src 1
    if b.on F.EVF_SRCMAP_EN src then publishFirst b (b.rd F.EVF_SRCMAP_CH src) src birth detail ftime else b

/-- EVF_FIRE (R426). Log 36 (DEDUCED). -/
def evfFire (f ch : Nat) (b : Blk) : Blk :=
  let mine := b.rd F.EVF_CHCFG_OKIND ch == 0 && b.rd F.EVF_CHCFG_OIDX ch == f
  if f = 0 ∨ mine then publishFirst (hit b (0x400 + f) 1) ch (1024 + f) b.now 0 0
  else b.stick F.EVF_FSTAT_FIRE_REFUSED f

/-- RELAY_DUE (R435): the delayed events of link `k` whose tick has come. -/
def relayDue (k : Nat) (b : Blk) : Blk :=
  let l := b.evf.pend.get [] k
  let due := l.filter (fun e => decide (e.1 ≤ b.now))
  let b := b.setEvf { b.evf with pend := b.evf.pend.set k (l.filter (fun e => !decide (e.1 ≤ b.now))) }
  due.foldl (fun b e => publishOn 256 [e.2.1] e.2.1 e.2.2 b) b

/-! ### Delivery (R425, R428 to R430) -/

/-- The channel a task input is subscribed to now, the function it counts as (R425, R429). -/
def taskInput (b : Blk) (i : Nat) : Option (Nat × Nat) :=
  if i < 64 then
    if b.on F.SEQ_CTRL_TRIG_EN i then some (b.rd F.SEQ_CTRL_START_CH i, b.seqOwner i) else none
  else if i < 128 then
    let q := i - 64
    match (b.seq q).line.find? (fun c => c.started && c.stop.isNone && c.e.kind == .waitev) with
    | some c => some (c.e.ch, b.seqOwner q)
    | none => none
  else if i < 384 then
    let n := (i - 128) / 16
    let k := (i - 128) % 16
    if b.on F.ODR_EVSUB_EN n k then some (b.rd F.ODR_EVSUB_CH n k, b.owner (64 + n)) else none
  else if i < 400 then
    let e := i - 384
    if b.rd F.TRG_CCFG_TSELK e = 3 then some (b.rd F.TRG_CCFG_TSELIDX e % 256, b.owner (144 + e)) else none
  else if b.on F.FRN_CTRL_TRIG_EN then some (b.rd F.FRN_CTRL_TRIG_CH, 0)
  else none

/-- An activation of a task input by events of which the earliest was born at `birth`. Log 32 (DEDUCED). -/
def activate (b : Blk) (i ch birth : Nat) : Blk :=
  if i < 64 then b.sched 0 (.startTrigger (Fin.ofNat 64 i) birth)
  else if i < 128 then b.sched 0 (.waitevEvent (Fin.ofNat 64 (i - 64)) (Fin.ofNat 256 ch))
  else if i < 384 then coreLine b ((i - 128) / 16) (8 + (i - 128) % 16)
  else if i < 400 then b.sched 0 (.captureTrigger (Fin.ofNat 16 (i - 384)) (16 * birth) 0)
  else b.sched 0 .frnTrigger

/-- The events of one tick at task input `i`: withheld by SEC, or one activation (R425, R430). -/
def deliverTo (arr : List (Nat × Ev)) (b : Blk) (i : Nat) : Blk :=
  match taskInput b i with
  | none => b
  | some (ch, f) =>
    match arr.filter (fun e => e.1 == ch) with
    | [] => b
    | e :: t =>
      if !secOk b ch f then b.stick F.EVF_CHSTAT_DENIED ch
      else
        let b := b.bump F.EVF_TIN_ACTS i
        let b := if t.isEmpty then b else (b.stick F.EVF_TIN_COINC i).inc F.EVF_TIN_CCOUNT t.length i
        activate b i ch (t.foldl (fun x y => min x y.2.birth) e.2.birth)

/-- EVENT_DELIVER (R428): the events published 12 ticks ago reach every subscribed task input. -/
def eventDeliver (b : Blk) : Blk :=
  let arr := (b.evf.flight.filter (fun e => decide (e.1 ≤ b.elapsed))).map (·.2)
  let b := b.setEvf { b.evf with flight := b.evf.flight.filter (fun e => !decide (e.1 ≤ b.elapsed)) }
  if arr.isEmpty then b else (List.range 401).foldl (deliverTo arr) b

/-! ### Configuration writes (R423, R424, R431, R433) -/

/-- CHANNEL_DISABLE (R431). Log 35 (DEDUCED). -/
def channelDisable (c : Nat) (b : Blk) : Blk :=
  if b.on F.EVF_CHCFG_EN c then b else b.commit (F.EVF_CHCFG_EN.key c 0)

/-- CHANNEL_ENABLE (R431). Log 35 (DEDUCED). -/
def channelEnable (c : Nat) (b : Blk) : Blk :=
  if b.on F.EVF_CHCFG_EN c then b.commit (F.EVF_CHCFG_EN.key c 0) else b

/-- EVF_CHCFG_WRITE (R423, R425, R431): function `f` writes channel `c`. Log 35 (DEDUCED). -/
def evfChcfgWrite (f c v : Nat) (b : Blk) : Blk :=
  let ok := field v 20 2
  let oi := field v 16 4
  let sec := field v 8 2
  let en := field v 31 1
  let change := ok != b.rd F.EVF_CHCFG_OKIND c || oi != b.rd F.EVF_CHCFG_OIDX c || sec != b.rd F.EVF_CHCFG_SEC c
  if ok = 3 ∨ sec = 3 ∨ (change ∧ (f ≠ 0 ∨ b.on F.EVF_CHCFG_EN c)) then b
  else
    let was := b.rd F.EVF_CHCFG_EN c
    let b := (((b.wr F.EVF_CHCFG_OKIND ok c).wr F.EVF_CHCFG_OIDX oi c).wr F.EVF_CHCFG_SEC sec c)
    let b := (b.wr F.EVF_CHCFG_IRQ (field v 1 1) c).wr F.EVF_CHCFG_LOG (field v 0 1) c
    if en = was then b
    else if en = 1 then (b.stage F.EVF_CHCFG_EN 1 c).sched 1 (.channelEnable (Fin.ofNat 256 c))
    else (b.stage F.EVF_CHCFG_EN 0 c).sched 2 (.channelDisable (Fin.ofNat 256 c))

/-- EVF_SRCMAP_WRITE (R421, R424): function `f` writes the map of source `s`. -/
def evfSrcmapWrite (f s v : Nat) (b : Blk) : Blk :=
  let ch := field v 0 8
  if srcFixed s ∨ (f ≠ 0 ∧ srcOwner b s ≠ f) then b
  else if bit v 31 ∧ !mayCarry b ch s then b.stick F.EVF_FSTAT_MAP_REFUSED f
  else (b.wr F.EVF_SRCMAP_EN (field v 31 1) s).wr F.EVF_SRCMAP_CH ch s

/-- The maps of the sources that `p` picks return to their reset value (R427). -/
def resetMaps (b : Blk) (p : Nat → Bool) : Blk :=
  b.clearRegs (fun k => decide (k.reg = .evfSrcmap) && p k.i)

/-- EVF_LOGQ_WRITE (R433). -/
def evfLogqWrite (f v : Nat) (b : Blk) : Blk :=
  let others := ((List.range 16).filter (fun g => g ≠ f)).foldl (fun n g => n + b.rd F.EVF_LOGQ_QUOTA g) 0
  if 1024 < others + v % 2048 then b.stick F.EVF_STATUS_QUOTA_ERR else b.wr F.EVF_LOGQ_QUOTA v f

/-! ### The event log (R432, R433, R467) -/

/-- Records of function `f` in the log buffer. -/
def logFill (b : Blk) (f : Nat) : Nat := (b.evf.logbuf.filter (fun e => e.1 == f)).length

/-- EVENT_LOG_INTAKE: up to 16 records enter the buffer against their function's quota. -/
def eventLogIntake (b : Blk) : Blk :=
  let l := b.evf.logq.take 16
  let b := b.setEvf { b.evf with logq := b.evf.logq.drop 16 }
  l.foldl (fun b e =>
    if logFill b e.1 < b.rd F.EVF_LOGQ_QUOTA e.1 then
      let b := b.setEvf { b.evf with logbuf := b.evf.logbuf ++ [e] }
      b.wr F.EVF_LOGQ_FILL (logFill b e.1) e.1
    else b.inc F.EVF_FSTAT_LOG_LOST 1 e.1) b

/-- The 28 bytes of a log record below its generation word (R467). -/
def logBytes (r : LogRec) : List Byte :=
  leBytes 2 r.ev.src ++ leBytes 1 r.ev.origin ++ leBytes 1 r.ch ++ leBytes 4 r.ev.detail ++
  leBytes 6 r.ev.birth ++ leBytes 2 0 ++ leBytes 6 r.ev.ftime ++ leBytes 6 0

/-- The buffer without the first record of `f`. -/
def dropLog (f : Nat) : List (Nat × LogRec) → List (Nat × LogRec)
  | [] => []
  | e :: t => if e.1 = f then t else e :: dropLog f t

/-- LOG_RECORD_WRITE: the oldest record of `f` goes to its event-log ring when the ring has room. -/
def logRecordWrite (f : Nat) (b : Blk) : Blk :=
  if !ringRoom b f 4 then b
  else match b.evf.logbuf.find? (fun e => e.1 == f) with
    | none => b
    | some e =>
      let b := b.setEvf { b.evf with logbuf := dropLog f b.evf.logbuf }
      ringPut (b.wr F.EVF_LOGQ_FILL (logFill b f) f) f 4 (logBytes e.2)

/-! ### Performance counters (R436 to R439) -/

/-- CNT_CFG_WRITE (R436, R437, R441): OWNER by the physical function alone; EN, MODE and SEL take hold
at a tick. -/
def cntCfgWrite (f i v : Nat) (b : Blk) : Blk :=
  let sel := field v 0 12
  let owner := b.rd F.CNT_CFG_OWNER i
  if !selExists sel ∨ field v 16 2 = 3 ∨ (f ≠ 0 ∧ owner ≠ f) then b
  else
    let own := if f = 0 then field v 24 4 else owner
    if !selOk b own sel then b.stick F.CNT_FSTAT_SEL_DENIED f
    else
      let b := b.wr F.CNT_CFG_OWNER own i
      let b := hostWrite b f 2 .tick F.CNT_CFG_EN (field v 31 1) i 0
      let b := hostWrite b f 2 .tick F.CNT_CFG_MODE (field v 16 2) i 0
      hostWrite b f 2 .tick F.CNT_CFG_SEL sel i 0

/-- Level inputs of R436. -/
def levelInput (b : Blk) (sel : Nat) : Option Bool :=
  match sel with
  | 0x600 => some true
  | 0x605 => some ((List.range 48).any (fun p => b.on F.MEM_PANIC_PANIC p))
  | 0x607 => some (!(b.queueOf 0).isEmpty)
  | 0x608 => some (!(b.queueOf 1).isEmpty)
  | _ => none

/-- What counter `i` adds in this tick, and its input's level (R437). -/
def counterAdd (b : Blk) (i : Nat) : Nat × Bool :=
  let sel := b.act F.CNT_CFG_SEL i
  let n := b.evf.hits.get 0 sel
  let lv := (levelInput b sel).getD (decide (1 ≤ n))
  let cnt := match levelInput b sel with | some v => b2n v | none => n
  match b.act F.CNT_CFG_MODE i with
  | 0 => (cnt, lv)
  | 1 => (b2n lv, lv)
  | _ => (b2n (lv && !b.evf.prev.contains i), lv)

/-- A counter takes a tick's count: 48 bits, WRAP set when it wraps (R438). -/
def counterTake (b : Blk) (i n : Nat) : Blk :=
  if n = 0 then b
  else
    let v := b.act F.CNT_VAL_VALUE i + n
    (b.put F.CNT_VAL_VALUE v i).stickIf (decide (2 ^ 48 ≤ v)) F.CNT_VAL_WRAP i

/-- The counters at the end of a tick (R437). -/
def countersTick (b : Blk) : Blk :=
  let live := (List.range 128).filter (fun i => b.actOn F.CNT_CFG_EN i)
  let r := live.map (fun i => (i, counterAdd b i))
  let b := r.foldl (fun b e => counterTake b e.1 e.2.1) b
  b.setEvf { b.evf with hits := [], prev := (r.filter (fun e => e.2.2)).map (·.1) }

/-- The 1,084 bytes of a counter dump below its generation word (R467). -/
def dumpBytes (b : Blk) (mine : List Nat) : List Byte :=
  leBytes 6 b.now ++ leBytes 2 (b.rd F.CNT_STATUS_DUMP_SEQ) ++ leBytes 1 mine.length ++ leBytes 7 0 ++
  (mine.foldr (fun i l => leBytes 8 (b.act F.CNT_VAL_VALUE i + 2 ^ 48 * b.rd F.CNT_VAL_WRAP i + 2 ^ 56 * i
    + 2 ^ 63) ++ l) (List.replicate (8 * (128 - mine.length)) (0 : Byte))) ++ leBytes 44 0

/-- COUNTER_SNAPSHOT (R439): at the end of a tick that is a multiple of PERIOD, or that SNAP asked for. -/
def counterSnapshot (b : Blk) : Blk :=
  let period := b.on F.CNT_CTRL_DUMP_EN && b.now % (max 1 (b.rd F.CNT_CTRL_PERIOD)) == 0
  let snap := b.evf.snapAt.any (fun t => decide (t ≤ b.elapsed))
  if !period && !snap then b
  else
    let b := b.setEvf { b.evf with snapAt := if snap then none else b.evf.snapAt }
    let b := (b.wr F.CNT_STATUS_LAST_SNAP b.now).bump F.CNT_STATUS_DUMP_SEQ
    (List.range 16).foldl (fun b f =>
      let mine := (List.range 128).filter (fun i => b.rd F.CNT_CFG_OWNER i == f)
      if mine.isEmpty then b
      else if ringRoom b f 5 then ringPut b f 5 (dumpBytes b mine)
      else b.inc F.CNT_FSTAT_DUMP_MISS 1 f) b

/-- SNAP (R439): a snapshot at the end of the next tick. -/
def cntSnap (b : Blk) : Blk := b.setEvf { b.evf with snapAt := some (b.elapsed + 1) }

def execEventPublish (src : Fin 1024) (birth detail ftime : Nat) (s : State) : Res :=
  onBlk (fun _ => eventPublish src birth detail ftime) s
def execEventDeliver (s : State) : Res := onBlk (fun _ => eventDeliver) s
def execRelayDue (k : Fin 64) (s : State) : Res := onBlk (fun _ => relayDue k) s
def execEvfFire (f : Func) (ch : Fin 256) (s : State) : Res := onBlk (fun _ => evfFire f ch) s
def execChannelDisable (c : Fin 256) (s : State) : Res := onBlk (fun _ => channelDisable c) s
def execChannelEnable (c : Fin 256) (s : State) : Res := onBlk (fun _ => channelEnable c) s
def execEvfChcfgWrite (f : Func) (c : Fin 256) (v : Nat) (s : State) : Res :=
  onBlk (fun _ => evfChcfgWrite f c v) s
def execEvfSrcmapWrite (f : Func) (src : Fin 1024) (v : Nat) (s : State) : Res :=
  onBlk (fun _ => evfSrcmapWrite f src v) s
def execEvfLogqWrite (f : Func) (v : Nat) (s : State) : Res := onBlk (fun _ => evfLogqWrite f v) s
def execEventLogIntake (s : State) : Res := onBlk (fun _ => eventLogIntake) s
def execLogRecordWrite (f : Func) (s : State) : Res := onBlk (fun _ => logRecordWrite f) s
def execCntCfgWrite (f : Func) (i : Fin 128) (v : Nat) (s : State) : Res :=
  onBlk (fun _ => cntCfgWrite f i v) s
def execCounterSnapshot (s : State) : Res := onBlk (fun _ => counterSnapshot) s
def execSnap (s : State) : Res := onBlk (fun _ => cntSnap) s

end Sys2Proof.Machine
end

