-- ==== Sys2Proof/Machine/Gov.lean ====
section
/-!
DEFINITION. The energy governor: measuring, windows, the evaluation at a commit point, the last-resort
limit (R318 to R334).
-/

namespace Sys2Proof.Machine

/-! ### Measuring (R318 to R321) -/

/-- Tick energy `e` of port `p` in units of 2⁻¹⁶ aJ (R319), the rounding of R320 free. Log 41 (DESIGN CHOICE). -/
def energyUnits (b : Blk) (p e : Nat) : Nat :=
  let num := e * 156250 * pfsFix (b.rd F.DRV_LEVEL_ACT_FSCODE p) (b.rd F.DRV_LEVEL_ACT_ATT p) *
    b.act F.CAL_GCAL_GCAL p * 65536
  let den := 2 ^ 128 * 10 ^ 5 * 2 ^ 14 * (32767 * 32767)
  if num % den = 0 then num / den
  else num / den + (if Config.tallyRound b.freeCtr = 1 then 1 else 0)

/-- The energy of the present tick of a port is on its way: counted 8 ticks later (R318). Log 38 (DEDUCED). -/
def measure (b : Blk) (p : Nat) : Blk :=
  let e := (b.port p).energy
  if e = 0 then b
  else { b.spend with gov := { b.gov with flight := b.gov.flight ++ [(b.now + 8, p, energyUnits b p e)] } }

/-- Level `x` counts port `p` (R323). -/
def counts (b : Blk) (x p : Nat) : Bool := (portLevels b p).contains x

/-- The tile slot a port's energy falls in at level `x`. -/
def tileAt (x p : Nat) : Nat := if x < 58 then 0 else regionTile (portRegion p)

/-- Energy added to a tally's current bin. -/
def addTally (b : Blk) (x w tile e : Nat) : Blk :=
  let t := b.tally x w tile
  b.setTally x w tile { t with cur := t.cur + e }

/-- One tick's energy of a port is counted at every level, and taken off its reservation (R328). -/
def countTick (b : Blk) (t p e : Nat) : Blk :=
  let b := (portLevels b p).foldl (fun b x => addTally (addTally b x 0 (tileAt x p) e) x 1 (tileAt x p) e) b
  let l := b.gov.resv.map (fun r => if r.port = p ∧ r.first ≤ t ∧ t ≤ r.last then
    { r with short := r.short - e, long := r.long - e } else r)
  { b with gov := { b.gov with resv := l } }

/-- Reservations whose last issue tick has been counted are released (R328). -/
def releaseResv (b : Blk) : Blk :=
  { b with gov := { b.gov with resv := b.gov.resv.filter (fun r => decide (b.now < r.last + 8)) } }

/-- Bin length in granules of a window. -/
def binLen (b : Blk) (w : Nat) : Nat := if w = 0 then b.rd F.GOV_WIN_SBIN else b.rd F.GOV_WIN_LBIN

/-- Window length in ticks. -/
def winTicks (b : Blk) (w : Nat) : Nat := 50 * binLen b w * 4

/-- BIN_BOUNDARY (R321, R510): the current bin of every tally of the window completes; the oldest leaves.
At a short boundary every locked Habor port sends the stage tallies. -/
def binBoundary (w : Nat) (b : Blk) : Blk :=
  let b := { b with gov := { b.gov with tal := b.gov.tal.map (fun e =>
      if e.1 / 2 % 2 = w then (e.1, { e.2 with cur := 0, bins := (e.2.cur :: e.2.bins).take 50 }) else e) } }
  if w = 0 then
    (List.range 4).foldl (fun b p =>
      if b.rd F.LNK_PSTAT_STATE p = 3 then b.sched 0 (.tallySend (Fin.ofNat 4 p)) else b) b
  else b

/-- Every tally sums its bins into a carry that counts for one whole new window (R322, R633). -/
def carryTallies (b : Blk) : Blk :=
  { b with gov := { b.gov with tal := b.gov.tal.map (fun e =>
      (e.1, { cur := 0, bins := [], carry := tallyVal b e.2,
              carryUntil := b.elapsed + winTicks b (e.1 / 2 % 2) })) } }

/-- GOV_WIN_WRITE (R322). -/
def govWinWrite (v : Nat) (b : Blk) : Blk :=
  let s := field v 0 12
  let l := field v 32 26
  if b.on F.GOV_CTRL_LOCK then b.stick F.GOV_STATUS_WR_LOCKED
  else if !b.allDisabled ∨ s < 4 ∨ 4000 < s ∨ l < 4000 ∨ 40000000 < l then b.stick F.GOV_STATUS_WIN_REFUSED
  else carryTallies ((b.wr F.GOV_WIN_SBIN s).wr F.GOV_WIN_LBIN l)

/-! ### Budgets -/

/-- Reservations counted at level `x` for window `w`, on a tile where the level spans both. -/
def resOf (b : Blk) (x w tile : Nat) : Nat :=
  (b.gov.resv.filter (fun r => counts b x r.port && tileAt x r.port == tile)).foldl
    (fun n r => n + (if w = 0 then r.short else r.long)) 0

/-- Index of (level, window, tile) in a snapshot: module and stage levels only. -/
def snapIdx (x w tile : Nat) : Nat := 4 * (x - 58) + 2 * w + tile

/-- Tally plus reservations of the module and stage levels now. -/
def snapNow (b : Blk) : List Nat :=
  (List.range 20).map (fun i =>
    let x := 58 + i / 4
    tallyVal b (b.tally x (i / 2 % 2) (i % 2)) + resOf b x (i / 2 % 2) (i % 2))

/-- A snapshot is taken at the end of a tick; six are enough for C − 4 (R328). Log 52 (DEDUCED). -/
def takeSnap (b : Blk) : Blk :=
  { b with gov := { b.gov with snap := ((b.now, snapNow b) :: b.gov.snap).take 6 } }

/-- The other tile's contribution as it stood at C − 4. -/
def otherTile (b : Blk) (x w tile : Nat) : Nat :=
  match b.gov.snap.find? (fun s => decide (s.1 + 4 ≤ b.now)) with
  | some s => s.2.getD (snapIdx x w tile) 0
  | none => 0

/-- Tal + Res of level `x` as port `p`'s tile sees it at its commit point (R328). -/
def seen (b : Blk) (x w p : Nat) : Nat :=
  let t := tileAt x p
  tallyVal b (b.tally x w t) + resOf b x w t + (if x < 58 then 0 else otherTile b x w (1 - t))

/-- Peers whose tallies a stage adds: those of LNK_PEERS but the module itself (R510). -/
def peerList (b : Blk) : List Nat :=
  (List.range 64).filter (fun m => bit (b.rd F.LNK_PEERS_PEERS) m && m != b.rd F.LNK_GCFG_MODNUM)

/-- Stage `s` falls back to its budget (R326). -/
def poolFallback (b : Blk) (s w : Nat) : Bool :=
  bit (b.rd F.GOV_STATUS_POOL_FB) s ||
  (peerList b).any (fun m => (b.gov.peers.find (8 * m + 2 * s + w)).isNone)

/-- The budget in force (R326), in aJ. -/
def effBudget (b : Blk) (x w : Nat) : Nat :=
  if x < 59 ∨ !b.on F.GOV_LCFG_POOL x then budOf b x w
  else
    let s := x - 59
    if poolFallback b s w then budOf b x w
    else
      let sum := (peerList b).foldl (fun n m => n + (b.gov.peers.get (0, 0, 0) (8 * m + 2 * s + w)).1) 0
      min (ceilOf b x w) (max (budOf b x w) (b.rd F.GOV_ALLOT_ALLOT s w - sum))

/-! ### The projection (R327) -/

/-- Sum of the squares of the 16-bit halves of a 1 KiB block of a region's envelope store. -/
def blockEnergy (m : Mem) (r blk : Nat) : Nat :=
  (List.range 512).foldl (fun n i =>
    n + ((toS 16 (m.le (envBase r + (1024 * blk + 2 * i) % 0x200000) 2)) ^ 2).toNat) 0

/-- Table energy of every block that `n` bytes from `a` touch, each in full. -/
def touched (m : Mem) (r a n : Nat) : Nat :=
  if n = 0 then 0
  else (List.range ((a + n - 1) / 1024 - a / 1024 + 1)).foldl
    (fun t i => t + blockEnergy m r ((a / 1024 + i) % 2048)) 0

/-- S_s of a flat-top member × 2³⁰ (R327), at `spg` samples per granule with weight `w`. -/
def flatEnergy (m : Mem) (r a ramp granules spg w : Nat) : Nat :=
  let u := min ramp (granules / 2)
  let er := touched m r a (4 * ramp * spg)
  let e := envWord m r (a + 4 * (u * spg - 1))
  let sq := (e.1 ^ 2 + e.2 ^ 2).toNat
  w * (2 * er + (granules - 2 * u) * spg * sq)

/-- The energies a member may count, as the table stands (Member.sums): × 2³⁰. -/
def memberSums (m : Mem) (b : Blk) (p slot a granules : Nat) : List Nat :=
  let r := portRegion p
  let ramp := b.act F.PRB_SENV_RAMP_LEN p slot
  [4 * touched m r a (16 * granules), touched m r a (64 * granules),
   flatEnergy m r a ramp granules 4 4, flatEnergy m r a ramp granules 16 1,
   touched m r a (128 * granules)]

/-- A segment's projected energy as a fraction of aJ: numerator over `2 ^ 30 × projDen`. -/
structure Proj where
  num : Nat
  den : Nat
  deriving DecidableEq, Repr

/-- The value a slot's ASCL will have at the entry's start: the attached SETA, or what is in force. -/
def asclAt (b : Blk) (p s : Nat) : List Act → Nat
  | [] => b.act F.DRV_SAMP_ASCL p s
  | .ascl t v :: l => if t = s then v else asclAt b p s l
  | _ :: l => asclAt b p s l

/-- PSCALE at the entry's start. -/
def pscaleAt (b : Blk) (p : Nat) : List Act → Nat
  | [] => b.act F.DRV_PSCALE_PSCALE p
  | .pscale v :: _ => v
  | _ :: l => pscaleAt b p l

/-- M of R327. -/
def cohSlots (b : Blk) (p n : Nat) : Nat :=
  let c := b.rd F.GOV_LCFG_PCOH p
  min n (if c = 0 then 1 else min c 32)

/-- S_s × 2³⁰ of a member under the rate and envelope mode in force; a denied member counts zero. -/
def memberEnergy (b : Blk) (p : Nat) (x : Member) : Nat :=
  if x.denied then 0
  else
    let fine := b2n (b.actOn F.DRV_SCTRL_ERATE p x.slot)
    let flat := decide (32 ≤ p) && b.actOn F.PRB_SENV_ENVMODE p x.slot
    x.sums.getD (2 * b2n flat + fine) 0

/-- P of R327 × 2³⁰ in the weight 312,500 × P_FS × g_cal × G²; the members' last writes count, so the
acts are read newest first. -/
def project (b : Blk) (p : Nat) (e : Entry) : Proj :=
  let acts := e.acts.reverse
  let g := pscaleAt b p acts
  let gc := b.act F.CAL_GCAL_GCAL p
  let pf := pfsFix (b.rd F.DRV_LEVEL_ACT_FSCODE p) (b.rd F.DRV_LEVEL_ACT_ATT p)
  let den := 2 ^ 128 * 10 ^ 5 * 2 ^ 14 * 4096 ^ 2 * 2 ^ 30
  let ticks := 4 * e.len
  let w := pf * gc * g ^ 2
  if b.rd F.DRV_STATUS_MODE_ACT p = 2 then
    let s := if e.stream then 16 * ticks * 2 ^ 30
      else e.members.foldl (fun n x => n + (if x.denied then 0 else x.sums.getD 4 0)) 0
    ⟨156250 * w * s, den⟩
  else if e.stream ∧ b.act F.DRV_STREAM_SMODE p = 3 then ⟨312500 * w * (2 * 4 * ticks) * 2 ^ 30, den⟩
  else
    let sslot := b.act F.DRV_STREAM_SSLOT p
    let n := e.members.length + b2n e.stream
    let sum := e.members.foldl (fun t x =>
      t + (asclAt b p x.slot acts) ^ 2 * memberEnergy b p x) 0
    let st := if e.stream then (asclAt b p sslot acts) ^ 2 * (8 * ticks) * 2 ^ 30 else 0
    ⟨312500 * w * cohSlots b p n * (sum + st), den * 2 ^ 32⟩

/-- P_w = ⌈P × min(1, W_w / L)⌉ in aJ (R328). -/
def projWin (b : Blk) (pr : Proj) (w ticks : Nat) : Nat :=
  let l := max ticks 1
  let num := if l ≤ winTicks b w then pr.num else pr.num * winTicks b w
  let den := if l ≤ winTicks b w then pr.den else pr.den * l
  (num + den - 1) / den

/-! ### The outcome (R328 to R331) -/

/-- Level `x` passes at `gg` against limits given by window, both windows. -/
def passes (b : Blk) (p x gg : Nat) (limit : Nat → Nat) (pw : Nat → Nat) : Bool :=
  (List.range 2).all (fun w => decide (seen b x w p + pw w * gg ^ 2 ≤ limit w * 65536))

/-- SCALE_MIN, 257 and above acting as 256 (R340). -/
def scaleMin (b : Blk) (x : Nat) : Nat := min (b.rd F.GOV_LCFG_SCALE_MIN x) 256

/-- What the governor decides for a segment: GG, VETO, the failing levels by kind. -/
structure GovOut where
  gg : Nat
  veto : Bool
  scaled : List Nat
  vetoed : List Nat
  noted : List Nat
  deriving DecidableEq, Repr

/-- GOV_EVALUATE (R329): the outcome for a segment of port `p` tested with `gg`. Log 52 (DEDUCED). -/
def govDecide (b : Blk) (p gg : Nat) (pw : Nat → Nat) : GovOut :=
  let fails := (portLevels b p).filter (fun x => !passes b p x gg (effBudget b x) pw)
  let act (x : Nat) := b.rd F.GOV_LCFG_ACT x
  let vs := fails.filter (fun x => act x == 2)
  let ss := fails.filter (fun x => act x == 1)
  let ns := fails.filter (fun x => act x == 0)
  let ceil (k : Nat) := (portLevels b p).filter (fun x => !passes b p x k (ceilOf b x) pw)
  if !vs.isEmpty then ⟨gg, true, [], vs, ns⟩
  else if ss.isEmpty then
    let c := ceil gg
    ⟨gg, !c.isEmpty, [], c, ns⟩
  else
    match ((List.range (gg + 1)).reverse).find? (fun k =>
        ss.all (fun x => passes b p x k (effBudget b x) pw)) with
    | none => ⟨gg, true, [], ss, ns⟩
    | some k =>
      if ss.all (fun x => decide (scaleMin b x ≤ k)) then
        let c := ceil k
        if c.isEmpty then ⟨k, false, ss, [], ns⟩ else ⟨k, true, [], c, ns⟩
      else ⟨gg, true, [], ss.filter (fun x => !decide (scaleMin b x ≤ k)), ns⟩

/-- The counters and events of an outcome (R324, R330, R331), and the reservation of the segment that
issues ticks `first` to `last`. Log 52 (DEDUCED). -/
def govApply (b : Blk) (p first last : Nat) (o : GovOut) (pw : Nat → Nat) : Blk :=
  let b := o.noted.foldl (fun b x => b.publish 976 x b.now) b
  let b := o.scaled.foldl (fun b x => b.inc F.GOV_LCNT_SCALES 1 x) b
  let b := match o.scaled with | x :: _ => b.publish 977 (x + 64 * o.gg) b.now | [] => b
  if o.veto then
    let b := o.vetoed.foldl (fun b x => b.inc F.GOV_LCNT_VETOES 1 x) b
    let b := match o.vetoed with | x :: _ => b.publish 978 x b.now | [] => b
    b.sched 1 (.vetoNotice (Fin.ofNat 64 (portSeq p)))
  else
    { b with gov := { b.gov with resv := b.gov.resv ++
      [⟨p, pw 0 * o.gg ^ 2, pw 1 * o.gg ^ 2, first, last, b.act F.GOV_LCFG_STAGE p⟩] } }

/-- The governor at a segment's commit point: STAGE takes hold, the segment is judged (R328 to R331,
R340).  A segment at a frame boundary is tested with GG 256. -/
def govCommit (b : Blk) (p start : Nat) (e : Entry) : Blk × GovOut :=
  let b := b.commit (F.GOV_LCFG_STAGE.key p 0)
  let fresh := e.acts.any (fun a => match a with | .shot _ => true | _ => false)
  let gg := if fresh then 256 else b.rd F.GOV_LCNT_GG p
  let pr := project b p e
  let pw := projWin b pr
  let pws := fun w => pw w (4 * e.len)
  let o := govDecide b p gg pws
  (govApply b p start (start + 4 * e.len - 1) o pws, o)

/-- The reservations of a port are released (R333, R337). -/
def dropResv (b : Blk) (p : Nat) : Blk :=
  { b with gov := { b.gov with resv := b.gov.resv.filter (fun r => r.port != p) } }

/-! ### Last resort, writes, peers -/

/-- A measured tally above its ceiling (R333). -/
def above (b : Blk) (x w : Nat) : Bool := decide (ceilOf b x w * 65536 < b.talOf x w)

/-- LAST_RESORT_CROSSING (R333): every port counted at the level is muted. -/
def lastResort (x w : Nat) (b : Blk) : Blk :=
  if !above b x w ∨ b.gov.isOver.get false (2 * x + w) then b
  else
    let b := { b with gov := { b.gov with isOver := b.gov.isOver.set (2 * x + w) true } }
    let ps := (List.range 48).filter (fun p => counts b x p)
    let b := ps.foldl (fun b p => dropResv ((muteNext b p .gov).taint (portSeq p) tcMute) p) b
    (b.inc F.GOV_LCNT_MUTES 1 x).publish 979 x b.now

/-- The comparisons of a tick: a level back at or below its ceiling may cross again; new crossings
become commands. -/
def compareCeilings (b : Blk) : Blk :=
  (List.range 126).foldl (fun b i =>
    let x := i / 2
    let w := i % 2
    let was := b.gov.isOver.get false i
    if above b x w then
      if was then b else b.sched 0 (.lastResortCrossing (Fin.ofNat 63 x) (Fin.ofNat 2 w))
    else if was then { b with gov := { b.gov with isOver := b.gov.isOver.set i false } } else b) b

/-- MUTE_RAMP_RELEASE (R334): the port's RAMP_UP starts at the first granule boundary at which every
tally that counts it is below 7/8 of its ceiling. -/
def muteRampRelease (p : Nat) (b : Blk) : Blk :=
  if b.ostate p = oHard ∧ (b.port p).mute = some .gov ∧ (b.port p).enSeen ∧ b.actOn F.DRV_CTRL_EN p then
    if tallyLow b p ∧ b.now % 4 = 0 then rampStart (unmute b p) p oRampUp 800
    else b.sched (granule (b.now + 1) - b.now) (.muteRampRelease (Fin.ofNat 48 p))
  else b

/-- GOV_LOCK (R325). -/
def govLock (b : Blk) : Blk := (b.wr F.GOV_CTRL_LOCK 1).wr F.GOV_STATUS_LOCKED 1

/-- GOV_LCFG_WRITE (R325, R338, R340): each field on its own terms; ACT 0b11 is ignored as a whole. -/
def govLcfgWrite (f x v : Nat) (b : Blk) : Blk :=
  let own := f = 0 ∨ (x < 48 ∧ b.owner x = f)
  if v % 4 = 3 ∨ !decide own then b
  else
    let b := (b.wr F.GOV_LCFG_ACT v x).wr F.GOV_LCFG_SCALE_MIN (field v 9 9) x
    let b := if x < 48 then b.wr F.GOV_LCFG_PCOH (field v 20 6) x else b
    let stage := decide (x < 48) && f == 0
    let pool := decide (59 ≤ x) && f == 0
    if b.on F.GOV_CTRL_LOCK then b.stickIf (stage || pool) F.GOV_STATUS_WR_LOCKED
    else
      let b := if stage then b.stage F.GOV_LCFG_STAGE (field v 28 2) x else b
      if pool then b.wr F.GOV_LCFG_POOL (field v 8 1) x else b

/-- A stage falls back to its budget (R326). -/
def fallBack (b : Blk) (s : Nat) : Blk :=
  let fb := b.rd F.GOV_STATUS_POOL_FB
  if bit fb s then b else (b.wr F.GOV_STATUS_POOL_FB (orW 4 fb (2 ^ s))).publish 980 s b.now

/-- Ticks after which a peer's tally counts as stale (R510): two short bins and 200. -/
def tallyAge (b : Blk) : Nat := 2 * (4 * binLen b 0) + 200

/-- PEER_TALLY_STALE (R326, R510): no tally of origin `m` for stage `s` and window `w` has come in time. -/
def peerTallyStale (m s w : Nat) (b : Blk) : Blk :=
  match b.gov.peers.find (8 * m + 2 * s + w) with
  | some (_, t, p) =>
    if t + tallyAge b ≤ b.elapsed then fallBack (b.publish (947 + 4 * p) (m + 64 * s + 256 * w) b.now) s else b
  | none => b

/-- GOV_TALS and GOV_TALL as they read: whole attojoules (R320). -/
def talRead (b : Blk) (x w : Nat) : Nat := min (b.talOf x w / 65536) (2 ^ 64 - 1)

def execBinBoundary (w : Fin 2) (s : State) : Res := onBlk (fun _ => binBoundary w) s
def execLastResortCrossing (x : Fin 63) (w : Fin 2) (s : State) : Res := onBlk (fun _ => lastResort x w) s
def execMuteRampRelease (p : DacPort) (s : State) : Res := onBlk (fun _ => muteRampRelease p) s
def execGovWinWrite (v : Nat) (s : State) : Res := onBlk (fun _ => govWinWrite v) s
def execGovLock (s : State) : Res := onBlk (fun _ => govLock) s
def execGovLcfgWrite (f : Func) (x : Fin 63) (v : Nat) (s : State) : Res :=
  onBlk (fun _ => govLcfgWrite f x v) s
def execPeerTallyStale (origin : Fin 64) (n : Fin 4) (w : Fin 2) (s : State) : Res :=
  onBlk (fun _ => peerTallyStale origin n w) s

end Sys2Proof.Machine
end

