-- ==== Sys2Proof/Machine/Operands.lean ====
section
/-!
DEFINITION. Sequencer instruction words: opcodes, operand fields, reserved bits, costs and operand reads
(R203, R216, R217, R223 to R225, R240).
-/

namespace Sys2Proof.Machine

/-- The instruction word at address `a` of sequencer `q`'s program memory (R203, R448). -/
def progWord (m : Mem) (q a : Nat) : Nat := m.le (pgmBase q + 8 * (a % 4096)) 8

/-- Opcode of a word (R223). -/
def opOf (w : Nat) : Nat := field w 57 7

/-- Ranges of bits set to one: (lowest bit, width) of each. -/
def maskOf (l : List (Nat × Nat)) : Nat := l.foldl (fun n f => n + (2 ^ f.2 - 1) * 2 ^ f.1) 0

/-- Operand fields of a vendor instruction (R224), as (lowest bit, width). -/
def operandBits (w : Nat) : List (Nat × Nat) :=
  let areg := bit w 55
  match opOf w with
  | 0x02 => [(56, 1), (55, 1), (50, 5), if areg then (30, 4) else (30, 17), (0, 16)]
  | 0x03 => [(56, 1), if bit w 56 then (0, 4) else (0, 32)]
  | 0x04 => [(48, 8), (32, 12), (0, 32)]
  | 0x05 => [(44, 12), (0, 32)]
  | 0x06 => [(44, 12)]
  | 0x07 => [(0, 12)]
  | 0x08 => [(52, 4), (49, 3), (0, 12)]
  | 0x09 => [(0, 12)]
  | 0x0B => [(56, 1), (44, 12), if bit w 56 then (0, 4) else (0, 24)]
  | 0x0D => [(50, 5), (0, 48)]
  | 0x0E => [(50, 5), (48, 1), (0, 32)]
  | 0x0F => [(50, 5), (0, 32)]
  | 0x10 => [(55, 1), (50, 5), (0, 16)]
  | 0x11 => [(0, 2)]
  | 0x12 => [(0, 4)]
  | 0x13 => [(0, 5)]
  | 0x14 => if bit w 56 then [(56, 1), (55, 1)] else [(56, 1), (24, 29), (0, 16)]
  | 0x15 => [(32, 2), (0, 32)]
  | 0x16 => [(52, 4), (48, 4), (44, 4), (40, 4), (39, 1), (0, 32)]
  | 0x17 => [(0, 1)]
  | 0x18 => [(8, 4), (0, 8)]
  | _ => []

/-- A bit outside the opcode and the operand fields is set (R224). -/
def reservedSet (w : Nat) : Bool := andW 57 w (2 ^ 57 - 1 - maskOf (operandBits w)) != 0

/-- The kinds of sequencer that may execute a vendor opcode (R223). -/
def kindOk (k : Kind) (w : Nat) : Bool :=
  match opOf w with
  | 0x02 => k != .acq
  | 0x0D => k != .acq
  | 0x0E => k != .acq
  | 0x0F => k != .acq
  | 0x10 => k != .acq
  | 0x14 => k != .acq
  | 0x15 => k == .acq
  | _ => true

/-- A slot number a sequencer's port has, 0 alone on a drive port in BASEBAND (R224). -/
def slotOk (b : Blk) (q s : Nat) : Bool :=
  match seqKind q with
  | .drive => decide (s < 16) && (b.rd F.DRV_STATUS_MODE_ACT (seqPort q) != 2 || s == 0)
  | .probe => decide (s < 32)
  | .acq => false

/-- Operand values of a vendor instruction are within R224 and R225, as far as the word gives them. -/
def valuesOk (b : Blk) (q w : Nat) : Bool :=
  match opOf w with
  | 0x02 => slotOk b q (field w 50 5) && decide (4 ≤ field w 0 16)
  | 0x08 => decide (field w 49 3 ≤ 5)
  | 0x0D => slotOk b q (field w 50 5)
  | 0x0E => slotOk b q (field w 50 5)
  | 0x0F => slotOk b q (field w 50 5)
  | 0x10 => bit w 55 || slotOk b q (field w 50 5)
  | 0x13 => decide (2 ≤ field w 0 5)
  | 0x14 => bit w 56 || decide (4 ≤ field w 0 16)
  | 0x16 => decide (field w 40 4 ≤ 8)
  | _ => true

/-- A vendor opcode (R223). -/
def vendorOp (w : Nat) : Bool := decide (opOf w ≤ 0x18)

/-- A vendor instruction that is ILLEGAL on this sequencer whatever comes before it (R223 to R225). -/
def wordIllegal (b : Blk) (q w : Nat) : Bool :=
  reservedSet w || !kindOk (seqKind q) w || !valuesOk b q w

/-- Front-end cost in micro-ops of a vendor instruction (R216, R223). -/
def costOf (w : Nat) : Nat :=
  match opOf w with
  | 0x02 => 2 + b2n (bit w 55)
  | 0x03 => 1 + b2n (bit w 56)
  | 0x04 => 2
  | 0x05 => 2
  | 0x06 => 3
  | 0x08 => 2
  | 0x09 => 2
  | 0x0A => 2
  | 0x0B => 2 + b2n (bit w 56)
  | 0x0D => 2
  | 0x0E => 2
  | 0x0F => 2
  | 0x13 => 2
  | 0x14 => if bit w 56 then 2 else 3
  | 0x15 => 2
  | _ => 1

/-- The sequencer register a vendor routine reads in its first micro-op (R240). -/
def earlyRead (w : Nat) : Option Nat :=
  match opOf w with
  | 0x02 => if bit w 55 then some (field w 30 4) else none
  | 0x03 => if bit w 56 then some (field w 0 4) else none
  | 0x08 => some (field w 52 4)
  | 0x0B => if bit w 56 then some (field w 0 4) else none
  | _ => none

/-- A sequencer register in force. -/
def sregOf (b : Blk) (q i : Nat) : Nat := b.act F.SEQ_SREG_VALUE q i

/-- An operand register as the routine read it: the value latched before a write at its LAST tick, or
the register (R240). -/
def operandReg (b : Blk) (q i : Nat) : Nat :=
  match (b.seq q).latch.find i with
  | some v => v
  | none => sregOf b q i

/-- Dispatch table entry of a customer opcode (R247). -/
def dispEntry (b : Blk) (r op : Nat) : Nat := b.word .ucsDisp r op

/-- R249: a customer opcode is dispatched. -/
def customerOk (b : Blk) (q op : Nat) : Bool :=
  let r := q / 8
  let e := dispEntry b r op
  let k := match seqKind q with | .drive => 29 | .probe => 28 | .acq => 27
  decide (0x40 ≤ op) && bit e 31 && bit e k && b.on F.UCS_STATUS_VERIFIED r &&
  (b.rd F.GLB_LC_STATE != 2 || b.on F.UCS_STATUS_LOCKED r)

/-- A head instruction (R217): PLAY with CHAIN 0, WAIT, HALT, or a customer opcode with HEAD. -/
def isHead (b : Blk) (q w : Nat) : Bool :=
  match opOf w with
  | 0x01 => true
  | 0x02 => !bit w 56
  | 0x03 => true
  | o => decide (0x40 ≤ o) && customerOk b q o && bit (dispEntry b (q / 8) o) 30

/-- COND of R225 on a 32-bit register taken as signed. -/
def condHolds (c x : Nat) : Bool :=
  let v := toS 32 x
  match c with
  | 0 => v == 0
  | 1 => v != 0
  | 2 => decide (v < 0)
  | 3 => decide (0 ≤ v)
  | 4 => decide (0 < v)
  | 5 => decide (v ≤ 0)
  | _ => false

/-- OP of R225 modulo 2³². -/
def opResult (op a c : Nat) : Nat :=
  match op with
  | 0 => (a + c) % 2 ^ 32
  | 1 => (a + 2 ^ 32 - c % 2 ^ 32) % 2 ^ 32
  | 2 => andW 32 a c
  | 3 => orW 32 a c
  | 4 => xorW 32 a c
  | 5 => a * 2 ^ (c % 32) % 2 ^ 32
  | 6 => a % 2 ^ 32 / 2 ^ (c % 32)
  | 7 => ofS 32 (toS 32 a / 2 ^ (c % 32))
  | _ => c % 2 ^ 32

end Sys2Proof.Machine
end

