-- ==== Sys2Proof/Machine/Odr.lean ====
section
/-!
DEFINITION. Odric decision cores: states, registers, instructions, memory, interrupts, mailbox and
handoffs (R267 to R317).
-/

namespace Sys2Proof.Machine

/-- The block and its stores, which an instruction may write together. -/
abbrev BM := Blk × Mem

/-- Core states (R267). -/
abbrev cHalted : Nat := 0
abbrev cRunning : Nat := 1
abbrev cWaiting : Nat := 2
abbrev cFaulted : Nat := 3

def Blk.coreState (b : Blk) (n : Nat) : Nat := b.rd F.ODR_STATUS_STATE n

/-- The shadow bank is active. -/
def shadowOn (b : Blk) (n : Nat) : Bool := b.on F.ODR_STATUS_BANK n

/-! ### Registers (R270) -/

def gRd (b : Blk) (n i : Nat) : Nat :=
  if shadowOn b n then b.rd F.ODR_SHADOW_G_VAL n i else b.rd F.ODR_MAIN_G_VAL n i

def gWrBank (b : Blk) (n : Nat) (shadow : Bool) (i v : Nat) : Blk :=
  if shadow then b.wr F.ODR_SHADOW_G_VAL v n i else b.wr F.ODR_MAIN_G_VAL v n i

def gWr (b : Blk) (n i v : Nat) : Blk := gWrBank b n (shadowOn b n) i v

def aRd (b : Blk) (n i : Nat) : Nat :=
  if shadowOn b n then b.rd F.ODR_SHADOW_A_VAL n i else b.rd F.ODR_MAIN_A_VAL n i

def aWr (b : Blk) (n i v : Nat) : Blk :=
  if shadowOn b n then b.wr F.ODR_SHADOW_A_VAL v n i else b.wr F.ODR_MAIN_A_VAL v n i

/-- An accumulator's parts. -/
def cRd (b : Blk) (n i : Nat) : Int × Int :=
  if shadowOn b n then (b.rdS F.ODR_SHADOW_CRE_VAL n i, b.rdS F.ODR_SHADOW_CIM_VAL n i)
  else (b.rdS F.ODR_MAIN_CRE_VAL n i, b.rdS F.ODR_MAIN_CIM_VAL n i)

/-- An accumulator written: each part wraps to 40 bits and sets OVF when it does (R281). -/
def cWr (b : Blk) (n i : Nat) (re im : Int) : Blk :=
  let isOver := decide (satS 40 re ≠ re) || decide (satS 40 im ≠ im)
  let b := b.stickIf isOver F.ODR_STATUS_OVF n
  if shadowOn b n then (b.wr F.ODR_SHADOW_CRE_VAL (ofS 40 re) n i).wr F.ODR_SHADOW_CIM_VAL (ofS 40 im) n i
  else (b.wr F.ODR_MAIN_CRE_VAL (ofS 40 re) n i).wr F.ODR_MAIN_CIM_VAL (ofS 40 im) n i

/-! ### Stopping and faults (R268, R308, R309) -/

/-- Every load on its way lands (R284). Log 30 (DEDUCED). -/
def landAll (b : Blk) (n : Nat) : Blk :=
  let s := b.odr n
  let b := s.loads.foldl (fun b l => gWrBank b n l.shadow l.reg l.val) b
  b.setOdr n { s with loads := [] }

/-- The groups of a core disarm. -/
def disarmAll (b : Blk) (n : Nat) : Blk :=
  let b := (List.range 4).foldl (fun b k => b.wr F.ODR_GRP_ARM 0 n k) b
  b.setOdr n { b.odr n with grp := [] }

/-- A core fault (R308, R309): the recovery controller is told, and publishes the event (R549). Log 30 (DEDUCED). -/
def coreFault (b : Blk) (n cause : Nat) : Blk :=
  let b := landAll b n
  let b := ((b.wr F.ODR_STATUS_STATE cFaulted n).wr F.ODR_STATUS_FAULT_PC (b.odr n).pc n).wr
    F.ODR_STATUS_FAULT_CAUSE cause n
  let b := disarmAll b n
  let b := b.setOdr n { b.odr n with jump := none, rep := none, halt := false, stall := 0, wait := none }
  b.sched 0 (.faultDetected 7 n)

/-- The core halts (R268). Log 30 (DEDUCED). -/
def coreHalt (b : Blk) (n : Nat) : Blk :=
  let b := ((landAll b n).wr F.ODR_STATUS_STATE cHalted n).wr F.ODR_CTRL_RUN 0 n
  b.setOdr n { b.odr n with halt := false, stall := 0 }

/-- An instruction boundary that accepts an interrupt or a halt (R292). -/
def boundary (b : Blk) (n : Nat) : Bool :=
  (b.odr n).jump.isNone && (b.odr n).rep.isNone && !shadowOn b n

/-- ODR_RUN (R268). -/
def odrRun (n : Nat) (b : Blk) : Blk :=
  if b.coreState n = cHalted then
    let b := (((b.wr F.ODR_CTRL_RUN 1 n).wr F.ODR_STATUS_STATE cRunning n).wr F.ODR_STATUS_BANK 0 n).wr
      F.ODR_STATUS_IE 0 n
    b.setOdr n { b.odr n with
      pc := b.rd F.ODR_PC_START_PC n, calls := [], loads := [], jump := none, rep := none, halt := false,
      stall := 0, wait := none }
  else b

/-- ODR_RUN_CLEAR (R268, R310). -/
def odrRunClear (n : Nat) (b : Blk) : Blk :=
  let b := b.wr F.ODR_CTRL_RUN 0 n
  if b.coreState n = cFaulted then b.wr F.ODR_STATUS_STATE cHalted n
  else if b.coreState n = cHalted then b
  else if boundary b n ∧ (b.odr n).held.isNone ∧ (b.odr n).wait.isNone then coreHalt b n
  else b.setOdr n { b.odr n with halt := true }

/-! ### Address modification (R271) -/

/-- The smallest power of two at or above `l`, from `p` up. -/
def pow2From : Nat → Nat → Nat → Nat
  | 0, p, _ => p
  | k + 1, p, l => if l ≤ p then p else pow2From k (2 * p) l

/-- The next value of an address register under its modifier; `none` is ILLEGAL. -/
def postMod (a m : Nat) : Option Nat :=
  let inc := toS 16 (field m 0 16)
  match field m 30 2 with
  | 0 => some (ofS 23 ((a : Int) + inc))
  | 1 =>
    let l := field m 16 14 + 1
    let bs := pow2From 15 1 l
    let base := a - a % bs
    some ((base + (((a - base : Nat) : Int) + inc) % (l : Int)).toNat % 2 ^ 23)
  | 2 =>
    let k := field m 16 4
    if k = 0 ∨ k = 15 ∨ field m 20 10 ≠ 0 then none
    else some (a - a % 2 ^ k + revBits k ((revBits k (a % 2 ^ k) + revBits k (field m 0 16 % 2 ^ k)) % 2 ^ k))
  | _ => none

/-! ### The mailbox (R295 to R299) -/

/-- Line 4 follows the FIFO (R289). -/
def noticeLine (b : Blk) (n : Nat) : Blk :=
  let p := b.rd F.ODR_IRQ_IPEND n
  b.wr F.ODR_IRQ_IPEND (if (b.odr n).notices.isEmpty then andW 24 p (2 ^ 24 - 1 - 16) else orW 24 p 16) n

/-- The two words of the oldest notice (R296). -/
def mbWord0 (b : Blk) (n : Nat) : Nat :=
  match (b.odr n).notices with
  | [] => 0
  | x :: _ => x.entry % 1024 + 1024 * x.st + 4096 * x.code + 2 ^ 14 * b2n x.early + 2 ^ 15 * b2n x.ovr +
      2 ^ 16 * field x.dtick 32 16

def mbWord1 (b : Blk) (n : Nat) : Nat :=
  match (b.odr n).notices with
  | [] => 0
  | x :: _ => x.dtick % 2 ^ 32

/-- MBPOP1 removes the oldest notice (R296). -/
def mbPop (n : Nat) (b : Blk) : Blk :=
  noticeLine (b.setOdr n { b.odr n with notices := (b.odr n).notices.tail }) n

/-- Entry `e` is selected by group `k` of core `n`. -/
def groupSees (b : Blk) (n k e : Nat) : Bool :=
  bit (b.rd F.ODR_GMASK_MASK n (12 * k + e / 64)) (e % 64)

/-- Every entry a group selects has been updated since the arm took hold (R299). -/
def groupDone (b : Blk) (n k : Nat) : Bool :=
  let g := (b.odr n).grp.get ⟨[], 0, 0⟩ k
  (List.range 768).all (fun e => !groupSees b n k e || g.seen.contains e)

/-- GROUP_FIRE (R299). -/
def groupFire (n k : Nat) (b : Blk) : Blk :=
  if !b.on F.ODR_GRP_ARM n k ∨ !groupDone b n k then b
  else
    let g := (b.odr n).grp.get ⟨[], 0, 0⟩ k
    let b := ((((b.wr F.ODR_GRP_LAST_TICK g.latest n k).wr F.ODR_GRP_ANYUNAV (g.flags % 2) n k).wr
      F.ODR_GRP_ANYERASE (g.flags / 2) n k).wr F.ODR_GRP_ANYEARLY (g.flags / 4) n k).wr F.ODR_GRP_ARM 0 n k
    coreLine (b.setOdr n { b.odr n with grp := (b.odr n).grp.erase k }) n k

/-- GROUP_ARM (R299): an empty mask fires at once. -/
def groupArm (n k : Nat) (b : Blk) : Blk :=
  let b := (b.wr F.ODR_GRP_ARM 1 n k).setOdr n { b.odr n with grp := (b.odr n).grp.set k ⟨[], 0, 0⟩ }
  if groupDone b n k then b.sched 0 (.groupFire (Fin.ofNat 16 n) (Fin.ofNat 4 k)) else b

/-- A group is disarmed by writing 0 (R315). -/
def groupDisarm (n k : Nat) (b : Blk) : Blk :=
  (b.wr F.ODR_GRP_ARM 0 n k).setOdr n { b.odr n with grp := (b.odr n).grp.erase k }

/-- An update counts toward group `k` (R299). -/
def groupUpdate (b : Blk) (n k e st code : Nat) (early : Bool) (d : Nat) : Blk :=
  if !b.on F.ODR_GRP_ARM n k ∨ !groupSees b n k e then b
  else
    let g := (b.odr n).grp.get ⟨[], 0, 0⟩ k
    let fl := b2n (decide (st = 3)) + 2 * b2n (decide (st = 2 ∧ code = 3)) + 4 * b2n early
    let g := { g with seen := if g.seen.contains e then g.seen else e :: g.seen, latest := max g.latest d,
                      flags := orW 3 g.flags fl }
    let b := b.setOdr n { b.odr n with grp := (b.odr n).grp.set k g }
    if groupDone b n k then b.sched 0 (.groupFire (Fin.ofNat 16 n) (Fin.ofNat 4 k)) else b

/-- MAILBOX_NOTICE (R296, R297, R299): an update to DONE or UNAVAIL reaches the mailbox. -/
def mailboxNotice (n e st code : Nat) (early ovr : Bool) (d : Nat) (b : Blk) : Blk :=
  let s := b.odr n
  let b :=
    if bit (b.rd F.ODR_MBMASK_MASK n (e / 64)) (e % 64) then
      if 64 ≤ s.notices.length then
        coreLine ((b.inc F.ODR_CNT_NOTICES_LOST 1 n).stick F.ODR_STATUS_MB_LOST n) n 5
      else noticeLine (b.setOdr n { s with notices := s.notices ++ [⟨e, st, code, early, ovr, d⟩] }) n
    else b
  (List.range 4).foldl (fun b k => groupUpdate b n k e st code early d) b

/-! ### The address space (R272 to R275, R298, R316, R454) -/

/-- Byte of the data memory a word address selects, in space X (0) or Y (1): `none` is unmapped. -/
def dmemByte (b : Blk) (n sp a : Nat) : Option Nat :=
  if b.on F.ODR_CTRL_MODE n then
    if a < 0x20000 then some (odrDmem n + 4 * (a + 0x20000 * sp)) else none
  else if a < 0x40000 then some (odrDmem n + 4 * a) else none

/-- Byte of the shared scratch a word address selects, within the owner's partition (R454). -/
def scratchByte (b : Blk) (n a : Nat) : Option Nat :=
  let o := 4 * (a - 0x400000)
  let f := b.owner (64 + n)
  let lo := 0x10000 * b.rd F.HIF_SPART_BASE f
  if 0x400000 ≤ a ∧ a ≤ 0x6FFFFF ∧ lo ≤ o ∧ o + 4 ≤ lo + 0x10000 * b.rd F.HIF_SPART_SIZE f then
    some (scratchBase + o)
  else none

/-- A word of the decision vector window (R298). Log 26 (DEDUCED). -/
def dvWord (b : Blk) (n w : Nat) : Nat :=
  (List.range 4).foldl (fun v i => v + dvByte (b.dvEnt (n / 8) (4 * w + i)) * 2 ^ (8 * i)) 0

/-- CSR (R317). -/
def csr (b : Blk) (n : Nat) : Nat := b.word .odrStatus n % 2 ^ 17

/-- A read of the I/O page (R316). -/
def ioRead (b : Blk) (n a : Nat) : Nat × Blk :=
  let s := b.odr n
  if a = 0x41000 then (mbWord0 b n, b)
  else if a = 0x41001 then (mbWord1 b n, mbPop n b)
  else if a = 0x41002 then (s.notices.length, b)
  else if 0x41010 ≤ a ∧ a < 0x41020 then
    let k := (a - 0x41010) / 4
    (match a % 4 with
     | 0 => b.rd F.ODR_GRP_ARM n k
     | 1 => b.rd F.ODR_GRP_LAST_TICK n k % 2 ^ 32
     | 2 => b.rd F.ODR_GRP_ANYUNAV n k + 2 * b.rd F.ODR_GRP_ANYERASE n k + 4 * b.rd F.ODR_GRP_ANYEARLY n k
     | _ => 0, b)
  else if a = 0x41020 then (b.rd F.ODR_IRQ_IPEND n, b)
  else if a = 0x41021 then (b.rd F.ODR_IRQ_IEN n, b)
  else if a = 0x41022 then (s.timer, b)
  else if a = 0x41024 then (csr b n, b)
  else if a = 0x41028 then (b.now % 2 ^ 32, b.setOdr n { s with tnowHi := field b.now 32 32 })
  else if a = 0x41029 then (s.tnowHi, b)
  else (0, b)

/-- The sticky bits of CSR and ODR_STATUS, by bit. -/
def csrSticky : List Fld :=
  [F.ODR_STATUS_SAT, F.ODR_STATUS_OVF, F.ODR_STATUS_POISON, F.ODR_STATUS_GMASK_BUSY, F.ODR_STATUS_MB_LOST,
   F.ODR_STATUS_EV_REFUSED, F.ODR_STATUS_HO_RANGE, F.ODR_STATUS_HO_REFUSED, F.ODR_STATUS_PMEM_REFUSED]

/-- Bits of IPEND cleared by writing 1: line 4 ignores writes (R314). -/
def ipendClear (b : Blk) (n v : Nat) : Blk :=
  b.wr F.ODR_IRQ_IPEND (andW 24 (b.rd F.ODR_IRQ_IPEND n) (2 ^ 24 - 1 - andW 24 v (2 ^ 24 - 1 - 16))) n

/-- A write of the I/O page (R316). -/
def ioWrite (b : Blk) (n a v : Nat) : Blk :=
  if 0x41010 ≤ a ∧ a < 0x41020 then
    if a % 4 = 0 then (if bit v 0 then groupArm n ((a - 0x41010) / 4) b else groupDisarm n ((a - 0x41010) / 4) b)
    else b
  else if a = 0x41020 then ipendClear b n v
  else if a = 0x41021 then b.wr F.ODR_IRQ_IEN v n
  else if a = 0x41022 then b.setOdr n { b.odr n with timer := v % 2 ^ 32 }
  else if a = 0x41024 then csrSticky.foldl (fun b f => if bit v f.lsb then b.wr f 0 n else b) b
  else b

/-- A word read from a byte address of a store: poison reads 0 and sets POISON (R274). -/
def wordRead (b : Blk) (m : Mem) (n a : Nat) : Nat × Blk :=
  if m.poisoned a then (0, (poisonRead b a).stick F.ODR_STATUS_POISON n) else (m.le a 4, b)

/-- A read below the shared scratch; `none` raises ADDR. -/
def coreRead (b : Blk) (m : Mem) (n sp a : Nat) : Option (Nat × Blk) :=
  if 0x40000 ≤ a ∧ a ≤ 0x400BF then some (dvWord b n (a - 0x40000), b)
  else if 0x41000 ≤ a ∧ a ≤ 0x410FF then some (ioRead b n a)
  else match dmemByte b n sp a with
    | some x => some (wordRead b m n x)
    | none => none

/-- A write below the shared scratch; the decision vector window takes none.  `none` raises ADDR. Log 26 (DEDUCED). -/
def coreWrite (s : BM) (n sp a v : Nat) : Option BM :=
  if 0x40000 ≤ a ∧ a ≤ 0x400BF then some s
  else if 0x41000 ≤ a ∧ a ≤ 0x410FF then some (ioWrite s.1 n a v, s.2)
  else match dmemByte s.1 n sp a with
    | some x => some (storeWrite s.1 s.2 x (leBytes 4 v))
    | none => none

/-! ### Instruction words (R276 to R280) -/

/-- The instruction word at the PC. -/
def coreWord (m : Mem) (b : Blk) (n : Nat) : Nat := m.le (odrPmem n + 4 * ((b.odr n).pc % 65536)) 4

/-- Formats. -/
def isPar (w : Nat) : Bool := !bit w 31
def isImm (w : Nat) : Bool := field w 29 3 == 4
def isLs (w : Nat) : Bool := field w 29 3 == 5
def isLdi (w : Nat) : Bool := field w 29 3 == 6
def isCtrl (w : Nat) : Bool := field w 29 3 == 7

/-- Operation code of PAR and IMM. -/
def odrOp (w : Nat) : Nat := if isPar w then field w 25 6 else field w 24 5
def odrD (w : Nat) : Nat := if isPar w then field w 21 4 else field w 20 4
def odrA (w : Nat) : Nat := if isPar w then field w 17 4 else field w 16 4
def odrB (w : Nat) : Nat := field w 13 4
def cop (w : Nat) : Nat := field w 24 5

/-- PAR codes that are assigned. -/
def parOp (o : Nat) : Bool :=
  decide (o ≤ 0x1C) || (decide (0x20 ≤ o) && decide (o ≤ 0x27)) || (decide (0x30 ≤ o) && decide (o ≤ 0x34)) ||
  (decide (0x38 ≤ o) && decide (o ≤ 0x3B))

/-- The word holds an assigned operation (R278). -/
def opAssigned (w : Nat) : Bool :=
  if isPar w then parOp (odrOp w)
  else if isImm w then decide (odrOp w ≤ 0x18)
  else if isCtrl w then decide (cop w ≤ 0xA)
  else true

/-- Reserved bits and forbidden operands of an assigned word (R276 to R280). Log 27 (DEDUCED). -/
def fieldsOk (w : Nat) : Bool :=
  if isPar w then
    let o := odrOp w
    !bit w 0 &&
    (!((decide (0x20 ≤ o) && decide (o ≤ 0x27)) || o == 0x33 || o == 0x34) || decide (odrD w < 4)) &&
    (o != 0x31 || odrD w % 2 == 0)
  else if isImm w then true
  else if isLs w then true
  else if isLdi w then !bit w 23 || field w 16 7 == 0
  else match cop w with
    | 0x01 => decide (field w 16 4 ≤ 6)
    | 0x02 => decide (field w 16 4 ≤ 6)
    | 0x05 => field w 16 8 == 0 && field w 13 3 == 0 && decide (field w 0 13 ≤ 4096)
    | 0x06 => field w 0 20 == 0
    | _ => field w 0 24 == 0

/-- Transfers, REP and REPR, which no delay slot may hold (R285). -/
def isTransfer (w : Nat) : Bool := isCtrl w && decide (1 ≤ cop w) && decide (cop w ≤ 6)

/-! ### Issue and retirement (R283 to R288) -/

/-- What an instruction does to the flow of control. -/
inductive Flow where
  | next | jump (t : Nat) (rti : Bool) | rep (k : Nat) | wait | halt
  deriving DecidableEq, Repr

/-- How an instruction ends: a fault cause (R308), or the machine, its flow and its loads. -/
inductive CoreRes where
  | fault (cause : Nat)
  | ok (s : BM) (fl : Flow) (loads : List PLoad)
  deriving DecidableEq, Repr

/-- Loads one instruction further: those at their last delay slot land (R284). -/
def stepLoads (b : Blk) (n : Nat) (new : List PLoad) : Blk :=
  let s := b.odr n
  let l : List PLoad := s.loads.map (fun x => { x with left := x.left - 1 })
  let b := (l.filter (fun x => x.left == 0)).foldl (fun b x => gWrBank b n x.shadow x.reg x.val) b
  b.setOdr n { b.odr n with loads := l.filter (fun x => x.left != 0) ++ new }

/-- The PC after an instruction: a delay slot goes to its transfer's target, a body repeats. -/
def flowOn (b : Blk) (n : Nat) (fl : Flow) : Blk :=
  let s := b.odr n
  let b := match s.rep with
    | some k => if k ≤ 1 then b.setOdr n { s with rep := none, pc := (s.pc + 1) % 65536 }
                else b.setOdr n { s with rep := some (k - 1) }
    | none => match s.jump with
      | some (t, rti) =>
        let b := b.setOdr n { s with jump := none, pc := t % 65536 }
        if rti then b.wr F.ODR_STATUS_BANK 0 n else b
      | none => b.setOdr n { s with pc := (s.pc + 1) % 65536 }
  let s := b.odr n
  match fl with
  | .next => b
  | .jump t rti => b.setOdr n { s with jump := some (t, rti) }
  | .rep k => if k = 0 then b.setOdr n { s with pc := (s.pc + 1) % 65536 } else b.setOdr n { s with rep := some k }
  | .wait => b.wr F.ODR_STATUS_STATE cWaiting n
  | .halt => (b.wr F.ODR_CTRL_RUN 0 n).setOdr n { s with halt := true }

/-- One instruction of core `n` issues now, if the word at its PC is one that `mine` picks. -/
def coreIssue (n : Nat) (mine : Nat → Bool) (f : BM → Nat → Nat → CoreRes) (s : BM) : BM :=
  let b := s.1
  let o := b.odr n
  let w := coreWord s.2 b n
  if b.coreState n ≠ cRunning ∨ o.held.isSome ∨ o.wait.isSome ∨ !mine w then s
  else if s.2.poisoned (odrPmem n + 4 * (o.pc % 65536)) then
    (coreFault (poisonRead b (odrPmem n)) n 5, s.2)
  else if !fieldsOk w ∨ (o.jump.isSome ∧ isTransfer w) ∨ (o.rep.isSome ∧ !(isPar w || isImm w)) then
    (coreFault b n 1, s.2)
  else match f s n w with
    | .fault c => (coreFault b n c, s.2)
    | .ok s' fl loads =>
      let b := flowOn (stepLoads s'.1 n loads) n fl
      (if (b.odr n).halt && boundary b n && (b.odr n).held.isNone && (b.odr n).wait.isNone then coreHalt b n
       else b, s'.2)

/-! ### PAR and IMM (R277, R279) -/

/-- An operation: block, core, word, the values of A and B; the block after it or a fault cause. -/
abbrev OpFn := Blk → Nat → Nat → Nat → Nat → Except Nat Blk

/-- One parallel move: kind, address register, data register. -/
structure Move where
  kind : Nat
  ar : Nat
  dr : Nat
  sp : Nat
  deriving DecidableEq, Repr

def moves (w : Nat) : List Move :=
  if isPar w then [⟨field w 11 2, field w 9 2, 8 + field w 7 2, 0⟩, ⟨field w 5 2, 4 + field w 3 2, 12 + field w 1 2, 1⟩]
  else []

/-- The loads of an instruction: values read at its issue (R277), MY's after MX's. -/
def moveLoads (m : Mem) (n : Nat) : List Move → Blk → Option (Blk × List PLoad)
  | [], b => some (b, [])
  | x :: t, b =>
    if x.kind = 1 ∨ x.kind = 3 then
      match coreRead b m n x.sp (aRd b n x.ar) with
      | none => none
      | some (v, b) => (moveLoads m n t b).map (fun r => (r.1, ⟨2, shadowOn b n, x.dr, v⟩ :: r.2))
    else moveLoads m n t b

/-- The stores of an instruction, with the values held at its issue. Log 30 (DEDUCED). -/
def moveStores (n : Nat) : List (Nat × Nat × Nat) → BM → Option BM
  | [], s => some s
  | (sp, a, v) :: t, s => match coreWrite s n sp a v with
    | none => none
    | some s => moveStores n t s

/-- Post-modified address registers; `none` is ILLEGAL. -/
def moveMods (b0 : Blk) (n : Nat) : List Move → Blk → Option Blk
  | [], b => some b
  | x :: t, b =>
    if x.kind = 1 ∨ x.kind = 2 then
      match postMod (aRd b0 n x.ar) (b0.rd F.ODR_M_VAL n x.ar) with
      | none => none
      | some a => moveMods b0 n t (aWr b n x.ar a)
    else moveMods b0 n t b

/-- MTA writes an address register that a move of the same instruction post-modifies: the spec gives no
order, and the register's value is free. Log 29 (DESIGN CHOICE). -/
def mtaClash (b : Blk) (n w : Nat) : Blk :=
  if odrOp w = 0x19 ∧ (moves w).any (fun x => (x.kind == 1 || x.kind == 2) && x.ar == odrD w % 8) then
    (aWr b n (odrD w % 8) b.fresh).spend
  else b

/-- A PAR or IMM instruction: sources first, then loads, the operation, stores and post-modification. -/
def parExec (f : OpFn) (s : BM) (n w : Nat) : CoreRes :=
  let b := s.1
  let av := gRd b n (odrA w)
  let bv := if isPar w then gRd b n (odrB w) else ofS 32 (toS 16 (field w 0 16))
  let ms := moves w
  let st := (ms.filter (fun x => x.kind == 2)).map (fun x => (x.sp, aRd b n x.ar, gRd b n x.dr))
  match moveLoads s.2 n ms b with
  | none => .fault 2
  | some (b1, loads) =>
    match f b1 n w av bv with
    | .error c => .fault c
    | .ok b2 =>
      match moveStores n st (b2, s.2) with
      | none => .fault 2
      | some s3 =>
        match moveMods b n ms s3.1 with
        | none => .fault 1
        | some b4 =>
          let b5 := mtaClash b4 n w
          let two := decide (2 ≤ st.length) && !b.on F.ODR_CTRL_MODE n
          let b6 := if two then b5.setOdr n { b5.odr n with stall := (b5.odr n).stall + 1 } else b5
          .ok (b6, s3.2) .next loads

/-- An operation that writes one g register. -/
def opG (f : Nat → Nat → Nat) : OpFn := fun b n w a c => .ok (gWr b n (odrD w) (f a c % 2 ^ 32))

/-- A saturated result, with SAT. -/
def satG (b : Blk) (n d : Nat) (x : Int) : Blk :=
  gWr (b.stickIf (decide (satS 32 x ≠ x)) F.ODR_STATUS_SAT n) n d (ofS 32 (satS 32 x))

def sg (x : Nat) : Int := toS 32 x
def hi16 (x : Nat) : Int := toS 16 (field x 16 16)
def lo16 (x : Nat) : Int := toS 16 (field x 0 16)

/-- A × B or A × conj(B), exact (R281). -/
def cProd (conj : Bool) (a c : Nat) : Int × Int :=
  let bq := if conj then -hi16 c else hi16 c
  (lo16 a * lo16 c - hi16 a * bq, lo16 a * bq + hi16 a * lo16 c)

/-- A complex operation on c[D]: from its old value and the product. -/
def opC (conj : Bool) (k : Int) (keep : Bool) : OpFn := fun b n w a c =>
  let d := odrD w % 4
  let p := cProd conj a c
  let o := if keep then cRd b n d else (0, 0)
  .ok (cWr b n d (o.1 + k * p.1) (o.2 + k * p.2))

/-- rnd_sat16 and rnd_sat32 before their saturation (R282). -/
def rnd32 (p : Int) (s : Nat) : Int := rndShift p s

def pNop : OpFn := fun b _ _ _ _ => .ok b
def pAdd : OpFn := opG (fun a c => a + c)
def pSub : OpFn := opG (fun a c => a + 2 ^ 32 - c % 2 ^ 32)
def pAnd : OpFn := opG (andW 32)
def pOr : OpFn := opG (orW 32)
def pXor : OpFn := opG (xorW 32)
def pShl : OpFn := opG (fun a c => a * 2 ^ (c % 32))
def pShr : OpFn := opG (fun a c => a / 2 ^ (c % 32))
def pSar : OpFn := opG (fun a c => ofS 32 (sg a / 2 ^ (c % 32)))
/-- MOV: A, or the immediate in IMM format. -/
def pMov : OpFn := fun b n w a c => .ok (gWr b n (odrD w) (if isPar w then a else c))
def pNeg : OpFn := opG (fun a _ => 2 ^ 32 - a % 2 ^ 32)
def pAbs : OpFn := opG (fun a _ => ofS 32 (satS 32 ((sg a).natAbs : Int)))
def pMin : OpFn := opG (fun a c => if sg a ≤ sg c then a else c)
def pMax : OpFn := opG (fun a c => if sg a ≤ sg c then c else a)
def pParm : OpFn := opG (fun a c => popcount 32 (andW 32 a c) % 2)
def pPopc : OpFn := opG (fun a c => popcount 32 (andW 32 a c))
def pSelnz : OpFn := fun b n w a c => .ok (if a ≠ 0 then gWr b n (odrD w) c else b)
def pSelz : OpFn := fun b n w a c => .ok (if a = 0 then gWr b n (odrD w) c else b)
def pMul : OpFn := opG (fun a c => ofS 32 (sg a * sg c))
def pMulh : OpFn := opG (fun a c => ofS 32 (sg a * sg c / 2 ^ 32))
def pAdds : OpFn := fun b n w a c => .ok (satG b n (odrD w) (sg a + sg c))
def pSubs : OpFn := fun b n w a c => .ok (satG b n (odrD w) (sg a - sg c))
def pCmplt : OpFn := opG (fun a c => b2n (decide (sg a < sg c)))
def pCmpeq : OpFn := opG (fun a c => b2n (decide (a % 2 ^ 32 = c % 2 ^ 32)))
def pExtb : OpFn := opG (fun a c => field a (8 * (c % 4)) 8)
def pMta : OpFn := fun b n w a _ => .ok (aWr b n (odrD w % 8) a)
def pMtm : OpFn := fun b n w a _ => .ok (b.wr F.ODR_M_VAL a n (odrD w % 8))
def pMfa : OpFn := fun b n w _ _ => .ok (gWr b n (odrD w) (aRd b n (odrA w % 8)))
def pMfm : OpFn := fun b n w _ _ => .ok (gWr b n (odrD w) (b.rd F.ODR_M_VAL n (odrA w % 8)))
def pCmul : OpFn := opC false 1 false
def pCmac : OpFn := opC false 1 true
def pCmsu : OpFn := opC false (-1) true
def pCmulj : OpFn := opC true 1 false
def pCmacj : OpFn := opC true 1 true
def pCmsuj : OpFn := opC true (-1) true
def pCclr : OpFn := fun b n w _ _ => .ok (cWr b n (odrD w % 4) 0 0)
def pCadd : OpFn := fun b n w _ _ =>
  let d := cRd b n (odrD w % 4)
  let a := cRd b n (odrA w % 4)
  .ok (cWr b n (odrD w % 4) (d.1 + a.1) (d.2 + a.2))
def pSacc16 : OpFn := fun b n w _ _ =>
  let p := cRd b n (odrA w % 4)
  let re := rndShift p.1 15
  let im := rndShift p.2 15
  let b := b.stickIf (decide (satS 16 re ≠ re) || decide (satS 16 im ≠ im)) F.ODR_STATUS_SAT n
  .ok (gWr b n (odrD w) (ofS 16 (satS 16 re) + 65536 * ofS 16 (satS 16 im)))
/-- Log 27 (DEDUCED). -/
def pSacc32 : OpFn := fun b n w _ _ =>
  let p := cRd b n (odrA w % 4)
  .ok (satG (satG b n (odrD w) (rnd32 p.1 (odrB w))) n (odrD w + 1) (rnd32 p.2 (odrB w)))
/-- Log 27 (DEDUCED). -/
def pSacc32r : OpFn := fun b n w _ _ =>
  .ok (satG b n (odrD w) (rnd32 (cRd b n (odrA w % 4)).1 (odrB w)))
def pLacc : OpFn := fun b n w a _ => .ok (cWr b n (odrD w % 4) (lo16 a * 2 ^ 15) (hi16 a * 2 ^ 15))
def pLacc32 : OpFn := fun b n w a c => .ok (cWr b n (odrD w % 4) (sg a) (sg c))

/-! ### Handoffs (R300 to R304, R307) -/

/-- A refused handoff (R301). -/
def hoRefuse (b : Blk) (n : Nat) : Blk :=
  coreLine ((b.inc F.ODR_CNT_HO_REFUSALS 1 n).stick F.ODR_STATUS_HO_REFUSED n) n 6

/-- A message enters the handoff queue: it arrives within 8 ticks on the core's own tile, within 14 on
the other (R302). Log 4 (DESIGN CHOICE). -/
def hoPut (b : Blk) (n v : Nat) (m : DlMsg) : Blk :=
  let dt := if m.isl = n / 8 then 8 else 14
  b.setOdr n { b.odr n with handq := (b.odr n).handq ++ [(b.elapsed + dt, v, m)] }

/-- A handoff to sequencer `q`'s port: refused, queued, or stalling the core (R301, R302). -/
def handoff (b : Blk) (n cls q : Nat) (eff : Eff) (t : Option DlTarget) (v : Nat) : Blk :=
  match t with
  | none => hoRefuse b n
  | some t =>
    if b.seqOwner q ≠ b.owner (64 + n) then hoRefuse b n
    else
      let m : DlMsg := ⟨none, cls, n, seqTile q, eff, some (Fin.ofNat 64 q), true, none,
        b.on F.ODR_STATUS_POISON n, t⟩
      if 16 ≤ (b.odr n).handq.length then b.setOdr n { b.odr n with held := some (v, m) }
      else hoPut b n v m

/-- HSR (R301). -/
def pHsr : OpFn := fun b n w a c =>
  let t := gRd b n (odrD w)
  let q := field t 0 6
  let ok := field t 6 2 == 0 && field t 12 20 == 0
  .ok (handoff b n 3 q .tick (if ok then some (.sreg (Fin.ofNat 64 q) (field t 8 4) a) else none) c)

/-- The Effect of a field (R9). -/
def effOf (f : Fld) : Eff :=
  match f.reg.fields.find? (fun x => x.fld.lsb == f.lsb) with
  | some x => x.eff
  | none => .tick

/-- HPAR (R301): a 48-bit field takes A and A + 1, with A even. Log 28 (DEDUCED). -/
def pHpar : OpFn := fun b n w a c =>
  let t := gRd b n (odrD w)
  let kind := field t 30 2
  let p := field t 24 5 + (if kind = 1 then 32 else 0)
  let s := field t 16 5
  let fl := field t 0 4
  let portOk := kind == 0 || (kind == 1 && decide (field t 24 5 < 16))
  let rsvd := bit t 29 || field t 21 3 != 0 || field t 4 12 != 0 || decide (5 ≤ fl)
  let slotOk := fl == 3 || decide (s < nSlots p)
  if fl = 0 ∧ odrA w % 2 = 1 then .error 1
  else if rsvd || !portOk || !slotOk then .ok (hoRefuse b n)
  else
    let q := portSeq p
    let par (f : Fld) (v j : Nat) : Blk :=
      handoff b n 2 q (effOf f) (some (.param (f.key p j) f.wid (v % 2 ^ f.wid))) c
    .ok (match fl with
      | 0 => par F.DRV_SFREQ_FTW (a + 2 ^ 32 * (gRd b n (odrA w + 1) % 65536)) s
      | 1 => par F.DRV_SPHASE_POFF a s
      | 2 => par F.DRV_SAMP_ASCL (a % 65536) s
      | 3 => par F.DRV_PSCALE_PSCALE (a % 65536) 0
      | _ => handoff b n 2 q .tick (some (.phrst (Fin.ofNat 48 p) s)) c)

/-- HBR (R301). -/
def pHbr : OpFn := fun b n _ a c =>
  let q := field a 0 6
  let ok := field a 6 10 == 0 && field a 28 4 == 0
  .ok (handoff b n 4 q .tick (if ok then some (.branch (Fin.ofNat 64 q) (field a 16 12)) else none) c)

/-- EVFIRE (R307): on a channel the core owns. -/
def pEvfire : OpFn := fun b n _ a _ =>
  let ch := a % 256
  if b.rd F.EVF_CHCFG_OKIND ch = 1 ∧ b.rd F.EVF_CHCFG_OIDX ch = n then
    .ok (publishFirst (hit b (928 + n) 1) ch (928 + n) b.now (gRd b n 0) 0)
  else .ok (b.stick F.ODR_STATUS_EV_REFUSED n)

/-- The 48-bit tag a 32-bit deadline operand names at arrival (R300). -/
def hoDeadline (b : Blk) (v : Nat) : Option Nat :=
  if v % 2 ^ 32 = 2 ^ 32 - 1 then none
  else
    let d : Nat := (v % 2 ^ 32 + 2 ^ 32 - b.now % 2 ^ 32) % 2 ^ 32
    let t : Int := if d ≤ 2 ^ 31 then (b.now : Int) + d else (b.now : Int) + d - 2 ^ 32
    some (ofS 48 t)

/-- The oldest handoff leaves for its island's deadline queue (R302). -/
def hoSend (b : Blk) (n : Nat) : Blk :=
  match (b.odr n).handq with
  | [] => b
  | (at_, v, m) :: t =>
    if at_ ≤ b.elapsed ∧ (b.queueOf m.isl).length < dlCap m.isl then
      (b.setOdr n { b.odr n with handq := t }).sched 0
        (.deadlineMsgArrive { m with deadline := hoDeadline b v })
    else b

/-- HANDOFF_QUEUE_ADMIT (R302): a stalled handoff enters the queue when a message has left. -/
def handoffQueueAdmit (n : Nat) (b : Blk) : Blk :=
  match (b.odr n).held with
  | some (v, m) =>
    if (b.odr n).handq.length < 16 then hoPut (b.setOdr n { b.odr n with held := none }) n v m else b
  | none => b

/-! ### LS, LDI and CTRL (R275, R276, R280) -/

/-- The address of an LS instruction. -/
def lsAddr (b : Blk) (n w : Nat) : Nat := ofS 23 ((aRd b n (field w 24 3) : Int) + toS 20 (field w 0 20))

/-- LS_LOAD: a shared-scratch load stalls the core until its data arrives. Log 4 (DESIGN CHOICE). -/
def lsLoad (s : BM) (n w : Nat) : CoreRes :=
  let b := s.1
  let a := lsAddr b n w
  let r := field w 20 4
  if 0x400000 ≤ a then
    match scratchByte b n a with
    | none => .fault 2
    | some x =>
      .ok ((b.setOdr n { b.odr n with wait := some (r, x) }).sched 27 (.scratchLoadData (Fin.ofNat 16 n)), s.2)
        .next []
  else match coreRead b s.2 n (field w 27 1) a with
    | none => .fault 2
    | some (v, b) => .ok (b, s.2) .next [⟨2, shadowOn b n, r, v⟩]

/-- SCRATCH_LOAD_DATA (R275): the data of the stalled load arrives and lands with a load's delay. -/
def scratchLoadData (m : Mem) (n : Nat) (b : Blk) : Blk :=
  match (b.odr n).wait with
  | none => b
  | some (r, x) =>
    let v := wordRead b m n x
    v.2.setOdr n { v.2.odr n with
      wait := none, loads := (v.2.odr n).loads ++ [⟨2, shadowOn b n, r, v.1⟩] }

/-- LS_STORE. -/
def lsStore (s : BM) (n w : Nat) : CoreRes :=
  let a := lsAddr s.1 n w
  let v := gRd s.1 n (field w 20 4)
  if 0x400000 ≤ a then
    match scratchByte s.1 n a with
    | none => .fault 2
    | some x => .ok (storeWrite s.1 s.2 x (leBytes 4 v)) .next []
  else match coreWrite s n (field w 27 1) a v with
    | none => .fault 2
    | some s => .ok s .next []

/-- LDI. -/
def ldi (s : BM) (n w : Nat) : CoreRes :=
  let b := s.1
  let d := field w 24 5
  let old := if d < 16 then gRd b n d else if d < 24 then aRd b n (d - 16) else b.rd F.ODR_M_VAL n (d - 24)
  let v := if bit w 23 then setField old 16 16 (field w 0 16) else ofS 32 (toS 23 (field w 0 23))
  let b := if d < 16 then gWr b n d v else if d < 24 then aWr b n (d - 16) v else b.wr F.ODR_M_VAL v n (d - 24)
  .ok (b, s.2) .next []

/-- COND of CTRL on gA. -/
def ctrlCond (b : Blk) (n w : Nat) : Bool :=
  field w 16 4 == 6 || condHolds (field w 16 4) (gRd b n (field w 20 4))

def kNopc (s : BM) (_n _w : Nat) : CoreRes := .ok s .next []
def kBr (s : BM) (n w : Nat) : CoreRes :=
  .ok s (if ctrlCond s.1 n w then .jump (field w 0 16) false else .next) []
def kCall (s : BM) (n w : Nat) : CoreRes :=
  let o := s.1.odr n
  if !ctrlCond s.1 n w then .ok s .next []
  else if 16 ≤ o.calls.length then .fault 3
  else .ok (s.1.setOdr n { o with calls := (o.pc + 2) % 65536 :: o.calls }, s.2) (.jump (field w 0 16) false) []
def kRet (s : BM) (n _w : Nat) : CoreRes :=
  let o := s.1.odr n
  match o.calls with
  | [] => .fault 3
  | a :: t => .ok (s.1.setOdr n { o with calls := t }, s.2) (.jump a false) []
/-- RTI: ILLEGAL with the main bank active (R293). -/
def kRti (s : BM) (n _w : Nat) : CoreRes :=
  if shadowOn s.1 n then .ok s (.jump (s.1.odr n).iret true) [] else .fault 1
def kRep (s : BM) (_n w : Nat) : CoreRes := .ok s (.rep (field w 0 13)) []
def kRepr (s : BM) (n w : Nat) : CoreRes :=
  let k := gRd s.1 n (field w 20 4)
  if 4096 < k then .fault 4 else .ok s (.rep k) []
def kWaiti (s : BM) (_n _w : Nat) : CoreRes := .ok s .wait []
def kHalt (s : BM) (_n _w : Nat) : CoreRes := .ok s .halt []
def kEi (s : BM) (n _w : Nat) : CoreRes := .ok (s.1.wr F.ODR_STATUS_IE 1 n, s.2) .next []
def kDi (s : BM) (n _w : Nat) : CoreRes := .ok (s.1.wr F.ODR_STATUS_IE 0 n, s.2) .next []

/-- ODR_RESERVED_OP: a word that no operation is assigned to raises ILLEGAL (R278). -/
def kReserved (_s : BM) (_n _w : Nat) : CoreRes := .fault 1

/-- Words of a PAR or IMM operation. -/
def isOp (o w : Nat) : Bool := (isPar w || (isImm w && decide (o ≤ 0x18))) && odrOp w == o
def isCop (c w : Nat) : Bool := isCtrl w && cop w == c

/-! ### Interrupts and the timer (R289 to R293, R306) -/

/-- The lowest line that is pending and enabled. -/
def takeLine (b : Blk) (n : Nat) : Option Nat :=
  (List.range 24).find? (fun l => bit (b.rd F.ODR_IRQ_IPEND n) l && bit (b.rd F.ODR_IRQ_IEN n) l)

/-- An interrupt can be taken now (R290). -/
def canTake (b : Blk) (n : Nat) : Bool :=
  b.on F.ODR_STATUS_IE n && boundary b n && (b.coreState n == cRunning || b.coreState n == cWaiting) &&
  (b.odr n).held.isNone && (b.odr n).wait.isNone

/-- INTERRUPT_TAKE (R289 to R291): the handler's first instruction issues two cycles later. -/
def interruptTake (n : Nat) (b : Blk) : Blk :=
  if !canTake b n then b
  else match takeLine b n with
    | none => b
    | some l =>
      let b := (b.wr F.ODR_STATUS_BANK 1 n).wr F.ODR_STATUS_STATE cRunning n
      let b := if l = 4 then b
        else b.wr F.ODR_IRQ_IPEND (andW 24 (b.rd F.ODR_IRQ_IPEND n) (2 ^ 24 - 1 - 2 ^ l)) n
      let o := b.odr n
      b.setOdr n { o with iret := o.pc, pc := (16 * b.rd F.ODR_VBASE_VBASE n + 16 * l) % 65536, stall := 1 }

/-- CORE_TIMER_ZERO (R306): the count reaches 0. -/
def coreTimerZero (n : Nat) (b : Blk) : Blk :=
  if (b.odr n).timer = 1 then coreLine (b.setOdr n { b.odr n with timer := 0 }) n 7 else b

/-! ### The commands -/

/-- One instruction of core `n` as a command. -/
def onCore (n : Nat) (mine : Nat → Bool) (f : BM → Nat → Nat → CoreRes) (s : State) : Res :=
  onBoth (fun m b => coreIssue n mine f (b, m)) s

def execOdrNop (n : CoreNo) (s : State) : Res := onCore n (isOp 0x00) (parExec pNop) s
def execAdd (n : CoreNo) (s : State) : Res := onCore n (isOp 0x01) (parExec pAdd) s
def execSub (n : CoreNo) (s : State) : Res := onCore n (isOp 0x02) (parExec pSub) s
def execAnd (n : CoreNo) (s : State) : Res := onCore n (isOp 0x03) (parExec pAnd) s
def execOr (n : CoreNo) (s : State) : Res := onCore n (isOp 0x04) (parExec pOr) s
def execXor (n : CoreNo) (s : State) : Res := onCore n (isOp 0x05) (parExec pXor) s
def execShl (n : CoreNo) (s : State) : Res := onCore n (isOp 0x06) (parExec pShl) s
def execShr (n : CoreNo) (s : State) : Res := onCore n (isOp 0x07) (parExec pShr) s
def execSar (n : CoreNo) (s : State) : Res := onCore n (isOp 0x08) (parExec pSar) s
def execMov (n : CoreNo) (s : State) : Res := onCore n (isOp 0x09) (parExec pMov) s
def execNeg (n : CoreNo) (s : State) : Res := onCore n (isOp 0x0A) (parExec pNeg) s
def execAbs (n : CoreNo) (s : State) : Res := onCore n (isOp 0x0B) (parExec pAbs) s
def execMin (n : CoreNo) (s : State) : Res := onCore n (isOp 0x0C) (parExec pMin) s
def execMax (n : CoreNo) (s : State) : Res := onCore n (isOp 0x0D) (parExec pMax) s
def execParm (n : CoreNo) (s : State) : Res := onCore n (isOp 0x0E) (parExec pParm) s
def execPopc (n : CoreNo) (s : State) : Res := onCore n (isOp 0x0F) (parExec pPopc) s
def execSelnz (n : CoreNo) (s : State) : Res := onCore n (isOp 0x10) (parExec pSelnz) s
def execSelz (n : CoreNo) (s : State) : Res := onCore n (isOp 0x11) (parExec pSelz) s
def execMul (n : CoreNo) (s : State) : Res := onCore n (isOp 0x12) (parExec pMul) s
def execMulh (n : CoreNo) (s : State) : Res := onCore n (isOp 0x13) (parExec pMulh) s
def execAdds (n : CoreNo) (s : State) : Res := onCore n (isOp 0x14) (parExec pAdds) s
def execSubs (n : CoreNo) (s : State) : Res := onCore n (isOp 0x15) (parExec pSubs) s
def execCmplt (n : CoreNo) (s : State) : Res := onCore n (isOp 0x16) (parExec pCmplt) s
def execCmpeq (n : CoreNo) (s : State) : Res := onCore n (isOp 0x17) (parExec pCmpeq) s
def execExtb (n : CoreNo) (s : State) : Res := onCore n (isOp 0x18) (parExec pExtb) s
def execMta (n : CoreNo) (s : State) : Res := onCore n (isOp 0x19) (parExec pMta) s
def execMtm (n : CoreNo) (s : State) : Res := onCore n (isOp 0x1A) (parExec pMtm) s
def execMfa (n : CoreNo) (s : State) : Res := onCore n (isOp 0x1B) (parExec pMfa) s
def execMfm (n : CoreNo) (s : State) : Res := onCore n (isOp 0x1C) (parExec pMfm) s
def execCmul (n : CoreNo) (s : State) : Res := onCore n (isOp 0x20) (parExec pCmul) s
def execCmac (n : CoreNo) (s : State) : Res := onCore n (isOp 0x21) (parExec pCmac) s
def execCmsu (n : CoreNo) (s : State) : Res := onCore n (isOp 0x22) (parExec pCmsu) s
def execCmulj (n : CoreNo) (s : State) : Res := onCore n (isOp 0x23) (parExec pCmulj) s
def execCmacj (n : CoreNo) (s : State) : Res := onCore n (isOp 0x24) (parExec pCmacj) s
def execCmsuj (n : CoreNo) (s : State) : Res := onCore n (isOp 0x25) (parExec pCmsuj) s
def execCclr (n : CoreNo) (s : State) : Res := onCore n (isOp 0x26) (parExec pCclr) s
def execCadd (n : CoreNo) (s : State) : Res := onCore n (isOp 0x27) (parExec pCadd) s
def execSacc16 (n : CoreNo) (s : State) : Res := onCore n (isOp 0x30) (parExec pSacc16) s
def execSacc32 (n : CoreNo) (s : State) : Res := onCore n (isOp 0x31) (parExec pSacc32) s
def execSacc32r (n : CoreNo) (s : State) : Res := onCore n (isOp 0x32) (parExec pSacc32r) s
def execLacc (n : CoreNo) (s : State) : Res := onCore n (isOp 0x33) (parExec pLacc) s
def execLacc32 (n : CoreNo) (s : State) : Res := onCore n (isOp 0x34) (parExec pLacc32) s
def execHsr (n : CoreNo) (s : State) : Res := onCore n (isOp 0x38) (parExec pHsr) s
def execHpar (n : CoreNo) (s : State) : Res := onCore n (isOp 0x39) (parExec pHpar) s
def execHbr (n : CoreNo) (s : State) : Res := onCore n (isOp 0x3A) (parExec pHbr) s
def execEvfire (n : CoreNo) (s : State) : Res := onCore n (isOp 0x3B) (parExec pEvfire) s
def execOdrReservedOp (n : CoreNo) (s : State) : Res := onCore n (fun w => !opAssigned w) kReserved s
def execLsLoad (n : CoreNo) (s : State) : Res := onCore n (fun w => isLs w && !bit w 28) lsLoad s
def execLsStore (n : CoreNo) (s : State) : Res := onCore n (fun w => isLs w && bit w 28) lsStore s
def execLdi (n : CoreNo) (s : State) : Res := onCore n isLdi ldi s
def execNopc (n : CoreNo) (s : State) : Res := onCore n (isCop 0x00) kNopc s
def execBr (n : CoreNo) (s : State) : Res := onCore n (isCop 0x01) kBr s
def execOdrCall (n : CoreNo) (s : State) : Res := onCore n (isCop 0x02) kCall s
def execOdrRet (n : CoreNo) (s : State) : Res := onCore n (isCop 0x03) kRet s
def execRti (n : CoreNo) (s : State) : Res := onCore n (isCop 0x04) kRti s
def execRep (n : CoreNo) (s : State) : Res := onCore n (isCop 0x05) kRep s
def execRepr (n : CoreNo) (s : State) : Res := onCore n (isCop 0x06) kRepr s
def execWaiti (n : CoreNo) (s : State) : Res := onCore n (isCop 0x07) kWaiti s
def execOdrHalt (n : CoreNo) (s : State) : Res := onCore n (isCop 0x08) kHalt s
def execEi (n : CoreNo) (s : State) : Res := onCore n (isCop 0x09) kEi s
def execDi (n : CoreNo) (s : State) : Res := onCore n (isCop 0x0A) kDi s
def execOdrRun (n : CoreNo) (s : State) : Res := onBlk (fun _ => odrRun n) s
def execOdrRunClear (n : CoreNo) (s : State) : Res := onBlk (fun _ => odrRunClear n) s
def execInterruptTake (n : CoreNo) (s : State) : Res := onBlk (fun _ => interruptTake n) s
def execCoreTimerZero (n : CoreNo) (s : State) : Res := onBlk (fun _ => coreTimerZero n) s
def execHandoffQueueAdmit (n : CoreNo) (s : State) : Res := onBlk (fun _ => handoffQueueAdmit n) s
def execMbpop1 (n : CoreNo) (s : State) : Res := onBlk (fun _ => mbPop n) s
def execScratchLoadData (n : CoreNo) (s : State) : Res := onBlk (fun m => scratchLoadData m n) s
def execMailboxNotice (n : CoreNo) (entry : Fin 768) (st code : Fin 4) (early ovr : Bool) (d : Nat)
    (s : State) : Res := onBlk (fun _ => mailboxNotice n entry st code early ovr d) s
def execGroupArm (n : CoreNo) (k : Fin 4) (s : State) : Res := onBlk (fun _ => groupArm n k) s
def execGroupFire (n : CoreNo) (k : Fin 4) (s : State) : Res := onBlk (fun _ => groupFire n k) s

end Sys2Proof.Machine
end

