-- ==== Sys2Proof/Machine/Dram.lean ====
section
/-!
DEFINITION. ECC and poison, the scrub, training, sweeps, refresh, and the refill of streams (R477 to
R500).
-/

namespace Sys2Proof.Machine

def Blk.setDdr (b : Blk) (x : DdrSt) : Blk := { b with ddr := x }

/-- DRAM channels of the variant (R484). -/
def channels (b : Blk) : Nat := if b.is32 then 8 else 4

/-- DRAM accesses counted in units of 64 bytes (R436). -/
def dramHit (b : Blk) (sel a n : Nat) : Blk :=
  if dramBase ≤ a ∧ n ≠ 0 then hit b sel ((a + n + 63) / 64 - a / 64) else b

/-- The channel of usable byte `a` (R484). -/
def channelOf (b : Blk) (a : Nat) : Nat := a / 256 % channels b

/-! ### Whether a store may be used (R448) -/

/-- Byte `a` of BAR2 lies in memory that a sweep is clearing, or in DRAM that is not in service.
Log 7 (DESIGN CHOICE). -/
def sweeping (b : Blk) (a : Nat) : Bool :=
  if a < dramBase then b.ddr.sram
  else
    let x := a - dramBase
    (!b.on F.MEM_DSTAT_DRAM_READY && decide (b.ddr.kept ≤ x)) || b.ddr.sweeps.any (fun s => decide (s.2.1 ≤ x) && decide (x < s.2.1 + s.2.2))

/-! ### Poison (R479, R480, R483) -/

/-- A read corrected one symbol: counted; at most one event per store and microsecond (R479). -/
def eccCorrect (b : Blk) (st : Nat) : Blk :=
  let b := b.inc F.MEM_ECC_CORR_COUNT 1 st
  let recent := match b.ddr.corrAt.find st with | some t => decide (b.elapsed < t + 800) | none => false
  if recent then b
  else (b.setDdr { b.ddr with corrAt := b.ddr.corrAt.set st b.elapsed }).publish 992 st b.now

/-- A read found an uncorrectable word: marked once, counted, recorded, announced (R480). -/
def poisonMark (b : Blk) (m : Mem) (a : Nat) : Blk × Mem :=
  let s := storeOf b a
  let b := (b.inc F.MEM_ECC_POISON_COUNT 1 s.1).wr F.MEM_ECC_LAST_WORD s.2 s.1
  (b.publish 993 s.1 b.now, m.setPoison a)

/-- The header of the segment not yet returned that holds byte `a` of the capture store, if any. -/
def segmentOf (b : Blk) (a : Nat) : Option Nat :=
  (List.range 16).findSome? (fun e =>
    let n := capSegSize b e
    if n = 0 then none
    else (b.cap e).busy.findSome? (fun g =>
      let s := captBase + capSegAt b e g
      if s ≤ a ∧ a < s + n then some s else none))

/-- SCRUB_WORD (R479 to R481, R483): the scrub reads the word at `a` and finds it good (0), with one bad
symbol (1) or uncorrectable (2). Log 6 (DESIGN CHOICE). -/
def scrubWord (a found : Nat) (m : Mem) (b : Blk) : Blk × Mem :=
  if b.rd F.MEM_DCTRL_SCRUB_H = 0 then (b, m)
  else if m.poisoned a then (poisonRead b a, m)
  else match found with
    | 0 => (b, m)
    | 1 => (eccCorrect b (storeOf b a).1, m)
    | _ =>
      let w := poisonMark b m a
      match (if captBase ≤ a ∧ a < scratchBase then segmentOf b a else none) with
      | some h => (w.1, w.2.setByte (h + 24) (BitVec.ofNat 8 ((w.2.byte (h + 24)).toNat ||| 4)))
      | none => w

/-! ### Training and sweeps (R486 to R489) -/

/-- A sweep of `n` usable bytes from `x` begins; it clears 1 GiB in 10 ms (R488).
Log 12 (DESIGN CHOICE), 77 (DESIGN CHOICE). -/
def dramSweep (b : Blk) (m : Mem) (id x n : Nat) : Blk × Mem :=
  let b := b.setDdr { b.ddr with sweeps := b.ddr.sweeps ++ [(id, x, n)] }
  let b := b.wr F.MEM_DSTAT_SWEEP_BUSY 1
  (b.sched (n * 8000000 / 2 ^ 30) (.dramSweepComplete id 0), m.sweep (dramBase + x) n)

/-- The sweep that TRAINED starts. -/
def trainedSweep (b : Blk) (m : Mem) : Blk × Mem :=
  dramSweep (b.setDdr { b.ddr with wait := false }) m 255 0 (dramSize b.is32)

/-- MEM_TRAIN_RUN (R486, R499): a write of MEM_TRAIN. Log 12 (DESIGN CHOICE), 47 (DESIGN CHOICE). -/
def memTrainRun (v : Nat) (b : Blk) : Blk :=
  if b.on F.MEM_TRAIN_BUSY then b
  else if b.on F.MEM_DCTRL_TRAINED then b.stick F.MEM_DSTAT_DLY_REFUSED
  else
    let b := [F.MEM_TRAIN_DLY, F.MEM_TRAIN_DIR, F.MEM_TRAIN_BYTE, F.MEM_TRAIN_CH].foldl
      (fun b f => b.wr f (field v f.lsb f.wid)) b
    if bit v 31 ∧ field v 0 3 < channels b then
      (b.spend.wr F.MEM_TRAIN_BUSY 1).sched 1600 (.trainRunDone b.fresh)
    else b

/-- TRAIN_RUN_DONE (R486): the run observed `errors` bit errors. Log 47 (DESIGN CHOICE). -/
def trainRunDone (errors : Nat) (m : Mem) (b : Blk) : Blk × Mem :=
  if !b.on F.MEM_TRAIN_BUSY then (b, m)
  else
    let b := (b.wr F.MEM_TRAIN_BUSY 0).wr F.MEM_TRAIN_ERRCNT (min errors 0xFFFF)
    if b.ddr.wait then trainedSweep b m else (b, m)

/-- TRAINED (R486, R487, R496). -/
def memTrained (m : Mem) (b : Blk) : Blk × Mem :=
  if b.on F.MEM_DCTRL_TRAINED then (b, m)
  else
    let b := b.wr F.MEM_DCTRL_TRAINED 1
    if b.on F.MEM_TRAIN_BUSY then (b.setDdr { b.ddr with wait := true }, m) else trainedSweep b m

/-- A training fault of channel `c` (R487, R489). -/
def trainingFault (b : Blk) (c : Nat) : Blk :=
  (b.wr F.MEM_DSTAT_TFAULT (orW 8 (b.rd F.MEM_DSTAT_TFAULT) (2 ^ c))).publish 997 c b.now

/-- DRAM_SWEEP_COMPLETE (R469, R487, R488): sweep `id` ends; for a sweep of the whole, bit c of `fails`
says that a read-back of channel c failed. -/
def dramSweepComplete (id fails : Nat) (b : Blk) : Blk :=
  if !b.ddr.sweeps.any (fun s => s.1 == id) then b
  else
    let b := b.setDdr { b.ddr with sweeps := b.ddr.sweeps.filter (fun s => s.1 != id) }
    let b := b.wr F.MEM_DSTAT_SWEEP_BUSY (b2n (!b.ddr.sweeps.isEmpty))
    let bad := (List.range (channels b)).filter (fun c => bit fails c)
    let b := if id = 255 then
        let b := b.setDdr { b.ddr with kept := 0 }
        (bad.foldl trainingFault b).wr F.MEM_DSTAT_DRAM_READY (b2n bad.isEmpty)
      else b.wr F.HIF_FSTAT_SWEEP 0 id
    b.publish 998 id b.now

/-- SRAM_SWEEP_COMPLETE (R488); the vendor images load within 10 µs more (R571).
Log 12 (DESIGN CHOICE), 45 (DEDUCED). -/
def sramSweepComplete (b : Blk) : Blk := (b.setDdr { b.ddr with sram := false }).sched 8000 .vimgReady

/-- Channel `c` serves nothing for `n` ticks. -/
def blockChannel (b : Blk) (c n : Nat) : Blk :=
  b.setDdr { b.ddr with block := b.ddr.block.set c (b.elapsed + n) }

/-- DRAM_REFRESH (R485). -/
def dramRefresh (c : Nat) (b : Blk) : Blk := if c < channels b then blockChannel b c 280 else b

/-- One delay in force of a retraining: two steps at most toward the eye centre, eight at most from the
value written; whether it called for more (R489). Log 46 (DEDUCED). -/
def retrainDelay (written active eye : Nat) : Nat × Bool :=
  let want : Int := if active < eye then active + min 2 (eye - active) else active - min 2 (active - eye)
  let got := clampI ((written : Int) - 8) (written + 8) want
  (got.toNat, decide (got ≠ want))

/-- DRAM_RETRAIN (R489): `eye` lists the eye centres of read lanes 0 to 3 and write lanes 0 to 3. Log 46 (DEDUCED). -/
def dramRetrain (c : Nat) (eye : List Nat) (b : Blk) : Blk :=
  if !b.is32 || !b.on F.MEM_DCTRL_TRAINED then b
  else
    let r := (List.range 4).foldl (fun (s : Blk × Bool) k =>
      let x := retrainDelay (s.1.rd F.MEM_DDLY_RD_DLY c k) (s.1.rd F.MEM_DDLY_RD_ACT c k) (eye.getD k 0)
      let y := retrainDelay (s.1.rd F.MEM_DDLY_WR_DLY c k) (s.1.rd F.MEM_DDLY_WR_ACT c k) (eye.getD (4 + k) 0)
      ((s.1.wr F.MEM_DDLY_RD_ACT x.1 c k).wr F.MEM_DDLY_WR_ACT y.1 c k, s.2 || x.2 || y.2)) (b, false)
    let b := blockChannel (r.1.bump F.MEM_DSTAT_RETRAINS) c 400
    if r.2 then trainingFault b c else b

/-! ### Refill and panic (R491 to R494) -/

/-- The descriptor of port `p` that is being fetched (R227). -/
def fetching (b : Blk) (p : Nat) : Option FetchD :=
  match (b.seq (portSeq p)).fetchq.filter (fun d => decide (d.got < d.size)) with
  | d :: _ => some d
  | [] => none

/-- The fetch may take a transfer now: room in the buffer, its channel in service. -/
def fetchReady (b : Blk) (p : Nat) : Bool :=
  match fetching b p with
  | some d =>
    decide ((b.port p).rbuf.length + 64 ≤ 65536) &&
      (d.denied || (!sweeping b (dramBase + d.addr + d.got) &&
        decide (b.ddr.block.get 0 (channelOf b (d.addr + d.got)) ≤ b.elapsed)))
  | none => false

/-- In panic (R492). -/
def panicking (b : Blk) (p : Nat) : Bool :=
  (fetching b p).isSome && decide ((b.port p).rbuf.length < b.rd F.MEM_PANIC_LEVEL p)

/-- The port the controller serves next: those in panic first, each group round-robin (R491).
Log 44 (DESIGN CHOICE). -/
def refillPort (b : Blk) : Option Nat :=
  let l := ((List.range 48).map (fun i => (b.ddr.last + 1 + i) % 48)).filter (fetchReady b)
  match l.find? (panicking b) with
  | some p => some p
  | none => l.head?

/-- Descriptors after `n` more bytes of the one being fetched; one that has left the queue goes when its
data are complete. -/
def fetchAdvance (n : Nat) : List FetchD → List FetchD
  | [] => []
  | d :: t =>
    if d.got < d.size then
      (if d.gone && decide (d.size ≤ d.got + n) then t else { d with got := d.got + n } :: t)
    else if d.gone then fetchAdvance n t
    else d :: fetchAdvance n t

/-- The bytes of a transfer enter the refill buffer; bytes to be discarded on arrival do not. -/
def fillBuffer (b : Blk) (p : Nat) (bytes : List Byte) (bad : List Nat) : Blk :=
  let x := b.port p
  let k := min x.dropBytes bytes.length
  b.setPort p { x with dropBytes := x.dropBytes - k, rbuf := x.rbuf ++ bytes.drop k,
                       arrived := x.arrived + (bytes.length - k),
                       bad := x.bad ++ (bad.filter (fun i => decide (k ≤ i))).map (fun i => x.arrived + i - k) }

/-- REFILL_TRANSFER (R120, R491, R454): 64 bytes, or what the descriptor still lacks, arrive; a poisoned
word arrives as zero. Log 44 (DESIGN CHOICE). -/
def refillTransfer (m : Mem) (b : Blk) : Blk :=
  if islBusy b 1 then b else
  match refillPort b with
  | none => b
  | some p =>
    match fetching b p with
    | none => b
    | some d =>
      let n := min 64 (d.size - d.got)
      let a := dramBase + d.addr + d.got
      let words := (List.range ((n + 7) / 8)).filter (fun i => !d.denied && m.poisoned (a + 8 * i))
      let bytes := if d.denied then List.replicate n (0 : Byte) else m.bytes a n
      let b := words.foldl (fun b i => poisonRead b (a + 8 * i)) b
      let q := portSeq p
      let b := b.setSeq q { b.seq q with fetchq := fetchAdvance n (b.seq q).fetchq }
      let b := b.setDdr { b.ddr with last := p }
      hit (fillBuffer b p bytes (words.map (fun i => 8 * i))) 0x603 1

/-- PANIC_ENTER (R492). Log 45 (DEDUCED). -/
def panicEnter (p : Nat) (b : Blk) : Blk :=
  if panicking b p ∧ !b.on F.MEM_PANIC_PANIC p then (b.wr F.MEM_PANIC_PANIC 1 p).publish 994 (0x90 + p) b.now else b

/-- Panic of port `p` in one tick: entry, count, end. -/
def panicTick (b : Blk) (p : Nat) : Blk :=
  if panicking b p then (panicEnter p b).inc F.MEM_PANIC_PANIC_TICKS 1 p
  else if b.on F.MEM_PANIC_PANIC p then b.wr F.MEM_PANIC_PANIC 0 p else b

/-- Eighths of a stream mode (R493). -/
def streamEighths (mode : Nat) : Nat := match mode with | 1 => 1 | 2 => 4 | 3 => 4 | 4 => 8 | _ => 0

/-- MEM_SLOAD in one tick (R494). -/
def streamLoad (b : Blk) : Blk :=
  let n := ((List.range 48).filter (fun p => b.on F.DRV_STATUS_STREAM_ACT p)).foldl
    (fun n p => n + streamEighths (b.act F.DRV_STREAM_SMODE p)) 0
  let b := b.wr F.MEM_SLOAD_LOAD n
  let b := b.wr F.MEM_SLOAD_PEAK (max n (b.rd F.MEM_SLOAD_PEAK))
  b.stickIf (decide ((if b.is32 then 32 else 16) < n)) F.MEM_SLOAD_OVERBUDGET

/-! ### Self-refresh (R495) -/

def showSelfRef (b : Blk) : Blk :=
  b.wr F.MEM_DSTAT_SELF_REFRESH (b2n ((List.range (channels b)).all (fun c => b.ddr.selfRef.contains c)))

/-- SELF_REFRESH_ENTRY: in Idle a channel returns to self-refresh. -/
def selfRefreshEntry (c : Nat) (b : Blk) : Blk :=
  if b.rd F.GLB_PWR_STATE = 1 ∧ c < channels b then
    showSelfRef (b.setDdr { b.ddr with selfRef := natInsert b.ddr.selfRef c })
  else b

/-- SELF_REFRESH_EXIT: an access takes the channel out of it. -/
def selfRefreshExit (c : Nat) (b : Blk) : Blk :=
  showSelfRef (b.setDdr { b.ddr with selfRef := b.ddr.selfRef.filter (fun x => x ≠ c) })

/-- Every channel enters or leaves self-refresh. -/
def selfRefreshAll (b : Blk) (on : Bool) : Blk :=
  showSelfRef (b.setDdr { b.ddr with selfRef := if on then List.range (channels b) else [] })

def execScrubWord (a found : Nat) (s : State) : Res := onBoth (scrubWord a found) s
def execMemTrainRun (v : Nat) (s : State) : Res := onBlk (fun _ => memTrainRun v) s
def execTrainRunDone (errors : Nat) (s : State) : Res := onBoth (trainRunDone errors) s
def execTrained (s : State) : Res := onBoth memTrained s
def execDramSweepComplete (id fails : Nat) (s : State) : Res := onBlk (fun _ => dramSweepComplete id fails) s
def execSramSweepComplete (s : State) : Res := onBlk (fun _ => sramSweepComplete) s
def execDramRefresh (ch : Fin 8) (s : State) : Res := onBlk (fun _ => dramRefresh ch) s
def execDramRetrain (ch : Fin 8) (eye : List Nat) (s : State) : Res := onBlk (fun _ => dramRetrain ch eye) s
def execRefillTransfer (s : State) : Res := onBlk refillTransfer s
def execPanicEnter (p : DacPort) (s : State) : Res := onBlk (fun _ => panicEnter p) s
def execSelfRefreshEntry (ch : Fin 8) (s : State) : Res := onBlk (fun _ => selfRefreshEntry ch) s
def execSelfRefreshExit (ch : Fin 8) (s : State) : Res := onBlk (fun _ => selfRefreshExit ch) s

end Sys2Proof.Machine
end

