-- ==== Sys2Proof/Machine/Seq.lean ====
section
/-!
DEFINITION. Port sequencers: enables and start requests, the front end's instructions, commit points,
entry starts, waits, branch requests, soft stops (R202 to R232, R239, R240, R258).
-/

namespace Sys2Proof.Machine

/-! ### States and start requests (R204 to R209) -/

def Blk.setState (b : Blk) (q st : Nat) : Blk := b.wr F.SEQ_STATUS_STATE st q

/-- A start request is dropped and counted. -/
def dropStart (b : Blk) (q : Nat) : Blk := b.inc F.SEQ_CNT_TRIG_DROP 1 q

/-- A region whose channel-map check runs holds EN back (R29). -/
def chmapBusy (b : Blk) (r : Nat) : Bool := b.rd F.GLB_CHMAP_CTRL_STATUS r == 1

/-- EN of the sequencer may take hold as 1: the vendor image is there (R252), the region is not
contained (R551), no channel-map check runs (R29). -/
def enReady (b : Blk) (q : Nat) : Bool :=
  b.on F.UCS_STATUS_VIMG_READY (q / 8) && !regionHeld b (q / 8) && !chmapBusy b (q / 8)

/-- SEQ_EN_SET (R205, R252, R582). -/
def seqEnSet (q : Nat) (b : Blk) : Blk :=
  if !b.actOn F.SEQ_CTRL_EN q ∨ b.seqState q ≠ sDisabled then b
  else if b.rd F.GLB_LC_STATE = 2 ∧ !b.on F.GOV_CTRL_LOCK then b.stick F.GLB_PWR_LOCK_NEEDED
  else if !enReady b q then b.setSeq q { b.seq q with enWait := true }
  else
    let b := (b.setSeq q { b.seq q with enWait := false, halted := false }).setState q sArmed
    if seqKind q = .acq then
      match (b.acq (seqPort q)).crev with
      | some none => endCrevasse b (seqPort q)
      | _ => b
    else b

/-- A soft stop begins at granule boundary G, the first at or after tick `t` (R229). -/
def stopAtTick (b : Blk) (q t : Nat) : Blk :=
  let g := granule t
  match (b.seq q).stopAt with
  | some g0 => if g0 ≤ g then b
               else (b.setSeq q { b.seq q with stopAt := some g }).schedAt g (.softStopBegin (Fin.ofNat 64 q))
  | none => (b.setSeq q { b.seq q with stopAt := some g }).schedAt g (.softStopBegin (Fin.ofNat 64 q))

/-- A held QUEUE1 request is dropped and counted (R209). -/
def dropHeld (b : Blk) (q : Nat) : Blk :=
  match (b.seq q).held with
  | some _ => ((dropStart b q).setSeq q { b.seq q with held := none }).wr F.SEQ_STATUS_QPEND 0 q
  | none => b

/-- SEQ_EN_CLEAR (R205, R209, R232). -/
def seqEnClear (q : Nat) (b : Blk) : Blk :=
  if b.actOn F.SEQ_CTRL_EN q then b
  else
    let b := dropHeld (b.setSeq q { b.seq q with enWait := false }) q
    let b := match (b.seq q).pendStart with
      | some _ => (dropStart b q).setSeq q { b.seq q with pendStart := none }
      | none => b
    if b.seqState q = sArmed then b.setState q sDisabled
    else if b.seqState q = sRunning then stopAtTick b q b.now
    else b

/-- A start request with its start tick arrives (R204, R205, R209).  One that arrives between an accepted
request and its start tick meets TPOL as while RUNNING.  A request that does not resume clears VALID (R554).
Log 20 (DEDUCED). -/
def startReq (b : Blk) (q : Nat) (r : StartReq) : Blk :=
  let b := if r.saved.isNone ∧ b.on F.RCV_RESUME_VALID q ∧ !regionHeld b (q / 8) then
      b.wr F.RCV_RESUME_VALID 0 q else b
  let s := b.seq q
  let st := b.seqState q
  if st = sDisabled ∨ st = sStopping ∨ s.stopAt.isSome ∨ regionHeld b (q / 8) then dropStart b q
  else if st = sArmed ∧ s.pendStart.isNone then
    (b.setSeq q { s with pendStart := some r }).schedAt r.at_ (.seqStart (Fin.ofNat 64 q))
  else match b.rd F.SEQ_CTRL_TPOL q with
    | 1 => if s.held.isNone then (b.setSeq q { s with held := some r }).wr F.SEQ_STATUS_QPEND 1 q
           else dropStart b q
    | 2 =>
      if st = sRunning then
        stopAtTick ((b.inc F.SEQ_CNT_RESTARTS 1 q).setSeq q { s with restart := some r }) q (b.now + 2)
      else dropStart b q
    | _ => dropStart b q

/-- A start trigger at the tick HALT retired counts as arriving while RUNNING (R232). -/
def atRetire (b : Blk) (q : Nat) (r : StartReq) : Blk :=
  let pol := b.rd F.SEQ_CTRL_TPOL q
  if (b.seq q).pendStart.isSome ∨ (pol ≠ 1 ∧ pol ≠ 2) then dropStart b q
  else startReq (if pol = 2 then b.inc F.SEQ_CNT_RESTARTS 1 q else b) q r

/-- START_TRIGGER (R206): an event on START_CH, born at `birth`. -/
def startTrigger (q birth : Nat) (b : Blk) : Blk :=
  if !b.on F.SEQ_CTRL_TRIG_EN q then b
  else
    let s := granule (birth + max 8 (b.rd F.SEQ_START_START_DLY q))
    let late := decide (s < b.now + 2)
    let r : StartReq := ⟨if late then granule (b.now + 2) else s, none, none, late, none⟩
    if b.seqState q = sArmed ∧ (b.seq q).halted ∧ (b.seq q).lastEnd = some b.now then atRetire b q r
    else startReq b q r

/-- SEQ_CMD_START (R206). -/
def seqCmdStart (q : Nat) (b : Blk) : Blk := startReq b q ⟨granule (b.now + 2), none, none, false, none⟩

/-- SEQ_CMD_STOP (R234). -/
def seqCmdStop (q : Nat) (b : Blk) : Blk := if b.seqState q = sRunning then stopAtTick b q b.now else b

/-! ### Shots -/

/-- The shot in progress ends: its summary is to come (R465). -/
def endShot (b : Blk) (q : Nat) : Blk :=
  let s := b.seq q
  if s.shot.live then
    (b.setSeq q { s with shot := { s.shot with live := false }, ended := s.ended ++ [(s.shot, b.now)] }).sched
      (if seqKind q = .acq then 0 else 3) (.shotSummary (Fin.ofNat 64 q) s.shot.no)
  else b

/-- A shot with number `no` starts now. -/
def newShot (b : Blk) (q no : Nat) : Blk :=
  (b.wr F.SEQ_SHOT_SHOTNO no q).setSeq q { b.seq q with
    shot := ⟨no % 2 ^ 32, b.now, 0, 256, false, true⟩ }

/-- The frame boundary of a sequencer's port (R101, R119, R138, R151, R159, R330). -/
def frameBoundary (b : Blk) (q : Nat) : Blk :=
  let p := seqPort q
  match seqKind q with
  | .acq => frameAcq b p (b.seq q).shot.no
  | .probe => (frameProbe (frameDac b p) p).wr F.GOV_LCNT_GG 256 p
  | .drive => (frameDac b p).wr F.GOV_LCNT_GG 256 p

/-- SEQ_START (R205 to R208): at start tick S the run begins. Log 19 (DESIGN CHOICE), 20 (DEDUCED). -/
def seqStart (q : Nat) (b : Blk) : Blk :=
  let s := b.seq q
  match s.pendStart with
  | none => b
  | some r =>
    if b.now < r.at_ then b
    else if b.seqState q ≠ sArmed ∨ !b.actOn F.SEQ_CTRL_EN q then
      dropStart (b.setSeq q { s with pendStart := none }) q
    else
      let st := r.saved.getD ([], [])
      let b := b.setSeq q { s with
        pendStart := none, pc := r.pc.getD (b.rd F.SEQ_START_START_PC q), loops := st.1, calls := st.2,
        fe := .run, disp := b.now - 1, build := Entry.empty, next := none, line := [],
        lastEnd := some (b.now + 16), fresh := true, afterWait := false, brd := none, req := none,
        reqUntil := 0, halted := false, stopAt := none, waitSel := [], satU := none, rt := none,
        latch := [], trap := none, trapDue := false }
      let b := b.setState q sRunning
      let b := newShot b q (r.shot.getD (b.rd F.SEQ_SHOT_SHOTNO q + 1))
      let b := frameBoundary b q
      let b := if seqKind q = .acq then endCrevasse b (seqPort q) else b
      if r.late then
        ((b.stick F.SEQ_STATUS_TRIG_LATE q).inc F.SEQ_CNT2_TRIG_LATE_CNT 1 q).taint q tcLate
      else b

/-! ### The front end -/

/-- The tick of a dispatch at tick `t`, moved by a trap that took that tick (R258). Log 19 (DESIGN CHOICE). -/
def dispAt (s : SeqSt) (t : Nat) : Nat := if s.trap = some t then t + 1 else t

/-- The front end goes on at `pc` after an instruction whose LAST micro-op is now. Log 19 (DESIGN CHOICE). -/
def advance (b : Blk) (q pc : Nat) : Blk :=
  let s := b.seq q
  let d := if s.trapDue then b.now + 1 else dispAt s b.now
  b.setSeq q { s with pc := pc % 4096, disp := d, latch := [], trapDue := false }

/-- ILLEGAL or STACK at the instruction the front end has reached (R229, R231). -/
def seqError (b : Blk) (q : Nat) (stack : Bool) : Blk :=
  let s := b.seq q
  let b := if stack then b.stick F.SEQ_STATUS_STACK q else b.stick F.SEQ_STATUS_ILLEGAL q
  let b := b.wr F.SEQ_STATUS_ERR_PC s.pc q
  let b := b.publish 1021 (q + 64 * s.pc + 2 ^ 18 * b2n stack) b.now
  let b := if s.rt.isSome then abandoned b q true 6 else b
  stopAtTick (b.setSeq q { b.seq q with fe := .halted, rt := none, latch := [] }) q b.now

/-- The front end runs a program and is about to execute the instruction at its PC. -/
def feReady (b : Blk) (q : Nat) : Bool :=
  b.seqState q == sRunning && ((b.seq q).fe == .run || (b.seq q).fe == .waitQueue) && (b.seq q).rt.isNone

/-- A poisoned program word executes as ILLEGAL and taints the shot (R481). -/
def poisonedWord (b : Blk) (q a : Nat) : Blk := seqError ((poisonRead b a).taint q tcPoison) q false

/-- The word the front end has reached reads as poisoned. -/
def wordPoisoned (m : Mem) (b : Blk) (q : Nat) : Bool := m.poisoned (pgmBase q + 8 * ((b.seq q).pc % 4096))

/-- A vendor instruction executes at its LAST micro-op: nothing unless the word at the PC has the
opcode; ILLEGAL for a word that breaks R223 to R225 or reads as poisoned (R481). -/
def vendor (m : Mem) (b : Blk) (q op : Nat) (f : Blk → Nat → Blk) : Blk :=
  let w := progWord m q (b.seq q).pc
  if feReady b q && opOf w == op then
    if wordPoisoned m b q then poisonedWord b q (pgmBase q)
    else if wordIllegal b q w then seqError b q false else f b w
  else b

/-- The next PC in program order. -/
def nextPc (b : Blk) (q : Nat) : Nat := ((b.seq q).pc + 1) % 4096

/-- A zero-time action attaches to the entry under construction (R210). -/
def attach (b : Blk) (q : Nat) (a : Act) : Blk :=
  let s := b.seq q
  advance (b.setSeq q { s with build := { s.build with acts := s.build.acts ++ [a] } }) q (nextPc b q)

/-- The entry under construction is complete: R is now, and the front end waits for its commit (R214). -/
def closeEntry (b : Blk) (q : Nat) (e : Entry) : Blk :=
  let s := b.seq q
  b.setSeq q { s with build := Entry.empty, next := some (e, b.now), fe := .waitCommit, latch := [] }

/-- A timed instruction of kind `k` with what it adds to the entry under construction; ILLEGAL in an
open PLAY group (R226, R246). -/
def timed (b : Blk) (q : Nat) (k : EKind) (f : Entry → Entry) : Blk :=
  let s := b.seq q
  if s.build.kind ≠ .none then seqError b q false
  else
    let pc := nextPc b q
    closeEntry (b.setSeq q { s with pc := pc }) q { f s.build with kind := k }

/-! ### Segments (R212, R226, R454) -/

/-- A member touches an envelope block that the sequencer's owner does not own (R454). -/
def envDenied (b : Blk) (q p slot a granules : Nat) : Bool :=
  let r := portRegion p
  let fine := b.actOn F.DRV_SCTRL_ERATE p slot
  let ramp := b.act F.PRB_SENV_RAMP_LEN p slot
  let flat := decide (32 ≤ p) && b.actOn F.PRB_SENV_ENVMODE p slot
  let bytes := if b.rd F.DRV_STATUS_MODE_ACT p = 2 then 128 * granules
    else if flat then max 4 (4 * ramp * (if fine then 16 else 4))
    else if fine then 64 * granules else 16 * granules
  (List.range ((a + bytes - 1) / 0x40000 - a / 0x40000 + 1)).any (fun i =>
    b.owner (160 + 8 * r + (a / 0x40000 + i) % 8) != b.seqOwner q)

/-- A PLAY member joins the entry under construction (R226): the entry, or `none` where it breaks the
group. -/
def addMember (m : Mem) (b : Blk) (q : Nat) (e : Entry) (slot addr len : Nat) : Option Entry :=
  let p := seqPort q
  let bad := (e.kind != .none && e.kind != .seg) || (e.kind == .seg && e.len != len) ||
    e.members.any (fun x => x.slot == slot)
  if bad then none
  else
    let a := 16 * addr
    some { e with kind := .seg, len := len,
                  members := e.members ++ [⟨slot, a, memberSums m b p slot a len, envDenied b q p slot a len⟩] }

/-- Stream entries built or committed and not started: they have claimed queued descriptors. -/
def claimed (s : SeqSt) : Nat :=
  b2n s.build.stream + (match s.next with | some (e, _) => b2n e.stream | none => 0) +
  (s.line.filter (fun c => c.e.stream && !c.started)).length

/-- Descriptors in the fetch queue (R227). -/
def queued (s : SeqSt) : List FetchD := s.fetchq.filter (fun d => !d.gone)

/-- The STREAM PLAYS member joins the entry under construction (R226, R227). -/
def addStream (s : SeqSt) (e : Entry) : Option Entry :=
  let len := match (queued s)[claimed s]? with | some d => d.len | none => 4
  if (e.kind != .none && e.kind != .seg) || (e.kind == .seg && e.len != len) || e.stream then none
  else some { e with kind := .seg, len := len, stream := true }

/-- PLAY as the front end builds it: closes the segment with CHAIN 0. -/
def playBuild (m : Mem) (b : Blk) (q w : Nat) : Option Entry :=
  let addr := if bit w 55 then operandReg b q (field w 30 4) % 2 ^ 17 else field w 30 17
  addMember m b q (b.seq q).build (field w 50 5) addr (field w 0 16)

/-! ### Head instructions (R217) -/

/-- The entry a head instruction makes at a lookup: `none` where it is ILLEGAL, with the next PC. -/
def headEntry (m : Mem) (b : Blk) (q w : Nat) : Option Entry :=
  let s := b.seq q
  if wordIllegal b q w then none
  else match opOf w with
    | 0x01 => if s.build.kind = .none then some { s.build with kind := .halt } else none
    | 0x02 => playBuild m b q w
    | 0x03 =>
      let t := if bit w 56 then sregOf b q (field w 0 4) else field w 0 32
      if s.build.kind = .none then some { s.build with kind := .wait, len := t } else none
    | _ => none

/-! ### Customer routines: beginning (R239, R249) -/

/-- Dispatch of a customer opcode: the routine starts, its first micro-op to come. Log 19 (DESIGN CHOICE). -/
def beginRoutine (b : Blk) (q w : Nat) : Blk :=
  let s := b.seq q
  let e := dispEntry b (q / 8) (opOf w) % 8192
  b.setSeq q { s with
    rt := some ⟨e, e, w, [], (s.pc + 1) % 4096, [], s.build, [], false, false, none⟩ }

/-! ### Commit points (R214, R215, R219) -/

/-- The commit point an entry built at R has, and the end E it follows (R214). -/
def commitPoint (s : SeqSt) (r : Nat) : Nat :=
  match s.lastEnd with
  | some e => max (e - 12) r
  | none => r

/-- The start of an entry committed at C after an entry that ends at E; OPENW and streams go on the
grid (R213, R214). -/
def startOf (c : Nat) (lastEnd : Option Nat) (e : Entry) : Nat :=
  let t := match lastEnd with | some x => max x (c + 12) | none => c + 12
  let grid := e.stream || e.acts.any (fun a => match a with | .openw _ _ => true | _ => false)
  if grid then granule t else t

/-- The end of an entry that starts at `t`: none for an open wait. -/
def stopOf (t : Nat) (e : Entry) : Option Nat :=
  match e.kind with
  | .seg => some (t + 4 * e.len)
  | .wait => some (t + e.len)
  | .sync => some (alignUp t (2 ^ e.len))
  | .halt => some t
  | .waitd => none
  | .waitev => none
  | .none => some t

/-- An entry is committed with start tick `t`: the governor decides for a segment (R214, R228, R329). -/
def commitEntry (b : Blk) (q t : Nat) (e : Entry) (fromReq : Option Nat) : Blk :=
  let p := seqPort q
  let r : Blk × Nat × Bool :=
    if e.kind = .seg ∧ seqKind q ≠ .acq then
      let g := govCommit b p t e
      (g.1, g.2.gg, g.2.veto)
    else (b, 256, false)
  let b := r.1
  let c : CEntry := ⟨e, t, stopOf t e, false, r.2.1, r.2.2, b.rd F.SEQ_CTRL_UPOL q, fromReq⟩
  let s := b.seq q
  let fe : FeState := match e.kind with
    | .halt => .halted | .waitd => .waitLookup | .waitev => .waitLookup
    | _ => if s.brd.isSome then .waitLookup else .run
  (b.setSeq q { s with
    next := none, line := s.line ++ [c], lastEnd := c.stop, fresh := false, afterWait := false, fe := fe,
    disp := dispAt s b.now, latch := [] }).schedAt t (.entryStart (Fin.ofNat 64 q))

/-- The gap of R215: a commit point after E − 12. -/
def countGap (b : Blk) (q : Nat) : Blk :=
  let s := b.seq q
  match s.lastEnd with
  | some e => if !s.fresh && !s.afterWait && decide (e < b.now + 12) then
      (b.stick F.SEQ_STATUS_GAP q).inc F.SEQ_CNT_GAP_COUNT 1 q else b
  | none => b

/-- The reflex index of a sequencer, and whether a selected entry is UNAVAIL (R178, R181). -/
def reflexIndex (b : Blk) (q : Nat) : Nat × Bool :=
  (List.range 8).foldl (fun acc i =>
    let r : Reg := if i < 4 then .dscRsel0 else .dscRsel1
    let o := 16 * (i % 4)
    if b.actOn ⟨r, o + 15, 1⟩ q then
      let x := b.dvEnt (seqTile q) (b.act ⟨r, o, 10⟩ q)
      (acc.1 + b2n (bit x.code (b.act ⟨r, o + 10, 1⟩ q)) * 2 ^ i, acc.2 || x.st == 3)
    else acc) (0, false)

/-- Where a lookup continues (R179, R181): the target, and whether it is the fallback. -/
def reflexLookup (b : Blk) (q fb seqNext : Nat) : Nat × Bool :=
  let x := reflexIndex b q
  if x.2 then (fb, true)
  else
    let o := 16 * (x.1 % 4)
    if b.actOn ⟨.dscRtab, o + 12, 1⟩ q (x.1 / 4) then (b.act ⟨.dscRtab, o, 12⟩ q (x.1 / 4), false)
    else (seqNext, false)

/-- FB is taken (R219, R220). -/
def countFallback (b : Blk) (q : Nat) : Blk :=
  (b.stick F.SEQ_STATUS_FALLBACK q).inc F.SEQ_CNT2_FALLBACKS 1 q

/-- A two-word customer head routine runs in the lookup tick (R217, R250); see `headRoutine`. -/
abbrev HeadFn := Mem → Blk → Nat → Nat → Option Entry

/-- The front end continues at `pc`.  A head there makes its entry now, and `k` places it; anything else
is built from the tick after `d`. -/
def continueAt (m : Mem) (hr : HeadFn) (b : Blk) (q pc d : Nat) (k : Blk → Entry → Blk) : Blk :=
  let w := progWord m q pc
  let b := b.setSeq q { b.seq q with pc := pc % 4096, rt := none, latch := [] }
  if isHead b q w then
    let e? := if 0x40 ≤ opOf w then hr m b q w else headEntry m b q w
    match e? with
    | none => seqError b q false
    | some e =>
      if e.kind = .wait ∧ e.len = 0 then
        -- WAIT 0 makes no entry: the front end goes on with what follows it
        b.setSeq q { b.seq q with pc := (pc + 1) % 4096, fe := .run, disp := d + 1 }
      else k (b.setSeq q { b.seq q with pc := (pc + 1) % 4096, build := Entry.empty }) e
  else b.setSeq q { b.seq q with fe := .run, disp := d }

/-- ENTRY_COMMIT (R214, R215, R219): at the commit point the start of the next entry is fixed; a BRD
before it looks up the reflex table. Log 18 (DESIGN CHOICE). -/
def entryCommit (m : Mem) (hr : HeadFn) (q : Nat) (b : Blk) : Blk :=
  let s := b.seq q
  if b.seqState q ≠ sRunning ∨ s.stopAt.any (fun g => decide (g ≤ b.now)) then b
  else match s.next with
    | some (e, r) =>
      if b.now < commitPoint s r then b
      else commitEntry (countGap b q) q (startOf b.now s.lastEnd e) e none
    | none =>
      match s.brd with
      | none => b
      | some (fb, r) =>
        if b.now < commitPoint s r then b
        else
          let l := reflexLookup b q fb s.pc
          let b := b.setSeq q { s with brd := none }
          let b := if l.2 then countFallback b q else b
          continueAt m hr b q l.1 (b.now - 1)
            (fun b e => commitEntry (countGap b q) q (startOf b.now (b.seq q).lastEnd e) e none)

/-! ### Entry starts (R211 to R213) -/

/-- POFF plus a delta modulo 2³² (R223). -/
def shiftPoff (b : Blk) (p slot d : Nat) : Blk :=
  setNow b F.DRV_SPHASE_POFF ((b.act F.DRV_SPHASE_POFF p slot + d) % 2 ^ 32) p slot

/-- One attached action takes hold (R211, R223). -/
def applyAct (q : Nat) (b : Blk) (a : Act) : Blk :=
  let p := seqPort q
  match a with
  | .ftw s v => takeFtw b p s v
  | .poff s v r => let b := setNow b F.DRV_SPHASE_POFF v p s
                   if r then phaseReset b p s else b
  | .shiftp s d => shiftPoff b p s d
  | .ascl s v => setNow b F.DRV_SAMP_ASCL v p s
  | .pscale v => setNow b F.DRV_PSCALE_PSCALE v p 0
  | .emit e => b.publish (512 + 4 * q + e) (b.rd F.SEQ_SHOT_SHOTNO q) b.now
  | .capt e =>
    if b.owner (144 + e) = b.seqOwner q then b.sched 0 (.captureTrigger (Fin.ofNat 16 e) (16 * b.now) 1) else b
  | .openw mask k => openWindows b p mask k
  | .shot _ => b
  | .mrkp mk pat => b.sched 0 (.markerPatternStart (Fin.ofNat 16 mk) (Fin.ofNat 256 pat) (q + 1))

/-- SHOT at the entry's start: a frame boundary, with INC 1 the next shot (R223, R465). -/
def applyShot (b : Blk) (q : Nat) (a : Act) : Blk :=
  match a with
  | .shot true => frameBoundary (newShot (endShot b q) q (b.rd F.SEQ_SHOT_SHOTNO q + 1)) q
  | .shot false => frameBoundary b q
  | _ => b

/-- The segment part of a member, latched at the first tick (R91, R130). -/
def segOf (b : Blk) (p : Nat) (e : Entry) (x : Member) : SegSlot where
  addr := x.addr
  start := b.now
  len := 4 * e.len
  fine := b.actOn F.DRV_SCTRL_ERATE p x.slot
  flat := decide (32 ≤ p) && b.actOn F.PRB_SENV_ENVMODE p x.slot
  ramp := b.act F.PRB_SENV_RAMP_LEN p x.slot
  estop := decide (32 ≤ p) && b.actOn F.PRB_SENV_ESTOP p x.slot
  stream := false
  stop := none

/-- Every slot's segment part removed: unnamed slots play zero (R212). -/
def clearSegs (x : PortSt) : PortSt :=
  { x with slots := x.slots.map (fun e => (e.1, { e.2 with seg := none })), bbSeg := none }

/-- The first descriptor still in the queue leaves it (R227). -/
def leaveQueue : List FetchD → List FetchD
  | [] => []
  | d :: t => if d.gone then d :: leaveQueue t else { d with gone := true } :: t

/-- A stream segment starts: the oldest descriptor leaves the queue and supplies data (R227, R331). -/
def startStream (b : Blk) (q : Nat) (c : CEntry) : Blk :=
  let p := seqPort q
  let s := b.seq q
  let size := match queued s with | d :: _ => d.size | [] => 0
  let b := b.setSeq q { s with fetchq := leaveQueue s.fetchq }
  let sm := b.act F.DRV_STREAM_SMODE p
  let b := b.setPort p { b.port p with
    streamLeft := size, streamEnd := b.now + 4 * c.e.len, streamZero := c.veto, blank := false }
  let b := b.wr F.DRV_STATUS_STREAM_ACT (b2n (decide (sm ≠ 0))) p
  if sm = 1 ∨ sm = 2 then
    let sl := b.act F.DRV_STREAM_SSLOT p
    let g : SegSlot := ⟨0, b.now, 4 * c.e.len, sm == 2, false, 0, false, true, none⟩
    b.setSlot p sl { b.slot p sl with seg := some g }
  else b

/-- The members of a segment start (R212, R331, R454). -/
def startSegment (b : Blk) (q : Nat) (c : CEntry) : Blk :=
  let p := seqPort q
  let b := if b.on F.DRV_STATUS_STREAM_ACT p then endStream b p else b
  let b := b.setPort p (clearSegs (b.port p))
  let b := if c.veto then b
    else c.e.members.foldl (fun b x =>
      if x.denied then (b.stick F.HIF_FSTAT_ENV_DENIED (b.seqOwner q)).taint q tcDenied
      else if b.rd F.DRV_STATUS_MODE_ACT p = 2 then
        b.setPort p { b.port p with bbSeg := some (segOf b p c.e x) }
      else b.setSlot p x.slot { b.slot p x.slot with seg := some (segOf b p c.e x) }) b
  let b := if c.e.stream then startStream b q c else b
  let b := b.wr F.GOV_LCNT_GG c.gg p
  let s := b.seq q
  let b := b.setSeq q { s with shot := { s.shot with gg := min s.shot.gg c.gg } }
  if c.veto then b.taint q tcVeto else b

/-- The distinct entries a WAITD waits for (R180). -/
def waitEntries (b : Blk) (q : Nat) : List Nat :=
  (List.range 8).foldl (fun l i =>
    let r : Reg := if i < 4 then .dscRsel0 else .dscRsel1
    let o := 16 * (i % 4)
    let e := b.act ⟨r, o, 10⟩ q
    if b.actOn ⟨r, o + 15, 1⟩ q && !l.contains e then l ++ [e] else l) []

/-- A WAITD starts at W (R180, R220). -/
def startWaitd (b : Blk) (q : Nat) (c : CEntry) : Blk :=
  let es := waitEntries b q
  let left := es.filter (fun e =>
    let x := b.dvEnt (seqTile q) e
    !(dvFinal x.st && x.at_ == b.now && b.now != 0))
  let b := b.stickIf es.isEmpty F.SEQ_STATUS_WAITD_EMPTY q
  let sat := left.isEmpty
  let b := b.setSeq q { b.seq q with waitSel := left, satU := if sat then some b.now else none }
  let b := if sat then b.sched 1 (.waitdSatisfied (Fin.ofNat 64 q)) else b
  if c.e.tmo = 0 then b else b.sched (c.e.tmo + 1) (.waitdTimeout (Fin.ofNat 64 q))

/-- Committed entries whose time is over are left behind: `c` starts. -/
def lineFrom (t : Nat) : List CEntry → Option (CEntry × List CEntry)
  | [] => none
  | c :: l => if c.started then lineFrom t l
              else if c.start ≤ t then some (c, l) else none

/-- ENTRY_START (R211 to R214, R222): the committed entry whose start has come begins, its actions take
hold, and a branch request that waited for it is presented. -/
def entryStart (q : Nat) (b : Blk) : Blk :=
  let s := b.seq q
  if b.seqState q ≠ sRunning then b
  else match lineFrom b.now s.line with
    | none => b
    | some (c, rest) =>
      let b := b.setSeq q { s with line := { c with started := true } :: rest, req := none }
      let b := match s.req with
        | some t => b.sched 0 (.branchRequest (Fin.ofNat 64 q) (Fin.ofNat 4096 t))
        | none => b
      let b := c.e.acts.foldl (fun b a => applyShot b q a) b
      let b := c.e.acts.foldl (applyAct q) b
      match c.e.kind with
      | .seg => if seqKind q = .acq then b else startSegment b q c
      | .waitd => startWaitd b q c
      | .waitev => if c.e.tmo = 0 then b else b.sched (c.e.tmo + 1) (.waitevTimeout (Fin.ofNat 64 q))
      | .halt => b.sched 0 (.haltRetire (Fin.ofNat 64 q))
      | _ => b

/-- HALT_RETIRE (R205, R209, R465). Log 20 (DEDUCED). -/
def haltRetire (q : Nat) (b : Blk) : Blk :=
  let s := b.seq q
  match s.line with
  | c :: _ =>
    if b.seqState q = sRunning ∧ c.started ∧ c.e.kind = .halt then
      let b := endShot (b.setSeq q { s with line := [], fe := .halted, halted := true, rt := none }) q
      let b := b.setState q sArmed
      match s.held with
      | some r =>
        let r := { r with at_ := max (granule b.now) r.at_ }
        ((b.setSeq q { b.seq q with held := none, pendStart := some r }).wr F.SEQ_STATUS_QPEND 0 q).schedAt
          r.at_ (.seqStart (Fin.ofNat 64 q))
      | none => b
    else b
  | [] => b

/-! ### The instructions (R218, R223) -/

/-- A front-end-only instruction that goes on at `pc`. -/
def jumpTo (b : Blk) (q pc : Nat) : Blk := advance b q pc

def iNop (b : Blk) (q _w : Nat) : Blk := jumpTo b q (nextPc b q)

def iHalt (b : Blk) (q _w : Nat) : Blk := timed b q .halt id

def iPlay (m : Mem) (b : Blk) (q w : Nat) : Blk :=
  match playBuild m b q w with
  | none => seqError b q false
  | some e =>
    let pc := nextPc b q
    if bit w 56 then advance (b.setSeq q { b.seq q with build := e }) q pc
    else closeEntry (b.setSeq q { b.seq q with pc := pc }) q e

def iWait (b : Blk) (q w : Nat) : Blk :=
  let t := if bit w 56 then operandReg b q (field w 0 4) else field w 0 32
  if t = 0 then (if (b.seq q).build.kind ≠ .none then seqError b q false else jumpTo b q (nextPc b q))
  else timed b q .wait (fun e => { e with len := t })

def iWaitev (b : Blk) (q w : Nat) : Blk :=
  timed b q .waitev (fun e => { e with ch := field w 48 8, ttgt := field w 32 12, tmo := field w 0 32 })

def iWaitd (b : Blk) (q w : Nat) : Blk :=
  timed b q .waitd (fun e => { e with fb := field w 44 12, tmo := field w 0 32 })

/-- BRD: the front end waits for the lookup at the commit point (R219). -/
def iBrd (b : Blk) (q w : Nat) : Blk :=
  let s := b.seq q
  if s.build.kind ≠ .none then seqError b q false
  else b.setSeq q { s with pc := nextPc b q, brd := some (field w 44 12, b.now), fe := .waitLookup, latch := [] }

def iJmp (b : Blk) (q w : Nat) : Blk := jumpTo b q (field w 0 12)

def iBrs (b : Blk) (q w : Nat) : Blk :=
  if condHolds (field w 49 3) (operandReg b q (field w 52 4)) then jumpTo b q (field w 0 12)
  else jumpTo b q (nextPc b q)

def iCall (b : Blk) (q w : Nat) : Blk :=
  let s := b.seq q
  if 8 ≤ s.calls.length then seqError b q true
  else jumpTo (b.setSeq q { s with calls := nextPc b q :: s.calls }) q (field w 0 12)

def iRet (b : Blk) (q _w : Nat) : Blk :=
  let s := b.seq q
  match s.calls with
  | [] => seqError b q true
  | a :: t => jumpTo (b.setSeq q { s with calls := t }) q a

def iLoop (b : Blk) (q w : Nat) : Blk :=
  let s := b.seq q
  let cnt := (if bit w 56 then operandReg b q (field w 0 4) else field w 0 24) % 2 ^ 24
  if cnt = 0 then jumpTo b q (field w 44 12 + 1)
  else if 4 ≤ s.loops.length then seqError b q true
  else jumpTo (b.setSeq q { s with loops := (cnt, nextPc b q) :: s.loops }) q (nextPc b q)

/-- A loop level's count after a step: 24 bits. Log 23 (DEDUCED). -/
def loopDec (n : Nat) : Nat := (n + 2 ^ 24 - 1) % 2 ^ 24

/-- The innermost loop level stepped: popped when its count becomes zero (R218, R245). Log 23 (DEDUCED). -/
def loopStep : List (Nat × Nat) → List (Nat × Nat)
  | [] => []
  | (n, a) :: t => if loopDec n = 0 then t else (loopDec n, a) :: t

def iEndl (b : Blk) (q _w : Nat) : Blk :=
  let s := b.seq q
  match s.loops with
  | [] => seqError b q true
  | (n, a) :: _ => jumpTo (b.setSeq q { s with loops := loopStep s.loops }) q (if loopDec n = 0 then nextPc b q else a)

def iSync (b : Blk) (q w : Nat) : Blk := timed b q .sync (fun e => { e with len := field w 0 5 })

/-- SMODE's bytes per granule as R227 sizes a descriptor: 0 with OFF or a refused mode. -/
def fetchRate (b : Blk) (p : Nat) : Nat := 4 * smodeBytes (b.act F.DRV_STREAM_SMODE p)

/-- `n` bytes from usable-DRAM byte `a` lie in function `f`'s partition (R453, R454). -/
def inDpart (b : Blk) (f a n : Nat) : Bool :=
  let lo := 0x4000000 * b.rd F.HIF_DPART_BASE f
  decide (lo ≤ a) && decide (a + n ≤ lo + 0x4000000 * b.rd F.HIF_DPART_SIZE f)

/-- A descriptor joins the fetch queue (R227, R454). -/
def appendFetch (b : Blk) (q addr len : Nat) : Blk :=
  let s := b.seq q
  let f := b.seqOwner q
  let size := len * fetchRate b (seqPort q)
  let bad := !inDpart b f (64 * addr) size
  let b := b.setSeq q { s with fetchq := s.fetchq ++ [⟨64 * addr, len, size, 0, false, bad⟩] }
  if bad then (b.stick F.HIF_FSTAT_DRAM_DENIED f).taint q tcDenied else b

/-- STREAM FETCH: a full queue holds the front end. -/
def iFetch (b : Blk) (q w : Nat) : Blk :=
  let s := b.seq q
  if 4 ≤ (queued s).length then b.setSeq q { s with fe := .waitQueue }
  else jumpTo (appendFetch (b.setSeq q { s with fe := .run }) q (field w 24 29) (field w 0 16)) q (nextPc b q)

def iPlays (b : Blk) (q w : Nat) : Blk :=
  let s := b.seq q
  match addStream s s.build with
  | none => seqError b q false
  | some e =>
    if bit w 55 then advance (b.setSeq q { s with build := e }) q (nextPc b q)
    else closeEntry (b.setSeq q { s with pc := nextPc b q }) q e

def iOpr (b : Blk) (q w : Nat) : Blk :=
  let a := sregOf b q (field w 48 4)
  let c := if bit w 39 then field w 0 32 else sregOf b q (field w 44 4)
  jumpTo (setNow b F.SEQ_SREG_VALUE (opResult (field w 40 4) a c) q (field w 52 4)) q (nextPc b q)

def iSeta (b : Blk) (q w : Nat) : Blk :=
  if bit w 55 then attach b q (.pscale (field w 0 16)) else attach b q (.ascl (field w 50 5) (field w 0 16))

/-! ### Waits and branch requests (R180, R220 to R222, R232) -/

/-- The entry in progress at the back end. -/
inductive InProgress where
  | ends (e : Nat) | openWait | gap
  deriving DecidableEq, Repr

def inProgress (b : Blk) (s : SeqSt) : InProgress :=
  match s.line.reverse.find? (fun c => c.started) with
  | some c =>
    match c.stop with
    | none => .openWait
    | some e => if b.now < e then .ends e else .gap
  | none => match s.lastEnd with
    | some e => if b.now < e then .ends e else .gap
    | none => .gap

/-- The entry that starts a wait's path: at tick `t`, after the wait has ended. -/
def endWait (b : Blk) (q t : Nat) : Blk :=
  let s := b.seq q
  let l := s.line.map (fun c => if c.started ∧ c.stop.isNone then { c with stop := some t } else c)
  b.setSeq q { s with line := l, lastEnd := some t, waitSel := [], satU := none, afterWait := true }

/-- A committed entry that a branch request placed, not started yet. -/
def reqEntry (s : SeqSt) : Option CEntry := s.line.find? (fun c => !c.started && c.fromReq.isSome)

/-- The path of an ended wait begins at `t`; a request that had cut the wait later is presented at `t`
(R232). -/
def waitPath (m : Mem) (hr : HeadFn) (b : Blk) (q pc t d : Nat) : Blk :=
  let s := b.seq q
  let b := match reqEntry s with
    | some c => dropResv (b.setSeq q { s with line := s.line.filter (fun x => x.started), req := c.fromReq }) (seqPort q)
    | none => b
  continueAt m hr (endWait b q t) q pc d (fun b e => commitEntry b q (startOf (t - 12) (some t) e) e none)

/-- The wait in progress of a kind. -/
def openOf (s : SeqSt) (k : EKind) : Option CEntry :=
  s.line.find? (fun c => c.started && c.stop.isNone && c.e.kind == k)

/-- WAITD_SATISFIED (R180, R181, R220): the lookup at U + 1. -/
def waitdSatisfied (m : Mem) (hr : HeadFn) (q : Nat) (b : Blk) : Blk :=
  let s := b.seq q
  match openOf s .waitd with
  | none => b
  | some c =>
    if s.satU.isNone ∨ b.seqState q ≠ sRunning then b
    else
      let l := reflexLookup b q c.e.fb s.pc
      let b := if l.2 then countFallback b q else b
      waitPath m hr b q l.1 (b.now + 1) (b.now - 1)

/-- WAITD_TIMEOUT (R220): no satisfaction by W + TMO; the sequencer continues at FB. -/
def waitdTimeout (m : Mem) (hr : HeadFn) (q : Nat) (b : Blk) : Blk :=
  let s := b.seq q
  match openOf s .waitd with
  | none => b
  | some c =>
    if s.satU.isSome ∨ c.e.tmo = 0 ∨ b.now < c.start + c.e.tmo ∨ b.seqState q ≠ sRunning then b
    else
      let b := countFallback (b.stick F.SEQ_STATUS_WAITD_TMO q) q
      waitPath m hr b q c.e.fb (b.now + 1) (b.now - 1)

/-- WAITEV_EVENT (R221): an event on the channel at V; the next head issues at V + 2. -/
def waitevEvent (m : Mem) (hr : HeadFn) (q ch : Nat) (b : Blk) : Blk :=
  let s := b.seq q
  match openOf s .waitev with
  | none => b
  | some c =>
    if c.e.ch ≠ ch ∨ b.seqState q ≠ sRunning then b
    else waitPath m hr b q s.pc (b.now + 2) b.now

/-- WAITEV_TIMEOUT (R221). -/
def waitevTimeout (m : Mem) (hr : HeadFn) (q : Nat) (b : Blk) : Blk :=
  let s := b.seq q
  match openOf s .waitev with
  | none => b
  | some c =>
    if c.e.tmo = 0 ∨ b.now < c.start + c.e.tmo ∨ b.seqState q ≠ sRunning then b
    else waitPath m hr (b.stick F.SEQ_STATUS_WAITEV_TMO q) q c.e.ttgt (b.now + 1) (b.now - 1)

/-- The front end leaves the path it builds for `target`, which starts at `e` or later (R222). -/
def redirect (m : Mem) (hr : HeadFn) (b : Blk) (q target e : Nat) (cut : Option Nat) : Blk :=
  let s := b.seq q
  let b := if s.rt.isSome then abandoned b q true 4 else b
  let b := b.setSeq q { s with
    rt := none, build := Entry.empty, next := none, brd := none, req := none, reqUntil := e,
    lastEnd := some e, latch := [], line := s.line.filter (fun c => c.started) }
  continueAt m hr b q target b.now (fun b x =>
    match cut with
    | some t => commitEntry (countGap b q) q (startOf b.now (some e) x) x (some t)
    | none => b.setSeq q { b.seq q with next := some (x, b.now), fe := .waitCommit })

/-- BRANCH_REQUEST presented at P = now (R222, R232). -/
def branchRequest (m : Mem) (hr : HeadFn) (q target : Nat) (b : Blk) : Blk :=
  let s := b.seq q
  if b.seqState q ≠ sRunning ∨ regionHeld b (q / 8) then b.inc F.SEQ_CNT_REQ_DISCARD 1 q
  else
    let again := s.req.isSome || decide (b.now < s.reqUntil)
    let b := b.stickIf again F.SEQ_STATUS_REQ_REPLACED q
    let hold := b.setSeq q { s with req := some target }
    match inProgress b s with
    | .openWait =>
      if s.satU.isSome then hold
      else redirect m hr b q target (b.now + 12) (some target)
    | .ends e =>
      if b.now + 12 < e then redirect m hr b q target e none else hold
    | .gap =>
      if s.line.any (fun c => !c.started && c.fromReq.isNone) then hold
      else redirect m hr b q target (b.now + 12) (some target)

/-! ### Soft stops (R229, R230) -/

/-- SOFT_STOP_BEGIN at G = now. Log 21 (DEDUCED). -/
def softStopBegin (q : Nat) (b : Blk) : Blk :=
  let s := b.seq q
  if b.seqState q ≠ sRunning ∨ !s.stopAt.any (fun g => decide (g ≤ b.now)) then b
  else
    let b := if s.rt.isSome then abandoned b q true 5 else b
    let line := (s.line.filter (fun c => c.started)).map (fun c =>
      if c.stop.isNone ∨ c.e.kind = .wait ∨ c.e.kind = .sync then { c with stop := some b.now } else c)
    let b := b.setSeq q { s with
      fe := .halted, rt := none, build := Entry.empty, next := none, brd := none, req := none,
      line := line, waitSel := [], satU := none, stopAt := none, stopEnd := b.now + 8, fetchq := s.fetchq.filter (fun d => d.gone),
      shot := { s.shot with aborted := true }, latch := [] }
    let b := dropHeld b q
    let b := b.setState q sStopping
    let p := seqPort q
    let b := match seqKind q with
      | .acq => b.setAcq p { b.acq p with slots := (b.acq p).slots.map (fun (e : Nat × DemodSt) =>
          (e.1, { e.2 with wins := e.2.wins.map (fun (w : Win) => { w with aborted := true }) })) }
      | _ => b.setPort p { b.port p with soft := some b.now }
    b.sched 8 (.softStopComplete (Fin.ofNat 64 q))

/-- SOFT_STOP_COMPLETE (R205, R209, R230, R337): at G + 8, on an acquisition sequencer when its last
window has ended too. Log 21 (DEDUCED). -/
def softStopComplete (q : Nat) (b : Blk) : Blk :=
  let s := b.seq q
  let p := seqPort q
  if b.seqState q ≠ sStopping ∨ regionHeld b (q / 8) then b
  else if seqKind q = .acq ∧ anyWindow b p then b.sched 1 (.softStopComplete (Fin.ofNat 64 q))
  else
    let b := if seqKind q = .acq then b
      else
        let b := dropResv b p
        let b := if b.on F.DRV_STATUS_STREAM_ACT p then endStream b p else b
        let x := clearSegs (b.port p)
        let x := { x with slots := x.slots.map (fun (e : Nat × SlotSt) => (e.1, { e.2 with eI := 0, eQ := 0 })) }
        b.setPort p { x with soft := none }
    let b := endShot (b.setSeq q { b.seq q with line := [], lastEnd := none, halted := true }) q
    if !b.actOn F.SEQ_CTRL_EN q then (b.setSeq q { b.seq q with restart := none }).setState q sDisabled
    else
      let b := b.setState q sArmed
      match s.restart with
      | some r =>
        let r := { r with at_ := max (granule b.now) r.at_ }
        (b.setSeq q { b.seq q with restart := none, pendStart := some r }).schedAt r.at_
          (.seqStart (Fin.ofNat 64 q))
      | none => b

/-! ### Register writes and traps (R203, R240, R258) -/

/-- The routine that runs has read register `i` at a tick before now. -/
def hasRead (m : Mem) (b : Blk) (q i : Nat) : Bool :=
  let s := b.seq q
  match s.rt with
  | some r => r.reads.any (fun x => x.1 == i && decide (x.2 < b.now))
  | none =>
    let w := progWord m q s.pc
    s.fe == .run && decide (s.disp + 1 < b.now) && decide (b.now ≤ s.disp + costOf w) && vendorOp w &&
      earlyRead w == some i

/-- SREG (R203, R232, R240, R258): a register write takes hold; a routine that read the register and has
not committed restarts, its first micro-op now; at a vendor routine's LAST tick it keeps what it read. -/
def sregWrite (m : Mem) (q i v : Nat) (b : Blk) : Blk :=
  let s := b.seq q
  let old := sregOf b q i
  let b1 := setNow b F.SEQ_SREG_VALUE v q i
  if b.seqState q = sRunning ∧ hasRead m b q i then
    match s.rt with
    | some r =>
      if r.committed then b1
      else (abandoned b1 q false 1).setSeq q { s with build := r.mark, rt := some (r.fresh s.pc), disp := b.now - 1 }
    | none =>
      if b.now = s.disp + costOf (progWord m q s.pc) then b1.setSeq q { s with latch := s.latch.set i old }
      else (abandoned b1 q false 1).setSeq q { s with disp := b.now - 1, latch := [] }
  else b1

/-- VETO_NOTICE (R331, R258): the VETO trap takes the phase. -/
def vetoNotice (q : Nat) (b : Blk) : Blk := if b.seqState q = sRunning then trapNow b q 2 else b

/-- SEQ_JREQ (R222, R234): a host branch request, presented as ASAP. -/
def seqJreq (q target : Nat) (b : Blk) : Blk := b.sched 1 (.branchRequest (Fin.ofNat 64 q) (Fin.ofNat 4096 target))

end Sys2Proof.Machine
end

