-- ==== Sys2Proof/Machine/Lnk.lean ====
section
/-!
DEFINITION. Habor links: port states, slots, tallies, alignment, the exchange, packets, raw mode (R501
to R517).
-/

namespace Sys2Proof.Machine

/-- Log 34 (DEDUCED). -/
def Blk.lnkState (b : Blk) (p : Nat) : Nat := b.rd F.LNK_PSTAT_STATE p
def Blk.setLnkState (b : Blk) (p x : Nat) : Blk := b.wr F.LNK_PSTAT_STATE x p

/-- The port sends and takes alignment and exchange blocks: SYNCED or LOCKED (R509). -/
def timed2 (b : Blk) (p : Nat) : Bool := b.lnkState p == lnkSynced || b.lnkState p == lnkLocked

/-! ### Conditions of locked mode (R507) -/

/-- LT as it acts: 16 and above (R528). -/
def linkTransit (b : Blk) (p : Nat) : Nat := max 16 (b.rd F.LNK_PCFG_LT p)

/-- LT_MIN (R507). -/
def ltMin (b : Blk) (p : Nat) : Nat := (b.rd F.LNK_XCH_DELAY p + 15) / 16 + 2

def ltOk (b : Blk) (p : Nat) : Bool := decide (ltMin b p ≤ linkTransit b p)

/-- Every condition of R507 but those on FOM and LT. -/
def lockConds (b : Blk) (p : Nat) : Bool :=
  let ofs := b.rdS F.LNK_XCH_OFS p
  b.rd F.LNK_PCFG_MODE p == 0 && b.on F.TIM_STATUS_ALIGNED && b.on F.LNK_PSTAT_XVALID p &&
    decide (-4 ≤ ofs) && decide (ofs ≤ 4) && !b.on F.LNK_PSTAT_MODNUM_CLASH p

def fomOk (b : Blk) (p : Nat) : Bool :=
  (List.range 2).all (fun l => decide (b.rd F.LNK_PCFG_FOM_MIN p ≤ b.rd F.LNK_LANE_FOM p l))

/-- Stages of which some peer's last tally came on port `p` (R326). -/
def stagesVia (b : Blk) (p : Nat) : List Nat :=
  (List.range 4).filter (fun s => b.gov.peers.any (fun e => e.2.2.2 == p && e.1 % 8 / 2 == s))

/-- The port leaves its state for `to`, with detail word `d` of source 944 + 4p + 1 (R187, R326, R503,
R517). Log 96 (DEDUCED). -/
def lnkLeave (b : Blk) (p dest d : Nat) : Blk :=
  let b :=
    if b.lnkState p = lnkLocked then
      let b := (stagesVia b p).foldl fallBack (leaveLocked b p)
      b.setLink p { b.link p with tallyQ := [], cut := b.elapsed + 1 }
    else b
  ((b.setLink p { b.link p with exchQ := [] }).setLnkState p dest).publish (945 + 4 * p) d b.now

/-- A locked port leaves locked mode when a condition of R507 fails (R503, R526). Log 96 (DEDUCED). -/
def lockCheck (b : Blk) (p : Nat) : Blk :=
  if b.lnkState p = lnkLocked ∧ !(lockConds b p && ltOk b p) then
    lnkLeave (b.stickIf (!ltOk b p) F.LNK_PSTAT_LT_SHORT p) p lnkSynced 4
  else b

/-! ### States (R503, R504, R507) -/

/-- HABOR_PORT_ENABLE: EN takes hold as 1. -/
def haborPortEnable (p : Nat) (b : Blk) : Blk :=
  if b.lnkState p = lnkDown ∧ b.on F.LNK_PCFG_EN p then
    b.setLnkState p (if b.rd F.LNK_PCFG_MODE p = 2 then lnkRaw else lnkTraining)
  else b

/-- EN takes hold as 0. -/
def haborPortDisable (p : Nat) (b : Blk) : Blk :=
  if b.lnkState p = lnkDown then b
  else
    let b := if b.lnkState p = lnkLocked then lnkLeave b p lnkDown 0 else b.setLnkState p lnkDown
    let b := (b.wr F.LNK_LANE_BLOCK_LOCK 0 p 0).wr F.LNK_LANE_BLOCK_LOCK 0 p 1
    b.setLink p { b.link p with tallyQ := [], exchQ := [] }

/-- TRAINING_DONE: both lanes are block-locked and deskewed. -/
def trainingDone (p : Nat) (b : Blk) : Blk :=
  if b.lnkState p = lnkTraining then
    let b := (b.wr F.LNK_LANE_BLOCK_LOCK 1 p 0).wr F.LNK_LANE_BLOCK_LOCK 1 p 1
    b.setLnkState p (if b.rd F.LNK_PCFG_MODE p = 0 then lnkSynced else lnkFree)
  else b

/-- LOCKED_ENTRY: the conditions are looked at, at a frame start. -/
def lockedEntry (p : Nat) (b : Blk) : Blk :=
  if b.lnkState p = lnkSynced ∧ b.now % 33 = 0 then
    let b := b.stickIf (!ltOk b p) F.LNK_PSTAT_LT_SHORT p
    if lockConds b p && ltOk b p && fomOk b p then
      (b.setLnkState p lnkLocked).publish (944 + 4 * p) 0 b.now
    else b
  else b

/-- LANE_LOST: 16 of the last 64 headers are invalid; the port trains anew, a raw port stays raw. Log 96 (DEDUCED). -/
def laneLost (p lane : Nat) (b : Blk) : Blk :=
  let b := b.wr F.LNK_LANE_BLOCK_LOCK 0 p lane
  if timed2 b p ∨ b.lnkState p = lnkFree then lnkLeave b p lnkTraining (2 ^ lane) else b

/-! ### Tallies (R506, R510) -/

/-- A tally of `t` attojoules as M × 2^E, rounded up, with the smallest E for which M fits in 46 bits. -/
def tallyME (t : Nat) : Nat × Nat :=
  let e := ((List.range 32).find? (fun e => decide ((t + 2 ^ e - 1) / 2 ^ e < 2 ^ 46))).getD 31
  ((t + 2 ^ e - 1) / 2 ^ e, e)

/-- The tally block of stage `s`, window `w` (R509). -/
def tallyBlock (b : Blk) (s w : Nat) : Nat :=
  let me := tallyME ((b.talOf (59 + s) w + 65535) / 65536)
  2 * 2 ^ 60 + b.rd F.LNK_GCFG_MODNUM * 2 ^ 54 + s * 2 ^ 52 + w * 2 ^ 51 + me.2 * 2 ^ 46 + me.1

/-- A tally block joins a port's queue: it replaces one of the same origin, stage and window that has
waited a short bin (R506). Log 97 (DEDUCED). -/
def queueTally (b : Blk) (p w : Nat) : Blk :=
  let x := b.link p
  let same (e : Nat × Nat) : Bool :=
    field e.2 51 9 == field w 51 9 && decide (e.1 + 4 * binLen b 0 ≤ b.elapsed)
  if x.tallyQ.any same then
    b.setLink p { x with tallyQ := x.tallyQ.map (fun e => if same e then (b.elapsed, w) else e) }
  else b.setLink p { x with tallyQ := x.tallyQ ++ [(b.elapsed, w)] }

/-- TALLY_SEND: the eight stage tallies join the queue of a locked port. -/
def tallySend (p : Nat) (b : Blk) : Blk :=
  if b.lnkState p = lnkLocked then
    (List.range 8).foldl (fun b i => queueTally b p (tallyBlock b (i / 2) (i % 2))) b
  else b

/-- Every peer's tally of stage `s` is fresh: in time, and come after its port last left locked mode.
Log 97 (DEDUCED). -/
def allFresh (b : Blk) (s : Nat) : Bool :=
  (peerList b).all (fun m => (List.range 2).all (fun w =>
    match b.gov.peers.find (8 * m + 2 * s + w) with
    | some (_, t, p) => decide (b.elapsed < t + tallyAge b) && decide ((b.link p).cut ≤ t)
    | none => false))

/-- TALLY_RECEIVE (R508 to R510): the latest tally of an origin in LNK_PEERS is kept, a fallback ends when
every peer's is fresh (R326), the block is forwarded by R185's rule. Log 97 (DEDUCED). -/
def tallyReceive (p lane block : Nat) (ok : Bool) (b : Blk) : Blk :=
  if !ok ∨ 7 ≤ field block 60 4 then chkFail b p lane block
  else if b.lnkState p ≠ lnkLocked ∨ field block 60 4 ≠ 2 then b
  else
    let m := field block 54 6
    let s := field block 52 2
    let w := field block 51 1
    let aj := field block 0 46 * 2 ^ field block 46 5
    let b :=
      if bit (b.rd F.LNK_PEERS_PEERS) m then
        let b := { b with gov := { b.gov with peers := b.gov.peers.set (8 * m + 2 * s + w) (aj, b.elapsed, p) } }
        let b := b.sched (tallyAge b) (.peerTallyStale (Fin.ofNat 64 m) (Fin.ofNat 4 s) (Fin.ofNat 2 w))
        let fb := b.rd F.GOV_STATUS_POOL_FB
        if bit fb s && allFresh b s then b.wr F.GOV_STATUS_POOL_FB (fb - 2 ^ s) else b
      else b
    (List.range 4).foldl (fun b r =>
      if r = p ∨ m = b.rd F.LNK_GCFG_MODNUM ∨ !bit (b.act F.DSC_FWD_ORIGINS r) m ∨ b.lnkState r ≠ lnkLocked
      then b else queueTally b r block) b

/-! ### Alignment (R508, R510) -/

/-- ALIGN_SEND: the alignment block of a lane, with the parity of the blocks before it. Log 94 (DEDUCED). -/
def alignSend (p lane : Nat) (b : Blk) : Blk :=
  if timed2 b p then
    let x := b.link p
    let q := if lane = 0 then x.bip.1 else x.bip.2
    let w := 3 * 2 ^ 60 + lane * 2 ^ 59 + q * 2 ^ 48 + (b.now - b.now % 33) % 2 ^ 48
    let b := b.emit (.habor p lane w)
    b.setLink p { x with bip := if lane = 0 then (0, x.bip.2) else (x.bip.1, 0) }
  else b

/-- ALIGN_RECEIVE: `parity` is the parity of the blocks that arrived on the lane since the last one.
Log 94 (DEDUCED). -/
def alignReceive (p lane block : Nat) (ok : Bool) (parity : Nat) (b : Blk) : Blk :=
  if !ok ∨ 7 ≤ field block 60 4 then chkFail b p lane block
  else if !timed2 b p ∨ field block 60 4 ≠ 3 then b
  else if field block 48 8 = parity % 256 then b
  else b.inc F.LNK_CNT_BIP_ERR 1 p

/-! ### The exchange (R511) -/

/-- An exchange block joins the queue. -/
def queueExch (b : Blk) (p w : Nat) : Blk := b.setLink p { b.link p with exchQ := (b.link p).exchQ ++ [w] }

/-- EXCHANGE_START: a request is sent; `t1` is its stamp as it leaves the serializer. Log 95 (DESIGN CHOICE). -/
def exchangeStart (p t1 : Nat) (b : Blk) : Blk :=
  if timed2 b p then
    let n := ((b.link p).seq + 1) % 2 ^ 16
    let b := b.setLink p { b.link p with seq := n, t1 := some t1, ans := none }
    let b := queueExch b p (6 * 2 ^ 60 + b.rd F.LNK_GCFG_MODNUM * 2 ^ 52 + n)
    b.sched 4096 (.exchangeTimeout (Fin.ofNat 4 p))
  else b

/-- The peer's number as an exchange block reports it (R502). Log 96 (DEDUCED). -/
def peerIs (b : Blk) (p m : Nat) : Blk :=
  let b := b.wr F.LNK_PSTAT_PEER_MOD m p
  lockCheck (b.stickIf (m == b.rd F.LNK_GCFG_MODNUM) F.LNK_PSTAT_MODNUM_CLASH p) p

/-- An exchange block of kind `k` that passes its check in a state that uses it. -/
def exchTaken (b : Blk) (p block : Nat) (ok : Bool) : Bool :=
  ok && timed2 b p && field block 60 4 == 6

/-- EXCHANGE_REQUEST_RECEIVE: stamped T2 on arrival, answered in two blocks, the first stamped T3. -/
def exchangeRequestReceive (p lane block : Nat) (ok : Bool) (t2 t3 : Nat) (b : Blk) : Blk :=
  if !ok ∨ 7 ≤ field block 60 4 then chkFail b p lane block
  else if !exchTaken b p block ok ∨ field block 58 2 ≠ 0 then b
  else
    let b := queueExch b p (6 * 2 ^ 60 + 2 ^ 58 + b.rd F.LNK_GCFG_MODNUM * 2 ^ 52 + t2 % 2 ^ 52)
    let b := queueExch b p (6 * 2 ^ 60 + 2 * 2 ^ 58 + field block 0 16 * 2 ^ 32 +
      (t3 + 2 ^ 52 - t2 % 2 ^ 52) % 2 ^ 32)
    peerIs b p (field block 52 6)

/-- OFS of R511: the peer's counter minus the local one. -/
def xchOfs (t1 t2 t4 d : Nat) : Int :=
  rndDiv (toS 52 (t2 + 2 ^ 52 - t1 % 2 ^ 52) - toS 52 (t4 + 2 ^ 52 - (t2 + d) % 2 ^ 52)) 2

/-- DELAY of R511. -/
def xchDelay (t1 t4 d : Nat) : Int := rndDiv (toS 52 (t4 + 2 ^ 52 - t1 % 2 ^ 52) - (d : Int)) 2

/-- OFS, DELAY and LT_MIN are written and XVALID set.  A negative DELAY, and an LT_MIN above 255, have no
stated value in their fields: free. Log 95 (DESIGN CHOICE). -/
def exchangeDone (b : Blk) (p t1 t2 t4 d : Nat) : Blk :=
  let y := xchDelay t1 t4 d
  let dl := if y < 0 then b.fresh else min y.toNat 4095
  let b := ((b.spend.wr F.LNK_XCH_OFS (ofS 52 (xchOfs t1 t2 t4 d)) p).wr F.LNK_XCH_DELAY dl p).wr
    F.LNK_PSTAT_XVALID 1 p
  let lm := if 256 ≤ ltMin b p then b.fresh else ltMin b p
  let b := (b.spend.wr F.LNK_PSTAT_LT_MIN lm p).setLink p { b.link p with t1 := none, ans := none }
  lockCheck b p

/-- EXCHANGE_ANSWER_RECEIVE: the first answer block, stamped T4, then the second, which completes the
exchange its SEQ names. -/
def exchangeAnswerReceive (p lane block : Nat) (ok : Bool) (t4 : Nat) (b : Blk) : Blk :=
  if !ok ∨ 7 ≤ field block 60 4 then chkFail b p lane block
  else if !exchTaken b p block ok then b
  else if field block 58 2 = 1 then
    peerIs (b.setLink p { b.link p with ans := some (field block 0 52, t4) }) p (field block 52 6)
  else if field block 58 2 = 2 ∧ field block 32 16 = (b.link p).seq then
    match (b.link p).t1, (b.link p).ans with
    | some t1, some (t2, t4) => exchangeDone b p t1 t2 t4 (field block 0 32)
    | _, _ => b
  else b

/-- EXCHANGE_TIMEOUT: no answer within 4,096 ticks; a locked port leaves locked mode at once (R526). -/
def exchangeTimeout (p : Nat) (b : Blk) : Blk :=
  match (b.link p).t1 with
  | none => b
  | some _ =>
    lockCheck ((b.setLink p { b.link p with t1 := none, ans := none }).wr F.LNK_PSTAT_XVALID 0 p) p

/-! ### Slots (R505, R506) -/

/-- A slot that no decision and no alignment block takes: exchange before tally. -/
def restSlot (b : Blk) (p lane : Nat) : Blk :=
  let x := b.link p
  match x.exchQ, x.tallyQ with
  | w :: t, _ => sendBlock (b.setLink p { x with exchQ := t }) p lane w
  | [], e :: t => sendBlock (b.setLink p { x with tallyQ := t }) p lane e.2
  | [], [] => b

/-- The service slots of a frame: tick and lane. -/
def serviceSlots : List (Nat × Nat) :=
  (List.range 33).filterMap (fun i =>
    if firstSlot (i + 1) = firstSlot i + 2 then some (i, (firstSlot i + 1) % 2) else none)

/-- The first service slot of a lane in a frame: its tick. -/
def alignTick (lane : Nat) : Nat :=
  match serviceSlots.find? (fun e => e.2 == lane) with
  | some e => e.1
  | none => 0

/-- A decision block waits for the port (R184). -/
def decisionWaits (b : Blk) (p : Nat) : Bool :=
  !(forwardRun b.now (b.dsc.fwd.get [] p)).isEmpty || !(readyLatches b p).isEmpty

/-- The slots of the present tick on port `p`. -/
def linkSlots (b : Blk) (p : Nat) : Blk :=
  if !timed2 b p then b
  else
    let i := b.now % 33
    let b := if b.lnkState p = lnkLocked ∧ decisionWaits b p then decisionBlockSend p b
      else restSlot b p (decisionLane b)
    match serviceSlots.find? (fun e => e.1 == i) with
    | none => b
    | some (_, l) => if b.now / 33 % 64 = 0 ∧ alignTick l = i then alignSend p l b else restSlot b p l

/-! ### Free mode (R512 to R514) -/

/-- Buffer `d` of a port (R513): DRAM byte address and size. -/
def bufBase (b : Blk) (p d : Nat) : Nat := 4096 * b.rd F.LNK_FBUF_BASE p d

def bufSize (b : Blk) (p d : Nat) : Nat :=
  let l := b.rd F.LNK_FBUF_LOG2SZ p d
  2 ^ (if 12 ≤ l ∧ l ≤ 30 then l else 12)

/-- The buffer lies in the physical function's partition. -/
def bufOk (b : Blk) (p d : Nat) : Bool := inDpart b 0 (bufBase b p d) (bufSize b p d)

/-- Bytes in the buffer. -/
def bufUsed (b : Blk) (p d : Nat) : Nat :=
  (b.rd F.LNK_FPTR_PROD p d + 2 ^ 32 - b.rd F.LNK_FPTR_CONS p d) % 2 ^ 32

/-- BAR2 byte of position `n` of a buffer. -/
def bufAddr (b : Blk) (p d n : Nat) : Nat := dramBase + bufBase b p d + n % bufSize b p d

/-- `n` bytes from position `c`, wrapping. -/
def bufRead (b : Blk) (m : Mem) (p d c n : Nat) : List Byte × Blk :=
  let c := c % bufSize b p d
  let k := min n (bufSize b p d - c)
  let x := outBytes b m (bufAddr b p d c) k
  let y := outBytes x.2 m (bufAddr b p d 0) (n - k)
  (x.1 ++ y.1, y.2)

/-- Bytes put at position `c`, wrapping. -/
def bufWrite (b : Blk) (m : Mem) (p d c : Nat) (bs : List Byte) : Blk × Mem :=
  let c := c % bufSize b p d
  let k := min bs.length (bufSize b p d - c)
  let x := storeWrite b m (bufAddr b p d c) (bs.take k)
  if k = bs.length then x else storeWrite x.1 x.2 (bufAddr b p d 0) (bs.drop k)

/-- PACKET_SEND: the port sends the next whole packet of its transmit buffer. -/
def packetSend (p : Nat) (m : Mem) (b : Blk) : Blk :=
  if b.lnkState p ≠ lnkFree ∨ bufUsed b p 0 < 8 then b
  else if !bufOk b p 0 then b.stick F.HIF_FSTAT_DRAM_DENIED
  else
    let c := b.rd F.LNK_FPTR_CONS p 0
    let h := bufRead b m p 0 c 8
    let n := 8 + 8 * (field (leNat h.1) 16 12 + 1)
    if bufUsed b p 0 < n then b
    else
      let x := bufRead b m p 0 c n
      (x.2.emit (.packet p x.1)).wr F.LNK_FPTR_CONS (c + n) p 0

/-- PACKET_RECEIVE: a packet of `data` with its STREAMID; `crcOk` is what its CRC says. Log 105 (DESIGN CHOICE). -/
def packetReceive (p sid : Nat) (data : List Byte) (crcOk : Bool) (m : Mem) (b : Blk) : Blk × Mem :=
  let len := data.length / 8
  if b.lnkState p ≠ lnkFree ∨ len = 0 ∨ 4096 < len then (b, m)
  else if !crcOk then (b.inc F.LNK_CNT_RX_DROP 1 p, m)
  else if b.on F.LNK_PCFG_RXPARAM_EN p ∧ sid % 256 = 255 ∧ len = 2 then
    (b.sched 0 (.parameterPacket (Fin.ofNat 4 p) (leNat (data.take 8)) (leNat (data.drop 8))), m)
  else if !bufOk b p 1 then (b.stick F.HIF_FSTAT_DRAM_DENIED, m)
  else
    let n := 8 + 8 * len
    if bufSize b p 1 < bufUsed b p 1 + n then (b.inc F.LNK_CNT_RX_DROP 1 p, m)
    else
      let c := b.rd F.LNK_FPTR_PROD p 1
      let x := bufWrite b m p 1 c (leBytes 8 (sid % 256 + (len - 1) * 65536) ++ data.take (8 * len))
      (x.1.wr F.LNK_FPTR_PROD (c + n) p 1, x.2)

/-! ### Raw mode and adaptation (R515, R516) -/

/-- SLIP: the block boundary of a raw lane moves by one bit. Log 96 (DEDUCED). -/
def slip (p lane : Nat) (b : Blk) : Blk :=
  if b.lnkState p = lnkRaw then (b.bump F.LNK_LANE_SLIPS p lane).wr F.LNK_LANE_BLOCK_LOCK 0 p lane else b

/-- BLOCK_LOCK: 64 consecutive valid headers at a raw lane's boundary. -/
def blockLock (p lane : Nat) (b : Blk) : Blk :=
  if b.lnkState p = lnkRaw then b.wr F.LNK_LANE_BLOCK_LOCK 1 p lane else b

/-- PRBS_ERROR. -/
def prbsError (p lane : Nat) (b : Blk) : Blk :=
  if b.lnkState p = lnkRaw ∧ !b.on F.LNK_PCFG_RAWPAT p then b.stick F.LNK_LANE_PRBS_ERR p lane else b

/-- FOM_UPDATE: what the eye scanner finds, while EN is 1. -/
def fomUpdate (p lane v : Nat) (b : Blk) : Blk :=
  if b.on F.LNK_PCFG_EN p then b.wr F.LNK_LANE_FOM v p lane else b

def execHaborPortEnable (p : HabPort) (s : State) : Res := onBlk (fun _ => haborPortEnable p) s
def execTrainingDone (p : HabPort) (s : State) : Res := onBlk (fun _ => trainingDone p) s
def execLockedEntry (p : HabPort) (s : State) : Res := onBlk (fun _ => lockedEntry p) s
def execLaneLost (p : HabPort) (lane : Fin 2) (s : State) : Res := onBlk (fun _ => laneLost p lane) s
def execTallySend (p : HabPort) (s : State) : Res := onBlk (fun _ => tallySend p) s
def execTallyReceive (p : HabPort) (lane : Fin 2) (block : Nat) (chkOk : Bool) (s : State) : Res :=
  onBlk (fun _ => tallyReceive p lane block chkOk) s
def execAlignSend (p : HabPort) (lane : Fin 2) (s : State) : Res := onBlk (fun _ => alignSend p lane) s
def execAlignReceive (p : HabPort) (lane : Fin 2) (block : Nat) (chkOk : Bool) (parity : Nat)
    (s : State) : Res := onBlk (fun _ => alignReceive p lane block chkOk parity) s
def execExchangeStart (p : HabPort) (t1 : Nat) (s : State) : Res := onBlk (fun _ => exchangeStart p t1) s
def execExchangeRequestReceive (p : HabPort) (lane : Fin 2) (block : Nat) (chkOk : Bool) (t2 t3 : Nat)
    (s : State) : Res := onBlk (fun _ => exchangeRequestReceive p lane block chkOk t2 t3) s
def execExchangeAnswerReceive (p : HabPort) (lane : Fin 2) (block : Nat) (chkOk : Bool) (t4 : Nat)
    (s : State) : Res := onBlk (fun _ => exchangeAnswerReceive p lane block chkOk t4) s
def execExchangeTimeout (p : HabPort) (s : State) : Res := onBlk (fun _ => exchangeTimeout p) s
def execPacketSend (p : HabPort) (s : State) : Res := onBlk (packetSend p) s
def execPacketReceive (p : HabPort) (sid : Nat) (data : List Byte) (crcOk : Bool) (s : State) : Res :=
  onBoth (packetReceive p sid data crcOk) s
def execSlip (p : HabPort) (lane : Fin 2) (s : State) : Res := onBlk (fun _ => slip p lane) s
def execFomUpdate (p : HabPort) (lane : Fin 2) (v : Nat) (s : State) : Res :=
  onBlk (fun _ => fomUpdate p lane v) s
def execBlockLock (p : HabPort) (lane : Fin 2) (s : State) : Res := onBlk (fun _ => blockLock p lane) s
def execPrbsError (p : HabPort) (lane : Fin 2) (s : State) : Res := onBlk (fun _ => prbsError p lane) s

end Sys2Proof.Machine
end

