-- ==== Sys2Proof/Machine/Net.lean ====
section
/-!
DEFINITION. The NET port and the PTP clock (R518 to R526).
-/

namespace Sys2Proof.Machine

def Blk.setNet (b : Blk) (x : NetSt) : Blk := { b with net := x }

/-! ### The PTP clock (R522 to R525) -/

/-- The clock in units of 2⁻³² ns. -/
def ptpFine (b : Blk) : Nat :=
  (b.net.sec * 10 ^ 9 + b.rd F.NET_PTP_NS_NS) * 2 ^ 32 + b.rd F.NET_PTP_NS_FRAC

/-- A step of `a` nanoseconds, with carry into the seconds; the first one clears UNSET (R524). Log 101 (DEDUCED). -/
def ptpStep (b : Blk) (a : Int) : Blk :=
  let t := ((b.net.sec * 10 ^ 9 + b.rd F.NET_PTP_NS_NS : Nat) : Int) + a
  let sec := (t / 10 ^ 9 % 2 ^ 64).toNat
  let b := (b.wr F.NET_PTP_NS_NS (t % 10 ^ 9).toNat).setNet { b.net with sec := sec, step := none, held := none }
  (b.wr F.NET_STAT_UNSET 0).wr F.NET_STAT_JUMP_PEND 0

/-- An edge of the 250 MHz clock (R522, R526): the step, then INCR takes hold, then the addition; a second
boundary is a command of its own. Log 101 (DEDUCED). -/
def ptpEdge (b : Blk) : Blk :=
  let b := match b.net.step with | some a => ptpStep b a | none => b
  let b := match b.net.incr with
    | some _ => (b.setNet { b.net with incr := none }).commit (F.NET_PTP_INCR_INCR.key 0 0)
    | none => b
  let t := b.rd F.NET_PTP_NS_NS * 2 ^ 32 + b.rd F.NET_PTP_NS_FRAC + b.act F.NET_PTP_INCR_INCR
  let b := (b.wr F.NET_PTP_NS_NS (t / 2 ^ 32)).wr F.NET_PTP_NS_FRAC t
  if 10 ^ 9 ≤ t / 2 ^ 32 then b.sched 0 .ptpSecondBoundary else b

/-- PTP_SECOND_BOUNDARY (R522). -/
def ptpSecondBoundary (b : Blk) : Blk :=
  let ns := b.rd F.NET_PTP_NS_NS
  if ns < 10 ^ 9 then b
  else
    let sec := (b.net.sec + 1) % 2 ^ 64
    let b := (b.wr F.NET_PTP_NS_NS (ns - 10 ^ 9)).setNet { b.net with
      sec := sec, auto := b.net.auto || b.on F.NET_PTP_CTRL2_PAIR_AUTO }
    b.publish 965 (sec % 2 ^ 32) b.now

/-- INCR_WRITE (R523). -/
def incrWrite (v : Nat) (b : Blk) : Blk :=
  let v := v % 2 ^ 40
  if v < 0x03FF7CED91 ∨ 0x040083126F < v then b.stick F.NET_STAT_INCR_REFUSED
  else (b.stage F.NET_PTP_INCR_INCR v).setNet { b.net with incr := some v }

/-- ADJ_WRITE (R524): applied at the next edge, or refused and held; it replaces what was held. Log 101 (DEDUCED). -/
def adjWrite (v : Nat) (b : Blk) : Blk :=
  let a := toS 64 v
  let b := b.wr F.NET_PTP_ADJ_ADJ v
  if b.on F.NET_STAT_UNSET ∨ a.natAbs ≤ b.rd F.NET_PTP_CTRL_JUMP_THR then
    (b.setNet { b.net with step := some a, held := none }).wr F.NET_STAT_JUMP_PEND 0
  else
    ((b.setNet { b.net with step := none, held := some a }).wr F.NET_STAT_JUMP_PEND 1).publish 963
      (v % 2 ^ 32) b.now

/-- ACCEPT (R524): the held step is applied at the next edge. -/
def accept (b : Blk) : Blk :=
  match b.net.held with
  | some a => b.setNet { b.net with step := some a }
  | none => b

/-- PAIR (R525). -/
def pair (b : Blk) : Blk := b.setNet { b.net with pair := true }

/-- A 250 MHz edge coincides with the tick boundary (R525). Log 101 (DEDUCED). -/
def pairTick (b : Blk) : Bool := b.elapsed % 16 == 0

/-- PAIRING (R525, R526): the counter and the clock are latched at one instant. -/
def pairing (b : Blk) : Blk :=
  if pairTick b && (b.net.pair || b.net.auto) then
    let b := (((b.wr F.NET_PAIR_TICK_TICK b.now).wr F.NET_PAIR_SEC_SEC b.net.sec).wr F.NET_PAIR_NS_NS
      (b.rd F.NET_PTP_NS_NS)).wr F.NET_PAIR_NS_FRAC (b.rd F.NET_PTP_NS_FRAC)
    let b := (b.bump F.NET_PTP_CTRL2_PAIR_CNT).setNet { b.net with pair := false, auto := false }
    b.publish 964 (b.rd F.NET_PTP_CTRL2_PAIR_CNT) b.now
  else b

/-! ### Stamps (R520, R521) -/

/-- Corrections of R520 in tenths of a nanosecond: transmit, receive. -/
def corrections (b : Blk) : Nat × Nat :=
  if b.on F.NET_CFG_SPEED then (704, 896)
  else if b.rd F.NET_CFG_FEC = 1 then (973, 2406)
  else (576, 691)

/-- A stamp in quarter nanoseconds: `sub` quarters after the clock's last edge, corrected when CORR_EN is 1.
How a correction is rounded to quarters is free. Log 100 (DESIGN CHOICE). -/
def stampNow (b : Blk) (sub : Nat) (rx : Bool) : Nat :=
  let q := 4 * ptpFine b / 2 ^ 32 + sub
  if !b.on F.NET_CFG_CORR_EN then q
  else
    let c := corrections b
    let top := 4 * 10 ^ 9 * 2 ^ 64
    let tw := if rx then 5 * (q + top) - 2 * c.2 else 5 * q + 2 * c.1
    (tw / 5 + (if tw % 5 ≠ 0 ∧ b.fresh % 2 = 1 then 1 else 0)) % top

def stampSec (q : Nat) : Nat := q / (4 * 10 ^ 9)
def stampNs (q : Nat) : Nat := q % (4 * 10 ^ 9)

/-- A 16-bit big-endian number of a frame. -/
def be16 (l : List Byte) (i : Nat) : Nat := 256 * (l.getD i 0).toNat + (l.getD (i + 1) 0).toNat

/-- An event message of IEEE 1588-2019 (R520). Log 99 (DEDUCED). -/
def isEventMsg (l : List Byte) : Bool :=
  let at_ (i : Nat) : Nat := (l.getD i 0).toNat
  match be16 l 12 with
  | 0x88F7 => decide (at_ 14 % 16 ≤ 3)
  | 0x0800 => at_ 23 == 17 && be16 l (14 + 4 * (at_ 14 % 16) + 2) == 319
  | 0x86DD => at_ 20 == 17 && be16 l 56 == 319
  | _ => false

/-! ### Rings (R519) -/

/-- `n` bytes from scratch offset `a` lie in the physical function's scratch partition. -/
def inSpart0 (b : Blk) (a n : Nat) : Bool :=
  let lo := 0x10000 * b.rd F.HIF_SPART_BASE
  decide (lo ≤ a) && decide (a + n ≤ lo + 0x10000 * b.rd F.HIF_SPART_SIZE)

def log2n (v : Nat) : Nat := if 4 ≤ v ∧ v ≤ 10 then v else 4

/-- Scratch offset of descriptor `i` of a ring. -/
def descAt (base l i : Nat) : Nat := base / 64 * 64 + 32 * (i % 2 ^ log2n l)

/-- The next transmit and receive descriptors: scratch offsets. -/
def txDesc (b : Blk) : Nat := descAt (b.rd F.NET_TXQ_BASE) (b.rd F.NET_TXQ_LOG2N) b.net.tx.idx
def rxDesc (b : Blk) : Nat := descAt (b.rd F.NET_RXQ_BASE) (b.rd F.NET_RXQ_LOG2N) b.net.rx.idx

/-- Bytes written to scratch. -/
def scratchPut (s : Blk × Mem) (o : Nat) (bs : List Byte) : Blk × Mem := storeWrite s.1 s.2 (scratchBase + o) bs

/-- Little-endian number read from scratch. -/
def scratchLe (b : Blk) (m : Mem) (o n : Nat) : Nat := leNat (outBytes b m (scratchBase + o) n).1

/-- A stamp joins the queue of 16, or is dropped (R521). -/
def txtsQueue (b : Blk) (id q : Nat) : Blk :=
  if 16 ≤ b.net.stamps.length then (b.inc F.NET_STAT_TXTS_DROP).publish 962 id b.now
  else
    (b.setNet { b.net with stamps := b.net.stamps ++ [⟨id, stampSec q, stampNs q⟩] }).publish 961 id b.now

/-- NET_FRAME_TRANSMIT (R519 to R521): the frame of the next descriptor; `sub` quarter nanoseconds after the
clock's last edge its delimiter passes.  A frame outside 64 to 9,216 bytes, or a buffer outside the
partition, ends with ERR. Log 99 (DEDUCED). -/
def netFrameTransmit (sub : Nat) (m : Mem) (b : Blk) : Blk × Mem :=
  let d := txDesc b
  if !b.on F.NET_CFG_EN || !b.on F.NET_STAT_LINK || !b.on F.NET_TXQ_EN || b.net.tx.stopped ||
      !inSpart0 b d 32 then (b, m)
  else
    let fl := scratchLe b m (d + 6) 1
    if !bit fl 0 then (b.setNet { b.net with tx := { b.net.tx with stopped := true } }, m)
    else
      let buf := scratchLe b m d 4
      let len := scratchLe b m (d + 4) 2
      let bad := decide (len < 64) || decide (9216 < len) || !inSpart0 b buf len
      let b := b.setNet { b.net with tx := { b.net.tx with idx := b.net.tx.idx + 1 } }
      if bad then scratchPut (b, m) (d + 6) [BitVec.ofNat 8 (orW 8 (fl - 1) 4)]
      else
        let x := outBytes b m (scratchBase + buf) len
        let b := x.2.emit (.frame x.1)
        let b := if bit fl 1 then txtsQueue b.spend (scratchLe b m (d + 8) 2) (stampNow b sub false) else b
        scratchPut (b, m) (d + 6) [BitVec.ofNat 8 (fl - 1)]

/-- NET_FRAME_RECEIVE (R518 to R520): a frame without its FCS, and what the FCS says.
Log 6 (DESIGN CHOICE), 99 (DEDUCED), 105 (DESIGN CHOICE). -/
def netFrameReceive (frame : List Byte) (fcsOk : Bool) (sub : Nat) (m : Mem) (b : Blk) : Blk × Mem :=
  let n := frame.length
  let d := rxDesc b
  let drop : Blk × Mem := (b.inc F.NET_STAT_RX_DROP, m)
  if !b.on F.NET_CFG_EN || !b.on F.NET_STAT_LINK then (b, m)
  else if !fcsOk then drop
  else if !b.on F.NET_RXQ_EN || b.net.rx.stopped || !inSpart0 b d 32 then drop
  else
    let fl := scratchLe b m (d + 6) 1
    let buf := scratchLe b m d 4
    if !bit fl 0 then
      (b.setNet { b.net with rx := { b.net.rx with stopped := true } } |>.inc F.NET_STAT_RX_DROP, m)
    else if scratchLe b m (d + 4) 2 < n ∨ !inSpart0 b buf n then drop
    else
      let ts := b.on F.NET_CFG_RXTS_ALL || isEventMsg frame
      let q := stampNow b sub true
      let b := b.setNet { b.net with rx := { b.net.rx with idx := b.net.rx.idx + 1 } }
      let s := scratchPut (b.spend, m) buf frame
      let w := if ts then leBytes 8 (stampSec q) ++ leBytes 4 (stampNs q / 4 + stampNs q % 4 * 2 ^ 30)
        else leBytes 12 0
      scratchPut s (d + 4) (leBytes 2 n ++ [BitVec.ofNat 8 (4 * b2n ts), 0] ++ w)

/-- NET_DB_TX and NET_DB_RX: a stopped walk resumes. -/
def netDbTx (b : Blk) : Blk := b.setNet { b.net with tx := { b.net.tx with stopped := false } }
def netDbRx (b : Blk) : Blk := b.setNet { b.net with rx := { b.net.rx with stopped := false } }

/-- NET_LINK_CHANGE (R518). -/
def netLinkChange (up : Bool) (b : Blk) : Blk :=
  if b.on F.NET_STAT_LINK = up then b
  else (b.wr F.NET_STAT_LINK (b2n up)).publish 960 (b2n up) b.now

/-- NET_TXTS1_READ (R521): the oldest stamp's seconds; the entry is removed. -/
def netTxts1Read (b : Blk) : Blk :=
  match b.net.stamps with
  | x :: t => (b.setNet { b.net with stamps := t }).emit (.readData 0 x.sec)
  | [] => b.emit (.readData 0 0)

def execNetLinkChange (up : Bool) (s : State) : Res := onBlk (fun _ => netLinkChange up) s
def execNetFrameReceive (frame : List Byte) (fcsOk : Bool) (sub : Fin 16) (s : State) : Res :=
  onBoth (netFrameReceive frame fcsOk sub) s
def execNetFrameTransmit (sub : Fin 16) (s : State) : Res := onBoth (netFrameTransmit sub) s
def execNetDbTx (s : State) : Res := onBlk (fun _ => netDbTx) s
def execNetDbRx (s : State) : Res := onBlk (fun _ => netDbRx) s
def execNetTxts1Read (s : State) : Res := onBlk (fun _ => netTxts1Read) s
def execPtpSecondBoundary (s : State) : Res := onBlk (fun _ => ptpSecondBoundary) s
def execIncrWrite (v : Nat) (s : State) : Res := onBlk (fun _ => incrWrite v) s
def execAdjWrite (v : Nat) (s : State) : Res := onBlk (fun _ => adjWrite v) s
def execAccept (s : State) : Res := onBlk (fun _ => accept) s
def execPair (s : State) : Res := onBlk (fun _ => pair) s
def execPairing (s : State) : Res := onBlk (fun _ => pairing) s

end Sys2Proof.Machine
end

