-- ==== Sys2Proof/Machine/Rcv.lean ====
section
/-!
DEFINITION. Faults: detection, containment, recovery, release, islands, the SAFE state (R548 to R565).
-/

namespace Sys2Proof.Machine

/-! ### Containing a region (R549, R550) -/

/-- Every open window of an acquisition port ends with the record of R177, decision tick now. -/
def endWindowsAt (b : Blk) (k : Nat) : Blk :=
  (b.acq k).slots.foldl (fun b e =>
    let d := b.demod k e.1
    let b := d.wins.foldl (fun b w => record b ⟨w.chan, 20, w.shot, 3, 0, w.n, w.repI, w.repQ, b.now⟩) b
    b.setDemod k e.1 { d with wins := [], past := d.past ++ d.wins.map (fun w => (w.n0, w.klen, b.now)) }) b

/-- A sequencer drops its routine, its built entries, its fetch queue and its requests, and its shot ends
tainted (R550, R258). Log 90 (DEDUCED), 91 (DEDUCED). -/
def cutSeq (b : Blk) (q : Nat) : Blk :=
  let b := if (b.seq q).rt.isSome then abandoned b q true 7 else b
  let b := dropHeld b q
  let b := if (b.seq q).pendStart.isSome then dropStart b q else b
  let b := b.taint q tcRegion
  let s := b.seq q
  let b := b.setSeq q { s with
    fe := .halted, rt := none, build := Entry.empty, next := none, line := [], lastEnd := none, brd := none,
    req := none, pendStart := none, restart := none, stopAt := none, waitSel := [], satU := none,
    fetchq := [], latch := [], trapDue := false, shot := { s.shot with aborted := true } }
  endShot b q

/-- What RCV_RESUME records of a sequencer (R554). -/
def recordResume (b : Blk) (q : Nat) : Blk :=
  let s := b.seq q
  let b := b.setSeq q { s with resume := some (s.pc, s.loops, s.calls) }
  (b.wr F.RCV_RESUME_VALID (b2n (decide (b.seqState q = sRunning))) q).wr F.RCV_RESUME_PC s.pc q

/-- A channel of a contained region: both copies UNAVAIL, exports told, tone trigger INACTIVE (R177, R183,
R399). -/
def channelLost (b : Blk) (q : Nat) : Blk :=
  let b := dvChange b 1 q 3 3 false b.now
  let b := if (exporters b q).isEmpty then b
    else b.sched 3 (.exportLatchSet (Fin.ofNat 512 q) 3 false true b.now)
  if b.actOn F.TRG_TCFG_EN q then (b.setTone q ToneSt.reset).wr F.TRG_TSTAT_STATE 0 q else b

/-- Region `r` is contained at the present tick (R550, R554). Log 90 (DEDUCED). -/
def regionContain (s : Blk × Mem) (r : Nat) : Blk × Mem :=
  let b := s.1
  let b := (b.wr F.RCV_RSTAT_STATE 1 r).wr F.RCV_STATUS_CONTAINED (orW 8 (b.rd F.RCV_STATUS_CONTAINED) (2 ^ r))
  let b := rotPause (b.publish 1008 r b.now) r
  let b := (regionSeqs r).foldl recordResume b
  let b := [2 * r, 2 * r + 1].foldl endWindowsAt b
  let b := (regionSeqs r).foldl (fun b q => (cutSeq b q).setState q sStopping) b
  let b := (regionPorts r).foldl (fun b p => dropResv (muteNext b p .region) p) b
  let b := ((List.range 64).map (fun i => 64 * r + i)).foldl channelLost b
  ((List.range 16).filter (fun e => (capPorts b e).any (fun k => k / 2 == r))).foldl
    (fun s e => captureLost s.1 s.2 e) (b, s.2)

/-- The recovery of a region starts (again) from its first step, at F_S = now (R552). -/
def recoveryStart (b : Blk) (r : Nat) (force : Bool) : Blk :=
  let b := (b.wr F.RCV_RSTAT_STATE 1 r).setRegRcv r { b.regRcv r with
    start := some b.elapsed, done := false, go := false, force := force }
  b.sched 18000 (.regionRecoveryDone (Fin.ofNat 8 r))

/-- A fault of region `r`: counted; contained unless it is already; the recovery starts or restarts. -/
def regionFault (cause : Nat) (s : Blk × Mem) (r : Nat) : Blk × Mem :=
  let b := s.1.bump F.RCV_RSTAT_FAULTS r
  let first := !regionHeld b r
  let x := b.regRcv r
  let times := if first then b.elapsed :: x.times.filter (fun t => decide (b.elapsed ≤ t + 800000000)) else x.times
  let b := b.setRegRcv r { x with
    times := times, never := x.never || cause == 6 || cause == 13, unlocked := x.unlocked || cause == 4,
    start := none, done := false, go := false, force := false, failed := x.failed && !first }
  let s := if first then regionContain (b, s.2) r else (b, s.2)
  let x := s.1.regRcv r
  if x.never ∨ x.unlocked then ((s.1.wr F.RCV_RSTAT_STATE 1 r), s.2)
  else (recoveryStart s.1 r false, s.2)

/-- The four regions of a tile. -/
def tileRegions (t : Nat) : List Nat := (List.range 4).map (fun i => 4 * (t % 2) + i)

/-- Regions a fault is contained to (R548). Log 34 (DEDUCED). -/
def faultRegions (cause index : Nat) : List Nat :=
  if cause = 13 then List.range 8
  else if 4 ≤ cause ∧ cause ≤ 6 then tileRegions index
  else if 1 ≤ cause ∧ cause ≤ 3 then [index % 8]
  else []

/-- INDEX of RCV_LOG (R568): 0 for classes that name no part. -/
def faultIndex (cause index : Nat) : Nat :=
  if cause ≤ 7 then index % 64 else if cause = 11 then index % 4 else 0

/-- An entry of RCV_LOG (R549, R568). -/
def logFault (b : Blk) (cause index : Nat) : Blk :=
  let i := b.rd F.RCV_LOGPTR_NEXT
  let b := ((b.wr F.RCV_LOG_TICK b.now i).wr F.RCV_LOG_INDEX (faultIndex cause index) i).wr F.RCV_LOG_CAUSE cause i
  (b.wr F.RCV_LOGPTR_NEXT (i + 1)).bump F.RCV_LOGPTR_TOTAL

/-- An island recovery starts or restarts: 100 µs (R556). Log 12 (DESIGN CHOICE), 90 (DEDUCED). -/
def islandFault (b : Blk) (cause index : Nat) : Blk :=
  let b := b.wr F.RCV_STATUS_ISL_BUSY (orW 6 (b.rd F.RCV_STATUS_ISL_BUSY) (2 ^ (cause - 8)))
  let b := { b with rcv := { b.rcv with isl := b.rcv.isl.set (8 * cause + index) (b.elapsed + 80000) } }
  let b := b.sched 80000 (.islandRecoveryDone (Fin.ofNat 5 (cause - 8)) (Fin.ofNat 4 index))
  if cause = 11 then
    let p := index
    let locked := decide (b.lnkState p = lnkLocked)
    let b := if b.lnkState p = lnkDown then b else lnkLeave b p lnkTraining 0
    if locked then b else importsUnavail b p
  else if cause = 12 then netLinkChange false b
  else b

/-- The Firn island takes over: the SAFE state (R561, R562). Log 91 (DEDUCED). -/
def safeEntry (b : Blk) : Blk :=
  if b.pwr.safe ∨ b.pwr.off then b
  else
    let b := hardMuteAll (firnEvent b 1012 0) .safe
    let regs := b.rcv.regs.map (fun e => (e.1, { e.2 with start := none, done := false, go := false }))
    { b with pwr := { b.pwr with safe := true }
             rcv := { b.rcv with regs := regs, safeOff := some (b.elapsed + 80000) } }

/-- FAULT_DETECTED (R548, R549). Log 6 (DESIGN CHOICE). -/
def faultDetected (cause index : Nat) (m : Mem) (b : Blk) : Blk × Mem :=
  if cause = 0 ∨ 14 < cause then (b, m)
  else
    let b := logFault b cause index
    let s := (faultRegions cause index).foldl (regionFault cause) (b, m)
    let b := s.1
    let b := if cause = 4 then b.sched 4000000 (.relockTimeout (Fin.ofNat 2 index)) else b
    let b := if cause = 6 then b.wr F.RCV_STATUS_TILE_OFF (orW 2 (b.rd F.RCV_STATUS_TILE_OFF) (2 ^ (index % 2))) else b
    let b := if cause = 7 then
        b.publish 1010 (index % 16 + 16 * b.rd F.ODR_STATUS_FAULT_CAUSE (index % 16)) b.now else b
    let b := if 8 ≤ cause ∧ cause ≤ 12 then islandFault b cause (if cause = 11 then index % 4 else 0) else b
    let b := if cause = 13 then b.stick F.RCV_STATUS_TIMING else b
    (if cause = 14 then safeEntry b else b, s.2)

/-! ### Recovering and releasing (R552 to R555) -/

/-- TILE_RELOCK: the tile's sample-clock PLL has relocked; the regions that waited start at once. -/
def tileRelock (t : Nat) (b : Blk) : Blk :=
  (tileRegions t).foldl (fun b r =>
    let x := b.regRcv r
    if x.unlocked then
      let b := b.setRegRcv r { x with unlocked := false }
      if x.failed ∨ x.never then b else recoveryStart b r false
    else b) b

/-- RELOCK_TIMEOUT: 5 ms after F the PLL is still unlocked: the tile's regions are held. -/
def relockTimeout (t : Nat) (b : Blk) : Blk :=
  (tileRegions t).foldl (fun b r =>
    let x := b.regRcv r
    if x.unlocked ∧ !x.failed ∧ x.times.head?.all (fun f => decide (f + 4000000 ≤ b.elapsed)) then
      ((b.setRegRcv r { x with failed := true }).wr F.RCV_RSTAT_STATE 3 r).stick F.RCV_RSTAT_PERSIST r
    else b) b

/-- A sequencer's control state rebuilt: stacks as restored, nothing under way (R552). -/
def rebuildSeq (b : Blk) (q : Nat) : Blk :=
  let s := b.seq q
  b.setSeq q { SeqSt.reset with
    pc := s.pc, loops := s.loops, calls := s.calls, shot := s.shot, ended := s.ended, resume := s.resume }

/-- A port's control state rebuilt: nothing plays. -/
def rebuildPort (b : Blk) (p : Nat) : Blk :=
  let b := if b.on F.DRV_STATUS_STREAM_ACT p then endStream b p else b
  let x := clearSegs (b.port p)
  b.setPort p { x with soft := none, slots := x.slots.map (fun e => (e.1, { e.2 with eI := 0, eQ := 0 })) }

/-- Containments of the last second exceed PERSIST_MAX (R555). Log 90 (DEDUCED). -/
def persists (b : Blk) (r : Nat) : Bool :=
  decide (b.rd F.RCV_CTRL_PERSIST_MAX <
    ((b.regRcv r).times.filter (fun t => decide (b.elapsed ≤ t + 800000000))).length)

/-- The release comes at the first granule boundary from now (R553). -/
def releaseNext (b : Blk) (r : Nat) : Blk :=
  (b.setRegRcv r { b.regRcv r with go := true }).schedAt (granule b.now) (.regionRelease (Fin.ofNat 8 r))

/-- REGION_RECOVERY_DONE (R552, R555): 18,000 ticks after F_S. -/
def regionRecoveryDone (r : Nat) (b : Blk) : Blk :=
  let x := b.regRcv r
  match x.start with
  | none => b
  | some t =>
    if b.elapsed < t + 18000 then b
    else
      let b := (regionSeqs r).foldl rebuildSeq ((regionPorts r).foldl rebuildPort b)
      let b := (b.setRegRcv r { x with start := none, done := true }).bump F.RCV_STATUS_RECOVERIES
      if x.force then releaseNext b r
      else if b.on F.RCV_RCTL_HOLD r ∨ persists b r then
        (b.wr F.RCV_RSTAT_STATE 3 r).stickIf (persists b r) F.RCV_RSTAT_PERSIST r
      else releaseNext b r

/-- A message of the region that came due while it was held. Log 17 (DEDUCED). -/
def heldMsg (b : Blk) (r : Nat) (e : DlEnt) : Bool :=
  e.msg.eff != .frame && decide (e.due ≤ b.now) &&
    (match targetRes b e.msg.target with | some x => resRegion x == r | none => false)

/-- A held message at release (R551): ASAP is applied, a deadline has been missed; one that was judged late
before just applies. Log 17 (DEDUCED). -/
def releaseMsg (b : Blk) (e : DlEnt) : Blk :=
  match e.msg.deadline with
  | none => applyTarget b e.msg.target
  | some v =>
    let d := fullTick b.now v
    if e.due ≠ legalFrom e.msg.eff d.toNat then applyTarget b e.msg.target
    else if dlPolicy b e.msg.cls = 0 then dlPut (dlMiss b e.msg d) e.msg (legalFrom e.msg.eff (b.now + 2))
    else dlMiss b e.msg d

/-- Held traffic of a region is applied in arrival order (R551). Log 17 (DEDUCED), 106 (DESIGN CHOICE). -/
def releaseTraffic (b : Blk) (r : Nat) : Blk :=
  let isl := regionTile r
  let l := b.queueOf isl
  let mine := l.filter (heldMsg b r)
  let cmds := (b.regRcv r).held
  let b := b.setQueue isl (l.filter (fun e => !heldMsg b r e))
  let b := mine.foldl releaseMsg b
  let b := b.wr F.RCV_RSTAT_HELD_MSGS mine.length r
  (b.setRegRcv r { b.regRcv r with held := [] }).schedAll 0 cmds

/-- A port leaves HARD_MUTE for MUTED; with EN it ramps up (R553). -/
def releasePort (b : Blk) (p : Nat) : Blk :=
  let b := b.setPort p { b.port p with muteAt := none }
  if b.ostate p = oHard ∧ (b.port p).mute = some .region then portEnSet p (unmute b p) else b

/-- REGION_RELEASE (R553). -/
def regionRelease (r : Nat) (b : Blk) : Blk :=
  let x := b.regRcv r
  if !x.go ∨ x.never ∨ b.now % 4 ≠ 0 then b
  else
    let b := b.setRegRcv r { x with done := false, go := false, force := false, failed := false }
    let c := b.rd F.RCV_STATUS_CONTAINED
    let b := (b.wr F.RCV_RSTAT_STATE 0 r).wr F.RCV_STATUS_CONTAINED (andW 8 c (255 - 2 ^ r))
    let b := ((List.range 64).map (fun i => 64 * r + i)).foldl (fun b q => dvChange b 1 q 0 3 false b.now) b
    let b := (regionPorts r).foldl releasePort b
    let b := (regionSeqs r).foldl (fun b q =>
      b.setState q (if b.actOn F.SEQ_CTRL_EN q then sArmed else sDisabled)) b
    releaseTraffic ((rotResume b r).publish 1009 r b.now) r

/-- RESUME (R554, R565): every recorded sequencer starts at the common tick. -/
def resume (r : Nat) (b : Blk) : Blk :=
  if regionHeld b r then b
  else (regionSeqs r).foldl (fun b q =>
    match (b.seq q).resume with
    | some (pc, loops, calls) =>
      if b.on F.RCV_RESUME_VALID q ∧ b.actOn F.SEQ_CTRL_EN q then
        startReq (b.wr F.RCV_RESUME_VALID 0 q) q ⟨granule (b.now + 2), some pc, none, false, some (loops, calls)⟩
      else b
    | none => b) b

/-- RCV_RELEASE (R555, R565). -/
def rcvRelease (r : Nat) (b : Blk) : Blk :=
  let x := b.regRcv r
  if b.rd F.RCV_RSTAT_STATE r ≠ 3 ∨ x.never ∨ x.unlocked then b
  else if x.failed ∧ !x.done then recoveryStart b r true
  else releaseNext b r

/-! ### Islands, SAFE (R556, R561, R562) -/

/-- Transfers under way when the host island stopped start again (R557). -/
def restartMoves (b : Blk) : Blk :=
  let again (c : Cmd) : Cmd :=
    if c.left = 0 ∧ (c.bytes.headD 0 = 1 ∨ c.bytes.headD 0 = 2) then { c with started := false } else c
  { b with hif := { b.hif with cmds := b.hif.cmds.map (fun e => (e.1, e.2.map again)) } }

/-- ISLAND_RECOVERY_DONE: `k` is the class less 8, `i` the Habor port. -/
def islandRecoveryDone (k i : Nat) (b : Blk) : Blk :=
  let key := 8 * (k + 8) + i
  match b.rcv.isl.find key with
  | none => b
  | some t =>
    if b.elapsed < t then b
    else
      let b := { b with rcv := { b.rcv with isl := b.rcv.isl.erase key } }
      let still := b.rcv.isl.any (fun e => e.1 / 8 == k + 8)
      let b := if still then b
        else b.wr F.RCV_STATUS_ISL_BUSY (andW 6 (b.rd F.RCV_STATUS_ISL_BUSY) (63 - 2 ^ k))
      let b := (b.bump F.RCV_STATUS_RECOVERIES).publish 1011 0 b.now
      let b := if k = 0 then restartMoves b else b
      if b.rd F.RCV_STATUS_ISL_BUSY = 0 then
        let l := b.rcv.held
        ({ b with rcv := { b.rcv with held := [] } }).schedAll 0 l
      else b

/-- What recovery does in a tick: the drain ends 64 ticks after F_S. -/
def rcvTick (b : Blk) : Blk :=
  b.rcv.regs.foldl (fun b e =>
    match e.2.start with
    | some t => if b.rd F.RCV_RSTAT_STATE e.1 = 1 ∧ t + 64 ≤ b.elapsed then b.wr F.RCV_RSTAT_STATE 2 e.1 else b
    | none => b) b

def execFaultDetected (cause index : Nat) (s : State) : Res := onBoth (faultDetected cause index) s
def execTileRelock (t : Fin 2) (s : State) : Res := onBlk (fun _ => tileRelock t) s
def execRelockTimeout (t : Fin 2) (s : State) : Res := onBlk (fun _ => relockTimeout t) s
def execRegionRecoveryDone (r : Region) (s : State) : Res := onBlk (fun _ => regionRecoveryDone r) s
def execRegionRelease (r : Region) (s : State) : Res := onBlk (fun _ => regionRelease r) s
def execResume (r : Region) (s : State) : Res := onBlk (fun _ => resume r) s
def execRcvRelease (r : Region) (s : State) : Res := onBlk (fun _ => rcvRelease r) s
def execIslandRecoveryDone (k : Fin 5) (i : HabPort) (s : State) : Res :=
  onBlk (fun _ => islandRecoveryDone k i) s
def execHeartbeatTimeout (s : State) : Res := onBlk (fun _ => safeEntry) s
def execUndervoltageTrip (s : State) : Res := onBlk (fun _ => safeEntry) s

end Sys2Proof.Machine
end

