-- ==== Sys2Proof/Machine/Ucode.lean ====
section
/-!
DEFINITION. The micro-engine: micro-ops of customer routines, their dispatch and retirement, head
routines, and the check of the customer area (R237 to R260).
-/

namespace Sys2Proof.Machine

/-! ### Microwords and operands (R241 to R243) -/

/-- Word `w` of region `r`'s control store (R251). -/
def ucsWord (b : Blk) (r w : Nat) : Nat := b.rd F.UCS_WORD_WORD r (w % 8192)

def uCode (w : Nat) : Nat := field w 26 6
def uLast (w : Nat) : Bool := bit w 25
def uD (w : Nat) : Nat := field w 20 5
def uB (w : Nat) : Nat := field w 15 5
def uC (w : Nat) : Nat := field w 10 5

/-- How a micro-op ends: the block and the routine after it, or the error it raises. -/
inductive UpRes where
  | ok (b : Blk) (r : Rt)
  | illegal
  | stack
  deriving DecidableEq, Repr

/-- A sequencer register as the routine sees it: its own buffered write first (R244). -/
def rtSreg (b : Blk) (q : Nat) (r : Rt) (i : Nat) : Nat :=
  r.cbuf.foldl (fun v e => match e with | .sreg k x => if k = i then x else v | _ => v) (sregOf b q i)

/-- The operand a selector names (R242). -/
def uRead (b : Blk) (q : Nat) (r : Rt) (x : Nat) : Nat :=
  if x < 16 then rtSreg b q r x
  else if x < 24 then r.u.get 0 (x - 16)
  else match x with
    | 0x19 => b.rd F.SEQ_SHOT_SHOTNO q
    | 0x1A => b.now % 2 ^ 32
    | 0x1B => (b.seq q).pc
    | 0x1C => q
    | _ => 0

/-- The read set takes the sequencer registers a micro-op reads (R239). -/
def uNote (b : Blk) (r : Rt) (xs : List Nat) : Rt :=
  { r with reads := r.reads ++ (xs.filter (fun x => decide (x < 16))).map (fun x => (x, b.now)) }

/-- A result written to the operand a selector names: registers through the commit buffer (R244). -/
def uWrite (r : Rt) (x v : Nat) : Rt :=
  let v := v % 2 ^ 32
  if x < 16 then { r with cbuf := r.cbuf ++ [.sreg x v] }
  else if x < 24 then { r with u := r.u.set (x - 16) v }
  else r

/-- The call stack with the buffered pushes and pops applied. -/
def rtCalls (b : Blk) (q : Nat) (r : Rt) : List Nat :=
  r.cbuf.foldl (fun l e => match e with | .pushc a => a :: l | .popc => l.tail | _ => l) (b.seq q).calls

/-- The loop stack with the buffered effects applied. -/
def rtLoops (b : Blk) (q : Nat) (r : Rt) : List (Nat × Nat) :=
  r.cbuf.foldl (fun l e => match e with | .lpush n a => (n, a) :: l | .lstep => loopStep l | _ => l)
    (b.seq q).loops

/-- A signed immediate of `w` bits as a 32-bit word. -/
def immS (w v : Nat) : Nat := ofS 32 (toS w v)

/-! ### The micro-ops (R245): block, sequencer, routine, microword -/

abbrev UpFn := Mem → Blk → Nat → Rt → Nat → UpRes

def uUndef : UpFn := fun _ _ _ _ _ => .illegal
def uNop : UpFn := fun _ b _ r _ => .ok b r
def uCommit : UpFn := fun _ b _ r _ => .ok b { r with committed := true }

/-- MXT. -/
def uMxt : UpFn := fun _ b _ r w =>
  let wid := field w 8 5 + 1
  let v := field r.mir (field w 13 6) wid
  .ok b (uWrite r (uD w) (if bit w 19 then immS wid v else v))

def uLdi : UpFn := fun _ b _ r w => .ok b (uWrite r (uD w) (immS 20 (field w 0 20)))

def uAlu : UpFn := fun _ b q r w =>
  .ok b (uWrite (uNote b r [uB w, uC w]) (uD w)
    (opResult (field w 0 4) (uRead b q r (uB w)) (uRead b q r (uC w))))

def uAlui : UpFn := fun _ b q r w =>
  .ok b (uWrite (uNote b r [uB w]) (uD w)
    (opResult (field w 11 4) (uRead b q r (uB w)) (immS 11 (field w 0 11))))

/-- SRD: the register whose number is A[3:0]. -/
def uSrd : UpFn := fun _ b q r w =>
  let i := uRead b q r (uB w) % 16
  .ok b (uWrite (uNote b r [uB w, i]) (uD w) (rtSreg b q r i))

def uSwr : UpFn := fun _ b q r w =>
  .ok b (uWrite (uNote b r [uD w, uB w]) (uRead b q r (uD w) % 16) (uRead b q r (uB w)))

def uUjmp : UpFn := fun _ b _ r w => .ok b { r with upc := field w 0 13 }

def uUbr : UpFn := fun _ b q r w =>
  let a := field w 17 5
  let r := uNote b r [a]
  .ok b (if condHolds (field w 22 3) (uRead b q r a) then { r with upc := field w 0 13 } else r)

/-- The micro-ops of format E read A in [24:20], B in [19:15], C in [14:10]. -/
def uSetnpc : UpFn := fun _ b q r w =>
  match field w 0 4 with
  | 0 => .ok b { uNote b r [uD w] with npc := uRead b q r (uD w) % 4096 }
  | 1 => .ok b { r with npc := field r.mir 0 12 }
  | 2 => .ok b { r with npc := field r.mir 44 12 }
  | _ => .ok b { r with npc := field r.mir 32 12 }

def uPushc : UpFn := fun _ b q r w =>
  if 8 ≤ (rtCalls b q r).length then .stack
  else if field w 0 4 = 0 then
    .ok b { uNote b r [uD w] with cbuf := r.cbuf ++ [.pushc (uRead b q r (uD w) % 4096)] }
  else .ok b { r with cbuf := r.cbuf ++ [.pushc (((b.seq q).pc + 1) % 4096)] }

def uPopc : UpFn := fun _ b q r w =>
  match rtCalls b q r with
  | [] => .stack
  | a :: _ => .ok b (uWrite { r with cbuf := r.cbuf ++ [.popc] } (uD w) a)

def uLpush : UpFn := fun _ b q r w =>
  if 4 ≤ (rtLoops b q r).length then .stack
  else .ok b { uNote b r [uD w] with
    cbuf := r.cbuf ++ [.lpush (uRead b q r (uD w) % 2 ^ 24) (((b.seq q).pc + 1) % 4096)] }

/-- Log 23 (DEDUCED). -/
def uLstep : UpFn := fun _ b q r _ =>
  match rtLoops b q r with
  | [] => .stack
  | (n, a) :: _ =>
    .ok b { r with cbuf := r.cbuf ++ [.lstep], npc := if loopDec n = 0 then r.npc else a }

def uLtop : UpFn := fun _ b q r w =>
  .ok b (uWrite r (uD w) (match rtLoops b q r with | (n, _) :: _ => n | [] => 0))

/-- DVRD: the decision vector copy of the sequencer's tile, in the layout of R201. -/
def uDvrd : UpFn := fun _ b q r w =>
  let e := uRead b q r (uB w) % 1024
  if 768 ≤ e then .illegal
  else .ok b (uWrite (uNote b r [uB w]) (uD w) (dvByte (b.dvEnt (seqTile q) e)))

/-- The entry under construction replaced. -/
def withBuild (b : Blk) (q : Nat) (e : Entry) : Blk := b.setSeq q { b.seq q with build := e }

/-- A length the kind allows (R224): granules of a segment, K of a SYNC, ticks of a WAIT. -/
def lenOk (k : EKind) (n : Nat) : Bool :=
  match k with
  | .seg => decide (4 ≤ n) && decide (n < 65536)
  | .sync => decide (2 ≤ n) && decide (n < 32)
  | _ => true

def uEkind : UpFn := fun _ b q r w =>
  let e := (b.seq q).build
  let k : EKind := match field w 0 4 with
    | 1 => .wait | 2 => .waitev | 3 => .waitd | 4 => .sync | _ => .halt
  if !e.members.isEmpty || e.stream || (e.kind != .none && e.kind != k) then .illegal
  else if e.len ≠ 0 ∧ !lenOk k e.len then .illegal
  else .ok (withBuild b q { e with kind := k }) r

/-- ELEN: members already named take the length; members from before the routine hold theirs (R226). -/
def uElen : UpFn := fun m b q r w =>
  let e := (b.seq q).build
  let n := uRead b q r (uD w)
  let r := uNote b r [uD w]
  let p := seqPort q
  if e.kind ≠ .none ∧ !lenOk e.kind n then .illegal
  else if r.mark.kind = .seg ∧ n ≠ e.len then .illegal
  else
    let ms := e.members.map (fun x =>
      { x with sums := memberSums m b p x.slot x.addr n, denied := envDenied b q p x.slot x.addr n })
    .ok (withBuild b q { e with len := n, members := ms }) r

/-- A PLAY member with the entry's own length. -/
def uMember (m : Mem) (b : Blk) (q : Nat) (r : Rt) (slot addr len : Nat) : UpRes :=
  if seqKind q = .acq ∨ !slotOk b q slot then .illegal
  else if len ≠ 0 ∧ !lenOk .seg len then .illegal
  else match addMember m b q (b.seq q).build slot addr len with
    | none => .illegal
    | some e => .ok (withBuild b q e) r

def uEplay : UpFn := fun m b q r w =>
  uMember m b q (uNote b r [uD w, uB w]) (uRead b q r (uD w) % 32) (uRead b q r (uB w) % 2 ^ 17)
    (b.seq q).build.len

/-- Log 22 (DEDUCED). -/
def uEplaym : UpFn := fun m b q r w =>
  let len := field r.mir 0 16
  let slot := field r.mir 50 5
  if field w 0 4 = 0 then uMember m b q r slot (field r.mir 30 17) len
  else uMember m b q (uNote b r [uB w]) slot (uRead b q r (uB w) % 2 ^ 17) len

/-- ESTRM: with CHAIN 0 the member closes the entry, as STREAM PLAYS does. Log 22 (DEDUCED). -/
def uEstrm : UpFn := fun _ b q r w =>
  if seqKind q = .acq then .illegal
  else match addStream (b.seq q) (b.seq q).build with
    | none => .illegal
    | some e => .ok (withBuild b q e) { r with closed := r.closed || !bit w 0 }

def uEclose : UpFn := fun _ b _ r w =>
  .ok b { r with closed := r.closed || !bit w 0 || !bit r.mir 56 }

/-- An action attached to the entry under construction. -/
def addAct (b : Blk) (q : Nat) (a : Act) : Blk :=
  withBuild b q { (b.seq q).build with acts := (b.seq q).build.acts ++ [a] }

/-- EPARM: a slot the port does not have takes nothing. Log 22 (DEDUCED). -/
def uEparm : UpFn := fun _ b q r w =>
  if seqKind q = .acq then .illegal
  else
    let a := uRead b q r (uD w)
    let sel := field w 0 4
    let s := uRead b q r (uC w) % 32
    let r := uNote b r [uD w, uB w, uC w]
    if sel = 5 then .ok (addAct b q (.pscale (a % 65536))) r
    else if nSlots (seqPort q) ≤ s then .ok b r
    else
      let x : Act := match sel with
        | 0 => .ftw s (a + 2 ^ 32 * (uRead b q r (uB w) % 65536))
        | 1 => .poff s a false
        | 2 => .poff s a true
        | 3 => .shiftp s a
        | _ => .ascl s (a % 65536)
      .ok (addAct b q x) r

def uEatt : UpFn := fun _ b q r w =>
  let a := uRead b q r (uD w)
  let c := uRead b q r (uB w)
  let r := uNote b r [uD w, uB w]
  match field w 0 4 with
  | 0 => .ok (addAct b q (.emit (a % 4))) r
  | 1 => .ok (addAct b q (.capt (a % 16))) r
  | 2 => if seqKind q = .acq then .ok (addAct b q (.openw a (c % 4))) r else .illegal
  | 3 => .ok (addAct b q (.shot (bit a 0))) r
  | _ => .ok (addAct b q (.mrkp (a % 16) (c % 256))) r

def uEaux : UpFn := fun _ b q r w =>
  let e := (b.seq q).build
  let a := uRead b q r (uD w)
  let r := uNote b r [uD w]
  match field w 0 4 with
  | 0 => .ok (withBuild b q { e with fb := a % 4096 }) r
  | 1 => .ok (withBuild b q { e with ttgt := a % 4096 }) r
  | 2 => .ok (withBuild b q { e with ch := a % 256 }) r
  | _ => .ok (withBuild b q { e with tmo := a }) r

/-- Log 22 (DEDUCED). -/
def uBrdarm : UpFn := fun _ b q r w =>
  .ok b { uNote b r [uD w] with brd := some (uRead b q r (uD w) % 4096) }

/-- Log 22 (DEDUCED). -/
def uSfetch : UpFn := fun _ b q r w =>
  if seqKind q = .acq then .illegal
  else
    let r' := uNote b r [uD w, uB w]
    .ok b { r' with cbuf := r.cbuf ++ [.fetch (uRead b q r (uD w) % 2 ^ 29) (uRead b q r (uB w) % 65536)] }

def uFault : UpFn := fun _ _ _ _ _ => .illegal

/-- VCHK: vendor area only; a vendor word with a reserved bit set is ILLEGAL (R224). -/
def uVchk : UpFn := fun _ b _ r _ => if vendorOp r.mir && reservedSet r.mir then .illegal else .ok b r

/-- The code of the row that a word belongs to: 0, UNDEF, for codes not assigned. -/
def uRow (w : Nat) : Nat := if (1 ≤ uCode w ∧ uCode w ≤ 0x1D) ∨ uCode w = 0x30 then uCode w else 0

/-- The action of a micro-op code; a reserved code acts as UNDEF. -/
def uopFn (c : Nat) : UpFn :=
  match c with
  | 0x01 => uNop | 0x02 => uCommit | 0x03 => uMxt | 0x04 => uLdi | 0x05 => uAlu | 0x06 => uAlui
  | 0x07 => uSrd | 0x08 => uSwr | 0x09 => uUjmp | 0x0A => uUbr | 0x0B => uSetnpc | 0x0C => uPushc
  | 0x0D => uPopc | 0x0E => uLpush | 0x0F => uLstep | 0x10 => uLtop | 0x11 => uDvrd
  | 0x12 => uEkind | 0x13 => uElen | 0x14 => uEplay | 0x15 => uEplaym | 0x16 => uEstrm
  | 0x17 => uEclose | 0x18 => uEparm | 0x19 => uEatt | 0x1A => uEaux | 0x1B => uBrdarm
  | 0x1C => uSfetch | 0x1D => uFault | 0x30 => uVchk | _ => uUndef

/-! ### Retirement (R244, R246) -/

/-- The buffered effects take hold, in issue order. -/
def applyBuf (b : Blk) (q : Nat) (l : List CEff) : Blk :=
  l.foldl (fun b e =>
    let s := b.seq q
    match e with
    | .sreg i v => setNow b F.SEQ_SREG_VALUE v q i
    | .pushc a => b.setSeq q { s with calls := a :: s.calls }
    | .popc => b.setSeq q { s with calls := s.calls.tail }
    | .lpush n a => b.setSeq q { s with loops := (n, a) :: s.loops }
    | .lstep => b.setSeq q { s with loops := loopStep s.loops }
    | .fetch a n => appendFetch b q a n) b

/-- The entry at the LAST micro-op: `none` where R246 calls it ILLEGAL, else whether it is closed. -/
def closesEntry (r : Rt) (e : Entry) : Option Bool :=
  match e.kind with
  | .none => some false
  | .seg =>
    if !lenOk .seg e.len then none
    else if r.brd.isSome ∧ !r.closed then none
    else some r.closed
  | k => if r.closed && lenOk k e.len then some true else none

/-- How many fetch descriptors a routine appends. -/
def fetches (r : Rt) : Nat := (r.cbuf.filter (fun e => match e with | .fetch _ _ => true | _ => false)).length

/-- A full fetch queue holds the LAST micro-op (R227, R260). -/
def fetchHeld (b : Blk) (q : Nat) (r : Rt) : Bool :=
  let n := (queued (b.seq q)).length
  decide (0 < fetches r) && decide (0 < n) && decide (4 < n + fetches r)

/-- The routine retires at its LAST micro-op, now. -/
def retire (b : Blk) (q : Nat) (r : Rt) : Blk :=
  let e := (b.seq q).build
  match closesEntry r e with
  | none => seqError (withBuild b q r.mark) q false
  | some cl =>
    let b := applyBuf b q r.cbuf
    let s := b.seq q
    let b := b.setSeq q { s with rt := none, fe := .run, brd := r.brd.map (fun fb => (fb, b.now)) }
    let b := advance b q r.npc
    if cl && !(e.kind == .wait && e.len == 0) then closeEntry b q e
    else
      let b := if e.kind = .wait then withBuild b q { e with kind := .none } else b
      if r.brd.isSome then b.setSeq q { b.seq q with fe := .waitLookup } else b

/-- One micro-op of sequencer `q`'s routine issues now: nothing unless the next microword has this
code. -/
def uopRun (m : Mem) (q code : Nat) (f : UpFn) (b : Blk) : Blk :=
  let s := b.seq q
  match s.rt with
  | none => b
  | some r =>
    let a := ucsPoisonBase (q / 8) + 4 * r.upc
    let bad := m.poisoned a
    -- a poisoned control-store word decodes as UNDEF and taints the shot (R481)
    let w := if bad then 0 else ucsWord b (q / 8) r.upc
    let b := if bad then (poisonRead b a).taint q tcPoison else b
    if b.seqState q ≠ sRunning ∨ uRow w ≠ code then b
    else
      let r0 := { r with upc := (r.upc + 1) % 8192, committed := r.committed || uLast w }
      match f m b q r0 w with
      | .illegal => seqError (withBuild b q r.mark) q false
      | .stack => seqError (withBuild b q r.mark) q true
      | .ok b r1 =>
        if uLast w then
          if fetchHeld b q r1 then
            -- held: the word issues again when the queue has room
            b.setSeq q { s with fe := .waitQueue, rt := some { r with committed := true } }
          else retire b q r1
        else b.setSeq q { b.seq q with rt := some r1, disp := b.now, fe := .run }

/-- A head routine of at most two micro-ops runs in the tick of the lookup (R217, R250): the entry it
closes, or `none` where it is ILLEGAL. -/
def headRoutine : HeadFn := fun m b q w =>
  let b := beginRoutine b q w
  match (b.seq q).rt with
  | none => none
  | some r =>
    let w1 := ucsWord b (q / 8) r.upc
    match uopFn (uCode w1) m b q { r with upc := (r.upc + 1) % 8192 } w1 with
    | .ok b r1 =>
      if uLast w1 then (if closesEntry r1 (b.seq q).build = some true then some (b.seq q).build else none)
      else
        let w2 := ucsWord b (q / 8) r1.upc
        match uopFn (uCode w2) m b q r1 w2 with
        | .ok b r2 => if closesEntry r2 (b.seq q).build = some true then some (b.seq q).build else none
        | _ => none
    | _ => none

/-! ### Dispatch of opcodes that are not the vendor's (R223, R247 to R249) -/

/-- CUSTOMER_OPCODE (R239, R249). -/
def customerOpcode (m : Mem) (q : Nat) (b : Blk) : Blk :=
  let w := progWord m q (b.seq q).pc
  if feReady b q && decide (0x40 ≤ opOf w) && customerOk b q (opOf w) then
    if wordPoisoned m b q then poisonedWord b q (pgmBase q) else beginRoutine (b.setSeq q { b.seq q with fe := .run }) q w
  else b

/-- RESERVED_OPCODE: an opcode of no table entry, or one that R249 does not dispatch. -/
def reservedOpcode (m : Mem) (q : Nat) (b : Blk) : Blk :=
  let w := progWord m q (b.seq q).pc
  if feReady b q && !vendorOp w && !customerOk b q (opOf w) then
    if wordPoisoned m b q then poisonedWord b q (pgmBase q) else seqError b q false
  else b

/-! ### The check of the customer area (R253 to R255) -/

/-- The micro-op is class C in this word (R244, R245). -/
def uClassC (w : Nat) : Bool :=
  match uCode w with
  | 0x03 => decide (uD w < 16)
  | 0x04 => decide (uD w < 16)
  | 0x05 => decide (uD w < 16)
  | 0x06 => decide (uD w < 16)
  | 0x07 => decide (uD w < 16)
  | 0x08 => true
  | 0x0C => true
  | 0x0D => true
  | 0x0E => true
  | 0x0F => true
  | 0x10 => decide (uD w < 16)
  | 0x11 => decide (uD w < 16)
  | 0x1C => true
  | _ => false

/-- The micro-op has a D field that it writes. -/
def uHasD (w : Nat) : Bool :=
  [0x03, 0x04, 0x05, 0x06, 0x07, 0x0D, 0x10, 0x11].contains (uCode w)

def selReadOk (x : Nat) : Bool := decide (x < 0x1D)
def selWriteOk (x : Nat) : Bool := decide (x ≤ 0x18)

/-- SEL values of a format E micro-op, and which of A, B and C it uses with one. -/
def uSelUse (code sel : Nat) : Option (Bool × Bool × Bool) :=
  match code, sel with
  | 0x08, 0 => some (true, true, false)
  | 0x0B, 0 => some (true, false, false)
  | 0x0B, 1 => some (false, false, false)
  | 0x0B, 2 => some (false, false, false)
  | 0x0B, 3 => some (false, false, false)
  | 0x0C, 0 => some (true, false, false)
  | 0x0C, 1 => some (false, false, false)
  | 0x0E, 0 => some (true, false, false)
  | 0x0F, 0 => some (false, false, false)
  | 0x12, 1 => some (false, false, false)
  | 0x12, 2 => some (false, false, false)
  | 0x12, 3 => some (false, false, false)
  | 0x12, 4 => some (false, false, false)
  | 0x12, 5 => some (false, false, false)
  | 0x13, 0 => some (true, false, false)
  | 0x14, 0 => some (true, true, false)
  | 0x15, 0 => some (false, false, false)
  | 0x15, 1 => some (false, true, false)
  | 0x16, 0 => some (false, false, false)
  | 0x16, 1 => some (false, false, false)
  | 0x17, 0 => some (false, false, false)
  | 0x17, 1 => some (false, false, false)
  | 0x18, 0 => some (true, true, true)
  | 0x18, 1 => some (true, false, true)
  | 0x18, 2 => some (true, false, true)
  | 0x18, 3 => some (true, false, true)
  | 0x18, 4 => some (true, false, true)
  | 0x18, 5 => some (true, false, false)
  | 0x19, 0 => some (true, false, false)
  | 0x19, 1 => some (true, false, false)
  | 0x19, 2 => some (true, true, false)
  | 0x19, 3 => some (true, false, false)
  | 0x19, 4 => some (true, true, false)
  | 0x1A, 0 => some (true, false, false)
  | 0x1A, 1 => some (true, false, false)
  | 0x1A, 2 => some (true, false, false)
  | 0x1A, 3 => some (true, false, false)
  | 0x1B, 0 => some (true, false, false)
  | 0x1C, 0 => some (true, true, false)
  | _, _ => none

/-- Used fields hold readable selectors, unused ones 0. -/
def selsOk (w : Nat) (u : Bool × Bool × Bool) : Bool :=
  (if u.1 then selReadOk (uD w) else uD w == 0) && (if u.2.1 then selReadOk (uB w) else uB w == 0) &&
  (if u.2.2 then selReadOk (uC w) else uC w == 0)

/-- Operands of a microword obey R242 and R243 (check 4). -/
def uOpndOk (w : Nat) : Bool :=
  let c := uCode w
  if c = 0x01 ∨ c = 0x02 ∨ c = 0x1D then field w 0 25 == 0
  else if c = 0x03 then
    selWriteOk (uD w) && field w 0 8 == 0 && decide (field w 13 6 + field w 8 5 + 1 ≤ 64)
  else if c = 0x04 then selWriteOk (uD w)
  else if c = 0x05 then
    selWriteOk (uD w) && selReadOk (uB w) && selReadOk (uC w) && field w 4 6 == 0 && decide (field w 0 4 ≤ 8)
  else if c = 0x06 then selWriteOk (uD w) && selReadOk (uB w) && decide (field w 11 4 ≤ 8)
  else if c = 0x07 ∨ c = 0x11 then selWriteOk (uD w) && selReadOk (uB w) && field w 0 15 == 0
  else if c = 0x0D ∨ c = 0x10 then selWriteOk (uD w) && field w 0 20 == 0
  else if c = 0x09 then field w 13 12 == 0
  else if c = 0x0A then
    decide (field w 22 3 ≤ 5) && selReadOk (field w 17 5) && field w 13 4 == 0
  else match uSelUse c (field w 0 4) with
    | none => false
    | some u => selsOk w u && field w 4 6 == 0

/-- What is known of the paths that reach a word: the largest number of micro-ops before it on a path
that has not committed, the same counted from COMMIT on one that has, whether some path holds none of
EKIND, EPLAY, EPLAYM and ESTRM yet, the largest number of micro-ops before it, and whether some path has
closed no entry. -/
structure VInfo where
  pre : Option Nat
  post : Option Nat
  bare : Bool
  n : Nat
  unclosed : Bool
  deriving DecidableEq, Repr

def optMax : Option Nat → Option Nat → Option Nat
  | some a, some c => some (max a c)
  | some a, none => some a
  | none, x => x

def VInfo.join (x y : VInfo) : VInfo :=
  ⟨optMax x.pre y.pre, optMax x.post y.post, x.bare || y.bare, max x.n y.n, x.unclosed || y.unclosed⟩

/-- A path's knowledge joined at an address. -/
def vAdd (t : Tab Nat VInfo) (a : Nat) (x : VInfo) : Tab Nat VInfo :=
  match t.find a with
  | some y => t.set a (y.join x)
  | none => t.set a x

/-- Where the word at `a` can go on: nowhere after LAST. -/
def uSucc (a w : Nat) : List Nat :=
  if uLast w then []
  else match uCode w with
    | 0x09 => [field w 0 13]
    | 0x0A => [field w 0 13, a + 1]
    | _ => [a + 1]

def isKindOp (c : Nat) : Bool := c == 0x12 || c == 0x14 || c == 0x15 || c == 0x16

/-- Knowledge after the word at an address. -/
def vAfter (w : Nat) (x : VInfo) : VInfo :=
  let c := uCode w
  let pre := if c = 0x02 then none else x.pre.map (· + 1)
  let post := optMax (x.post.map (· + 1)) (if c = 0x02 then x.pre.map (fun _ => 1) else none)
  ⟨pre, post, x.bare && !isKindOp c, x.n + 1, x.unclosed && !(c == 0x17 && !bit w 0)⟩

/-- Reachable words in ascending address order with what is known of their paths, and the first word
that breaks check 2: (address, whether it leaves the area or runs off). -/
def vWalk (b : Blk) (r : Nat) : Nat → Nat → Tab Nat VInfo → List (Nat × VInfo) →
    List (Nat × VInfo) × Option (Nat × Bool)
  | 0, _, _, acc => (acc, none)
  | fuel + 1, a, todo, acc =>
    match todo.find a with
    | none => vWalk b r fuel (a + 1) todo acc
    | some x =>
      let w := ucsWord b r a
      let ss := uSucc a w
      match ss.find? (fun t => decide (t < 6144 ∨ 8191 < t)) with
      | some t => (acc ++ [(a, x)], some (if 8191 < t then 8191 else t, true))
      | none =>
        if ss.any (fun t => decide (t ≤ a)) then (acc ++ [(a, x)], some (a, false))
        else vWalk b r fuel (a + 1) (ss.foldl (fun d t => vAdd d t (vAfter w x)) todo) (acc ++ [(a, x)])

/-- The first word a test fails on. -/
def firstBad (l : List (Nat × VInfo)) (f : Nat → VInfo → Bool) : Option Nat :=
  (l.find? (fun e => f e.1 e.2)).map (·.1)

/-- Check 6 fails at a word: it is one too many before COMMIT, or after it. -/
def vLong (w : Nat) (x : VInfo) : Bool :=
  (match x.pre with
   | some n => if uCode w == 0x02 || uLast w then decide (64 < n) else decide (64 ≤ n)
   | none => false) ||
  (match x.post with | some n => decide (8 ≤ n) | none => false)

/-- Micro-ops a head routine may hold (R250). -/
def headOp (c : Nat) : Bool :=
  [0x03, 0x04, 0x05, 0x06, 0x07, 0x13, 0x14, 0x15, 0x18, 0x19, 0x12, 0x17].contains c

/-- Check 7 fails at a word of a routine with HEAD 1. -/
def vHead (cls w : Nat) (x : VInfo) : Bool :=
  cls != 2 || decide (2 ≤ x.n) || !headOp (uCode w) ||
  (uHasD w && !(decide (16 ≤ uD w) && decide (uD w < 24))) ||
  (uLast w && (vAfter w x).unclosed)

/-- Check 8 fails at a word. -/
def vClass (cls w : Nat) (x : VInfo) : Bool :=
  let c := uCode w
  match cls with
  | 0 => decide (0x12 ≤ c) && decide (c ≤ 0x1B)
  | 1 => [0x12, 0x13, 0x14, 0x15, 0x16, 0x17, 0x1A, 0x1B].contains c
  | _ => uLast w && (vAfter w x).bare

/-- The check of one customer opcode: the refusal and its word, or `none`. Log 24 (DEDUCED). -/
def verifyOne (b : Blk) (r o : Nat) : Option (Nat × Nat) :=
  let e := dispEntry b r o
  let entry := e % 8192
  let cls := field e 25 2
  if entry < 6144 ∨ cls = 3 then some (2, entry)
  else
    let v := vWalk b r (8192 - entry) entry [(entry, ⟨some 0, none, true, 0, true⟩)] []
    let l := v.1
    let w (a : Nat) := ucsWord b r a
    match v.2 with
    | some (a, true) => some (3, a)
    | some (a, false) => some (4, a)
    | none =>
      match firstBad l (fun a _ => let c := uCode (w a)
          c == 0 || decide (0x1E ≤ c)) with
      | some a => some (5, a)
      | none => match firstBad l (fun a _ => !uOpndOk (w a)) with
        | some a => some (6, a)
        | none => match firstBad l (fun a x => uClassC (w a) && x.pre.isSome && !uLast (w a)) with
          | some a => some (7, a)
          | none => match firstBad l (fun a x => vLong (w a) x) with
            | some a => some (8, a)
            | none => match (if bit e 30 then firstBad l (fun a x => vHead cls (w a) x) else none) with
              | some a => some (9, a)
              | none => match firstBad l (fun a x => vClass cls (w a) x) with
                | some a => some (10, a)
                | none => none

/-- The first failure in ascending opcode order: opcode, STATUS, word. Log 24 (DEDUCED). -/
def verifyAll (b : Blk) (r : Nat) : Option (Nat × Nat × Nat) :=
  (List.range 64).findSome? (fun i =>
    if bit (dispEntry b r (64 + i)) 31 then
      (verifyOne b r (64 + i)).map (fun x => (64 + i, x.1, x.2))
    else none)

/-- VERIFY: the check starts; ignored while one runs (R253, R254). Log 12 (DESIGN CHOICE). -/
def ucsVerify (r : Nat) (b : Blk) : Blk :=
  if b.rd F.UCS_STATUS_STATUS r = 1 then b
  else ((((b.wr F.UCS_STATUS_STATUS 1 r).wr F.UCS_STATUS_FAULT_OPC 0 r).wr F.UCS_STATUS_FAULT_ADDR 0 r).wr
    F.UCS_STATUS_VERIFIED 0 r).sched 52428 (.verifyDone (Fin.ofNat 8 r))

/-- VERIFY_DONE (R253 to R255). Log 24 (DEDUCED). -/
def ucsVerifyDone (r : Nat) (b : Blk) : Blk :=
  if b.rd F.UCS_STATUS_STATUS r ≠ 1 then b
  else match verifyAll b r with
    | none => ((b.wr F.UCS_STATUS_STATUS 0 r).wr F.UCS_STATUS_VERIFIED 1 r).bump F.UCS_STATUS_VERIFY_COUNT r
    | some (o, st, a) =>
      ((b.wr F.UCS_STATUS_STATUS st r).wr F.UCS_STATUS_FAULT_OPC o r).wr F.UCS_STATUS_FAULT_ADDR a r

/-- LOCK (R255). -/
def ucsLock (r : Nat) (b : Blk) : Blk := (b.wr F.UCS_CTRL_LOCK 1 r).wr F.UCS_STATUS_LOCKED 1 r

/-- UCS_CUSTOMER_WRITE: a customer word, or a customer dispatch entry with its reserved bits 0 (R251,
R255, R264). Log 79 (DEDUCED). -/
def ucsCustomerWrite (r : Nat) (disp : Bool) (idx v : Nat) (b : Blk) : Blk :=
  let mine := if disp then decide (64 ≤ idx) && decide (idx < 128) else decide (6144 ≤ idx) && decide (idx < 8192)
  if !mine then b
  else if b.regionIdle r && !b.on F.UCS_STATUS_LOCKED r && b.rd F.UCS_STATUS_STATUS r != 1 then
    let b := b.wr F.UCS_STATUS_VERIFIED 0 r
    if disp then
      ((((b.wr F.UCS_DISP_VALID (field v 31 1) r idx).wr F.UCS_DISP_HEAD (field v 30 1) r idx).wr
        F.UCS_DISP_KINDS (field v 27 3) r idx).wr F.UCS_DISP_CLASS (field v 25 2) r idx).wr
        F.UCS_DISP_ENTRY (field v 0 13) r idx
    else b.wr F.UCS_WORD_WORD v r idx
  else b.stick F.UCS_STATUS_WR_REFUSED r

/-- VIMG_READY: the vendor image is in place; a held EN takes hold (R252). -/
def vimgReady (b : Blk) : Blk :=
  let b := (List.range 8).foldl (fun b r => b.wr F.UCS_STATUS_VIMG_READY 1 r) b
  (List.range 64).foldl (fun b q => if (b.seq q).enWait then seqEnSet q b else b) b

/-! ### The commands -/

def execSeqEnSet (q : SeqNo) (s : State) : Res := onBlk (fun _ => seqEnSet q) s
def execSeqEnClear (q : SeqNo) (s : State) : Res := onBlk (fun _ => seqEnClear q) s
def execSeqCmdStart (q : SeqNo) (s : State) : Res := onBlk (fun _ => seqCmdStart q) s
def execSeqCmdStop (q : SeqNo) (s : State) : Res := onBlk (fun _ => seqCmdStop q) s
def execSeqStart (q : SeqNo) (s : State) : Res := onBlk (fun _ => seqStart q) s
def execEntryStart (q : SeqNo) (s : State) : Res := onBlk (fun _ => entryStart q) s
def execHaltRetire (q : SeqNo) (s : State) : Res := onBlk (fun _ => haltRetire q) s
def execSoftStopBegin (q : SeqNo) (s : State) : Res := onBlk (fun _ => softStopBegin q) s
def execSoftStopComplete (q : SeqNo) (s : State) : Res := onBlk (fun _ => softStopComplete q) s
def execVetoNotice (q : SeqNo) (s : State) : Res := onBlk (fun _ => vetoNotice q) s
def execStartTrigger (q : SeqNo) (birth : Nat) (s : State) : Res := onBlk (fun _ => startTrigger q birth) s
def execEntryCommit (q : SeqNo) (s : State) : Res := onBlk (fun m => entryCommit m headRoutine q) s
def execWaitdSatisfied (q : SeqNo) (s : State) : Res := onBlk (fun m => waitdSatisfied m headRoutine q) s
def execWaitdTimeout (q : SeqNo) (s : State) : Res := onBlk (fun m => waitdTimeout m headRoutine q) s
def execWaitevTimeout (q : SeqNo) (s : State) : Res := onBlk (fun m => waitevTimeout m headRoutine q) s
def execWaitevEvent (q : SeqNo) (ch : Fin 256) (s : State) : Res :=
  onBlk (fun m => waitevEvent m headRoutine q ch) s
def execBranchRequest (q : SeqNo) (target : Fin 4096) (s : State) : Res :=
  onBlk (fun m => branchRequest m headRoutine q target) s
def execSeqJreq (q : SeqNo) (target : Fin 4096) (s : State) : Res := onBlk (fun _ => seqJreq q target) s
def execSreg (q : SeqNo) (i : Fin 16) (v : Nat) (s : State) : Res := onBlk (fun m => sregWrite m q i v) s
def execNop (q : SeqNo) (s : State) : Res := onBlk (fun m b => vendor m b q 0x00 (fun b w => iNop b q w)) s
def execHalt (q : SeqNo) (s : State) : Res := onBlk (fun m b => vendor m b q 0x01 (fun b w => iHalt b q w)) s
def execWait (q : SeqNo) (s : State) : Res := onBlk (fun m b => vendor m b q 0x03 (fun b w => iWait b q w)) s
def execWaitev (q : SeqNo) (s : State) : Res := onBlk (fun m b => vendor m b q 0x04 (fun b w => iWaitev b q w)) s
def execWaitd (q : SeqNo) (s : State) : Res := onBlk (fun m b => vendor m b q 0x05 (fun b w => iWaitd b q w)) s
def execBrd (q : SeqNo) (s : State) : Res := onBlk (fun m b => vendor m b q 0x06 (fun b w => iBrd b q w)) s
def execJmp (q : SeqNo) (s : State) : Res := onBlk (fun m b => vendor m b q 0x07 (fun b w => iJmp b q w)) s
def execBrs (q : SeqNo) (s : State) : Res := onBlk (fun m b => vendor m b q 0x08 (fun b w => iBrs b q w)) s
def execCall (q : SeqNo) (s : State) : Res := onBlk (fun m b => vendor m b q 0x09 (fun b w => iCall b q w)) s
def execRet (q : SeqNo) (s : State) : Res := onBlk (fun m b => vendor m b q 0x0A (fun b w => iRet b q w)) s
def execLoop (q : SeqNo) (s : State) : Res := onBlk (fun m b => vendor m b q 0x0B (fun b w => iLoop b q w)) s
def execEndl (q : SeqNo) (s : State) : Res := onBlk (fun m b => vendor m b q 0x0C (fun b w => iEndl b q w)) s
def execSeta (q : SeqNo) (s : State) : Res := onBlk (fun m b => vendor m b q 0x10 (fun b w => iSeta b q w)) s
def execSync (q : SeqNo) (s : State) : Res := onBlk (fun m b => vendor m b q 0x13 (fun b w => iSync b q w)) s
def execOpr (q : SeqNo) (s : State) : Res := onBlk (fun m b => vendor m b q 0x16 (fun b w => iOpr b q w)) s
def execPlay (q : SeqNo) (s : State) : Res := onBlk (fun m b => vendor m b q 0x02 (fun b w => iPlay m b q w)) s
def execSetf (q : SeqNo) (s : State) : Res :=
  onBlk (fun m b => vendor m b q 0x0D (fun b w => attach b q (.ftw (field w 50 5) (field w 0 48)))) s
def execSetp (q : SeqNo) (s : State) : Res :=
  onBlk (fun m b => vendor m b q 0x0E (fun b w => attach b q (.poff (field w 50 5) (field w 0 32) (bit w 48)))) s
def execShiftp (q : SeqNo) (s : State) : Res :=
  onBlk (fun m b => vendor m b q 0x0F (fun b w => attach b q (.shiftp (field w 50 5) (field w 0 32)))) s
def execEmit (q : SeqNo) (s : State) : Res :=
  onBlk (fun m b => vendor m b q 0x11 (fun b w => attach b q (.emit (field w 0 2)))) s
def execCapt (q : SeqNo) (s : State) : Res :=
  onBlk (fun m b => vendor m b q 0x12 (fun b w => attach b q (.capt (field w 0 4)))) s
def execOpenw (q : SeqNo) (s : State) : Res :=
  onBlk (fun m b => vendor m b q 0x15 (fun b w => attach b q (.openw (field w 0 32) (field w 32 2)))) s
def execShot (q : SeqNo) (s : State) : Res :=
  onBlk (fun m b => vendor m b q 0x17 (fun b w => attach b q (.shot (bit w 0)))) s
def execMrkp (q : SeqNo) (s : State) : Res :=
  onBlk (fun m b => vendor m b q 0x18 (fun b w => attach b q (.mrkp (field w 8 4) (field w 0 8)))) s
def execStreamFetch (q : SeqNo) (s : State) : Res :=
  onBlk (fun m b => vendor m b q 0x14 (fun b w => if bit w 56 then b else iFetch b q w)) s
def execStreamPlays (q : SeqNo) (s : State) : Res :=
  onBlk (fun m b => vendor m b q 0x14 (fun b w => if bit w 56 then iPlays b q w else b)) s
def execCustomerOpcode (q : SeqNo) (s : State) : Res := onBlk (fun m => customerOpcode m q) s
def execReservedOpcode (q : SeqNo) (s : State) : Res := onBlk (fun m => reservedOpcode m q) s
def execUopUndef (q : SeqNo) (s : State) : Res := onBlk (fun m => uopRun m q 0x00 uUndef) s
def execUopNop (q : SeqNo) (s : State) : Res := onBlk (fun m => uopRun m q 0x01 uNop) s
def execUopCommit (q : SeqNo) (s : State) : Res := onBlk (fun m => uopRun m q 0x02 uCommit) s
def execUopMxt (q : SeqNo) (s : State) : Res := onBlk (fun m => uopRun m q 0x03 uMxt) s
def execUopLdi (q : SeqNo) (s : State) : Res := onBlk (fun m => uopRun m q 0x04 uLdi) s
def execUopAlu (q : SeqNo) (s : State) : Res := onBlk (fun m => uopRun m q 0x05 uAlu) s
def execUopAlui (q : SeqNo) (s : State) : Res := onBlk (fun m => uopRun m q 0x06 uAlui) s
def execUopSrd (q : SeqNo) (s : State) : Res := onBlk (fun m => uopRun m q 0x07 uSrd) s
def execUopSwr (q : SeqNo) (s : State) : Res := onBlk (fun m => uopRun m q 0x08 uSwr) s
def execUopUjmp (q : SeqNo) (s : State) : Res := onBlk (fun m => uopRun m q 0x09 uUjmp) s
def execUopUbr (q : SeqNo) (s : State) : Res := onBlk (fun m => uopRun m q 0x0A uUbr) s
def execUopSetnpc (q : SeqNo) (s : State) : Res := onBlk (fun m => uopRun m q 0x0B uSetnpc) s
def execUopPushc (q : SeqNo) (s : State) : Res := onBlk (fun m => uopRun m q 0x0C uPushc) s
def execUopPopc (q : SeqNo) (s : State) : Res := onBlk (fun m => uopRun m q 0x0D uPopc) s
def execUopLpush (q : SeqNo) (s : State) : Res := onBlk (fun m => uopRun m q 0x0E uLpush) s
def execUopLstep (q : SeqNo) (s : State) : Res := onBlk (fun m => uopRun m q 0x0F uLstep) s
def execUopLtop (q : SeqNo) (s : State) : Res := onBlk (fun m => uopRun m q 0x10 uLtop) s
def execUopDvrd (q : SeqNo) (s : State) : Res := onBlk (fun m => uopRun m q 0x11 uDvrd) s
def execUopEkind (q : SeqNo) (s : State) : Res := onBlk (fun m => uopRun m q 0x12 uEkind) s
def execUopElen (q : SeqNo) (s : State) : Res := onBlk (fun m => uopRun m q 0x13 uElen) s
def execUopEplay (q : SeqNo) (s : State) : Res := onBlk (fun m => uopRun m q 0x14 uEplay) s
def execUopEplaym (q : SeqNo) (s : State) : Res := onBlk (fun m => uopRun m q 0x15 uEplaym) s
def execUopEstrm (q : SeqNo) (s : State) : Res := onBlk (fun m => uopRun m q 0x16 uEstrm) s
def execUopEclose (q : SeqNo) (s : State) : Res := onBlk (fun m => uopRun m q 0x17 uEclose) s
def execUopEparm (q : SeqNo) (s : State) : Res := onBlk (fun m => uopRun m q 0x18 uEparm) s
def execUopEatt (q : SeqNo) (s : State) : Res := onBlk (fun m => uopRun m q 0x19 uEatt) s
def execUopEaux (q : SeqNo) (s : State) : Res := onBlk (fun m => uopRun m q 0x1A uEaux) s
def execUopBrdarm (q : SeqNo) (s : State) : Res := onBlk (fun m => uopRun m q 0x1B uBrdarm) s
def execUopSfetch (q : SeqNo) (s : State) : Res := onBlk (fun m => uopRun m q 0x1C uSfetch) s
def execUopFault (q : SeqNo) (s : State) : Res := onBlk (fun m => uopRun m q 0x1D uFault) s
def execUopVchk (q : SeqNo) (s : State) : Res := onBlk (fun m => uopRun m q 0x30 uVchk) s
def execVerify (r : Region) (s : State) : Res := onBlk (fun _ => ucsVerify r) s
def execVerifyDone (r : Region) (s : State) : Res := onBlk (fun _ => ucsVerifyDone r) s
def execLock (r : Region) (s : State) : Res := onBlk (fun _ => ucsLock r) s
def execUcsCustomerWrite (r : Region) (disp : Bool) (idx v : Nat) (s : State) : Res :=
  onBlk (fun _ => ucsCustomerWrite r disp idx v) s
def execVimgReady (s : State) : Res := onBlk (fun _ => vimgReady) s

end Sys2Proof.Machine
end

