-- ==== Sys2Proof/Machine/Pwr.lean ====
section
/-!
DEFINITION. Supply, resets, block resets, power states, the life cycle (R570 to R586).
-/

namespace Sys2Proof.Machine

/-- The block of BAR0 a register lies in: its offset's 64 KiB page (R608). -/
def regPage (r : Reg) : Nat := match r.layout with | some l => l.base / 0x10000 | none => 0x1000

/-- The registers of a port, by page: DRV and PRB, ACQ, SEQ, ODR. -/
def drvReg (r : Reg) : Bool := regPage r == 0x10
def acqReg (r : Reg) : Bool := regPage r == 0x1C
def seqReg (r : Reg) : Bool := regPage r == 0x24
def odrReg (r : Reg) : Bool := regPage r == 0x30

/-- Registers of the Firn island: BIA, FRN and the bias part of GOV (R351, R365, R573). Log 85 (DEDUCED). -/
def firnReg (r : Reg) : Bool :=
  regPage r == 0xB || regPage r == 0xC || r == .govBload || r == .govBlim || r == .govBslew || r == .govBstat

/-- The life-cycle state in MRAM. -/
def lcKey (k : Key) : Bool := k == F.GLB_LC_STATE.key 0 0 || k == F.GLB_LC_SWEEP_PEND.key 0 0

/-- What the Firn island itself has under way. -/
def firnCmd (c : Instr) : Bool :=
  match c with
  | .presetDone _ _ => true
  | .presetCheck => true
  | .trigSequenceEnd => true
  | .frnEntryComplete .. => true
  | .wake _ _ => true
  | _ => false

/-! ### Warm and cold reset (R570 to R574) -/

/-- Every marker is driven low (R411). -/
def dropMarkers (b : Blk) : Blk :=
  (List.range 16).foldl (fun b k => if (b.mark k).prevD then b.emit (.marker k (64 * b.now) false) else b) b

/-- Firn modulators drop what the control die had them do; the island goes on. Log 62 (DEDUCED). -/
def firnGoesOn (b : Blk) : Blk :=
  frnKick { b with frn := { b.frn with pairs := [], hib := false,
                                       cur := b.frn.cur.filter (fun e => decide (e.2.1 < 128)) } }

/-- The state while a warm reset lasts: what R573 keeps, everything else at reset.  `p` picks further
registers to keep. Log 74 (DEDUCED), 85 (DEDUCED). -/
def warmState (b : Blk) (p : Key → Bool) : Blk :=
  let b := dropMarkers b
  firnGoesOn { Blk.reset with
    is32 := b.is32, elapsed := b.elapsed, out := b.out, freeCtr := b.freeCtr
    regs := b.regs.filter (fun e => firnReg e.1.reg || lcKey e.1 || p e.1)
    bias := b.bias, mram := b.mram, frn := b.frn
    agenda := b.agenda.filter (fun e => firnCmd e.2)
    pwr := ⟨false, true, b.pwr.vin, none, [], b.pwr.peWake || hibernated b, none⟩ }

/-- The PCIe link outlives a reset that PERST_N did not cause (R574). Log 85 (DEDUCED). -/
def linkKey (k : Key) : Bool := k.reg == .hifLink

/-- RESET_ASSERT (R574): RESET_N or PERST_N low; thermal shutdown lasts (R382). -/
def resetAssert (perst : Bool) (b : Blk) : Blk :=
  if b.pwr.vin = 2 then b else warmState b (fun k => !perst && linkKey k)

/-- BROWN_OUT (R570): as a warm reset, with the rails off. -/
def brownOut (b : Blk) : Blk :=
  if b.pwr.vin = 2 then b
  else
    let b := warmState b (fun _ => false)
    { b with pwr := { b.pwr with vin := 1 } }

/-- VIN_LOSS (R570, R573): only MRAM is kept. -/
def vinLoss (b : Blk) : Blk :=
  { Blk.reset with
    is32 := b.is32, elapsed := b.elapsed, out := b.out, freeCtr := b.freeCtr, mram := b.mram
    regs := b.regs.filter (fun e => lcKey e.1)
    agenda := []
    pwr := ⟨false, true, 2, none, [], false, none⟩ }

/-- VIN_RISE (R571): VIN is valid; after a loss the presets are checked (R356). -/
def vinRise (b : Blk) : Blk :=
  let was := b.pwr.vin
  let b := { b with pwr := { b.pwr with vin := 0 } }
  if was = 2 then b.sched 0 .presetCheck else b

/-- Every SRAM store cleared; DRAM is left as it is. -/
def sramCleared (m : Mem) : Mem where
  cells := m.cells.filter (fun c => decide (dramBase ≤ c.1))
  poison := m.poison.filter (fun w => decide (dramBase ≤ 8 * w) && decide (8 * w < 0x1000000000000))

/-- The SRAM sweep of a reset begins (R488). -/
def sramSweep (b : Blk) : Blk := (b.setDdr { b.ddr with sram := true }).sched 160000 .sramSweepComplete

/-- Time of a life-cycle sweep: SRAM, MRAM, then DRAM (R581). Log 89 (DESIGN CHOICE). -/
def lcSweepTicks (b : Blk) : Nat := 160000 + 4000000 + dramSize b.is32 * 8000000 / 2 ^ 30

/-- The life-cycle sweep begins: every store is out of service until it ends (R581, R584). -/
def lcSweep (b : Blk) : Blk :=
  let b := (b.setDdr { b.ddr with sram := true, kept := 0 }).wr F.MEM_DSTAT_DRAM_READY 0
  let b := b.clearRegs (fun k => (k.reg == .ucsWord && decide (6144 ≤ k.j)) || (k.reg == .ucsDisp && decide (64 ≤ k.j)))
  b.sched (lcSweepTicks b) .lcSweepDone

/-- RESET_RELEASE (R571, R584): PGOOD, RESET_N and PERST_N are high.  With SWEEP_PEND 1 the life-cycle sweep
runs first. Log 86 (DEDUCED). -/
def resetRelease (straps : Nat) (m : Mem) (b : Blk) : Blk × Mem :=
  if !b.pwr.off || b.pwr.vin != 0 || b.on F.FRN_THERM_SHDN || b.rd F.GLB_PWR_STATE != 0 then (b, m)
  else
    let b := b.wr F.GLB_STRAP_STRAP straps
    if b.on F.GLB_LC_SWEEP_PEND then (lcSweep b, m)
    else (sramSweep { b with pwr := { b.pwr with off := false } }, sramCleared m)

/-! ### Block resets (R575) -/

/-- A block reset of kind `k`, block `i`. Log 84 (DEDUCED). -/
def brst (k i : Nat) (f : Blk → Blk) (b : Blk) : Blk :=
  if b.on F.GLB_BRST_BUSY then b
  else
    let b := (f b).wr F.GLB_BRST_BUSY 1
    ({ b with pwr := { b.pwr with brst := some (k, i) } }).sched 1000 .brstDone

/-- A sequencer stops at once; its fields return to reset.  Summaries of ended shots are still to come. -/
def resetSeq (b : Blk) (q : Nat) : Blk :=
  let b := cutSeq b q
  let e := (b.seq q).ended
  (b.clearRegs (fun k => seqReg k.reg && k.i == q)).setSeq q { SeqSt.reset with ended := e }

/-- Block reset of DAC port `p`. -/
def resetPort (p : Nat) (b : Blk) : Blk :=
  let b := dropResv (resetSeq b (portSeq p)) p
  let b := b.clearRegs (fun k => drvReg k.reg && k.i == p)
  hardMute (b.setPort p PortSt.reset) p .brst

/-- Block reset of acquisition port `k`: a LOAD that waits for its check ends as if the check had failed.
Log 84 (DEDUCED). -/
def resetAcq (k : Nat) (b : Blk) : Blk :=
  let b := resetSeq (endWindowsAt b k) (acqSeq k)
  let b := match (b.acq k).cfgCmd with
    | some (f, i) => { b with verdicts := b.verdicts ++ [(f, i, 11)] }
    | none => b
  (b.clearRegs (fun x => acqReg x.reg && x.i == k)).setAcq k AcqSt.reset

/-- Block reset of core `n`. -/
def resetCore (n : Nat) (b : Blk) : Blk :=
  (b.clearRegs (fun k => odrReg k.reg && k.i == n)).setOdr n OdrSt.reset

/-- The capture engine's registers. -/
def capReg (r : Reg) : Bool := r == .trgCcfg || r == .trgCbuf || r == .trgCwin || r == .trgCcmd || r == .trgCstat

/-- Engine `e` becomes IDLE without posting; its fields return to reset (R414). -/
def resetCapture (e : Nat) (b : Blk) : Blk :=
  (b.clearRegs (fun k => capReg k.reg && k.i == e)).setCap e CapSt.reset

/-- The channel's discriminator fields. -/
def dscReg (r : Reg) : Bool := regPage r == 0x20

/-- The discriminators of region `r`: fields at reset, entries IDLE with CODE 0b11 (R175). -/
def resetDsc (r : Nat) (b : Blk) : Blk :=
  let b := b.clearRegs (fun k => dscReg k.reg && k.i / 64 == r)
  ((List.range 64).map (fun i => 64 * r + i)).foldl (fun b q => dvChange b 1 q 0 3 false b.now) b

/-- The registers of a Habor port. -/
def lnkPortReg (r : Reg) : Bool := regPage r == 0x6 && r != .lnkGcfg && r != .lnkPeers

/-- Habor port `p` becomes DOWN; R187 applies; its fields return to reset. -/
def resetHabor (p : Nat) (b : Blk) : Blk :=
  let b := if b.lnkState p = lnkLocked then lnkLeave b p lnkDown 0 else importsUnavail b p
  (b.clearRegs (fun k => lnkPortReg k.reg && k.i == p)).setLink p { LnkSt.reset with cut := (b.link p).cut }

/-- The NET link goes down; both rings are disabled. -/
def resetNet (b : Blk) : Blk := ((netLinkChange false b).wr F.NET_TXQ_EN 0).wr F.NET_RXQ_EN 0

/-- BRST_DONE: BUSY clears; a DAC port is MUTED, unless its region is held or SAFE is entered. Log 84 (DEDUCED). -/
def brstDone (b : Blk) : Blk :=
  match b.pwr.brst with
  | none => b
  | some (k, i) =>
    let b := ({ b with pwr := { b.pwr with brst := none } }).wr F.GLB_BRST_BUSY 0
    let p := if k = 0 then i else 32 + i
    if k ≤ 1 ∧ (b.port p).mute = some .brst then
      if regionHeld b (portRegion p) then b.setPort p { b.port p with mute := some .region }
      else unmute b p
    else b

/-! ### Power states (R576 to R580) -/

/-- Some command descriptor is in progress. -/
def cmdsBusy (b : Blk) : Bool := b.hif.cmds.any (fun e => !e.2.isEmpty)

/-- A Moraine sweep runs. -/
def sweepRuns (b : Blk) : Bool := b.ddr.sram || !b.ddr.sweeps.isEmpty || b.on F.GLB_LC_SWEEP_PEND

/-- The conditions of R577. -/
def quiet (b : Blk) : Bool :=
  b.allDisabled && (List.range 16).all (fun n => b.coreState n == cHalted || b.coreState n == cFaulted) &&
  (List.range 16).all (fun e => b.capState e == cIdle || b.capState e == cStopped) && !cmdsBusy b &&
  (List.range 8).all (fun r => !regionHeld b r) && !sweepRuns b

/-- The power state becomes `x`: source 1015 publishes. Log 87 (DEDUCED). -/
def setPower (b : Blk) (x : Nat) : Blk := (b.wr F.GLB_PWR_STATE x).publish 1015 0 b.now

/-- REQ_ACTIVE (R578). Log 12 (DESIGN CHOICE), 87 (DEDUCED). -/
def reqActive (b : Blk) : Blk :=
  if b.rd F.GLB_PWR_STATE = 1 then (b.wr F.GLB_PWR_REQ 0).sched 16000 .idleExit else b

/-- REQ_IDLE (R577). -/
def reqIdle (b : Blk) : Blk :=
  if b.rd F.GLB_PWR_STATE ≠ 0 then b
  else if !quiet b then b.stick F.GLB_PWR_REFUSED
  else selfRefreshAll (setPower (b.wr F.GLB_PWR_REQ 1) 1) true

/-- REQ_HIBERNATE (R577, R579): system source 2 becomes true, and the wait begins. -/
def reqHibernate (b : Blk) : Blk :=
  if b.rd F.GLB_PWR_STATE = 2 then b
  else if !quiet b then b.stick F.GLB_PWR_REFUSED
  else
    let b := setPower (b.wr F.GLB_PWR_REQ 2) 2
    let t := b.elapsed + 800000 * b.rd F.GLB_PWR_HIB_WAIT
    selfRefreshAll { b with frn := { b.frn with hib := true }, pwr := { b.pwr with hib := some t } } true

/-- IDLE_EXIT (R578): accesses that waited for it follow. Log 106 (DESIGN CHOICE). -/
def idleExit (b : Blk) : Blk :=
  if b.rd F.GLB_PWR_STATE ≠ 1 then b
  else
    let b := selfRefreshAll (setPower (b.wr F.GLB_PWR_REQ 0) 0) false
    let l := b.rcv.held
    ({ b with rcv := { b.rcv with held := [] } }).schedAll 0 l

/-- The retention set (R579). -/
def retained (k : Key) : Bool :=
  k.reg == .timRefCfg || k.reg == .timDtrim || k.reg == .timAtrim || k.reg == .memDctrl || k.reg == .memDdly ||
  k.reg == .hifOwn || k.reg == .hifSpart || k.reg == .hifDpart || (k.reg == .hifFctrl && k.lsb == 0) ||
  k.reg == .govCeils || k.reg == .govCeill || k.reg == .govWin || k.reg == .govAllot ||
  (k.reg == .govLcfg && (k.lsb == F.GOV_LCFG_STAGE.lsb || k.lsb == F.GOV_LCFG_POOL.lsb)) ||
  k.reg == .govCtrl || k == F.GOV_STATUS_LOCKED.key 0 0 || k.reg == .lnkGcfg

/-- Rules on system source 2 move channel `c` and it is still on its way (R579). Log 56 (DEDUCED). -/
def hibMoving (b : Blk) (c : Nat) : Bool :=
  b.rd F.BIA_STAT_STATE c == 6 && (List.range 32).any (fun j => b.on F.FRN_RSTAT_FIRED j &&
    b.on F.FRN_RCFG_A_RAMP j && bit (b.rd F.FRN_RMASK_MASK j) c && b.rd F.FRN_RCFG_SRCKIND j == 3 &&
    b.rd F.FRN_RCFG_SRCIDX j == 2)

/-- Rules on system source 2 that are enabled have fired. -/
def hibFired (b : Blk) : Bool :=
  (List.range 32).all (fun j => !(b.on F.FRN_RCFG_EN j && b.on F.FRN_RCFG_A_RAMP j &&
    b.rd F.FRN_RCFG_SRCKIND j == 3 && b.rd F.FRN_RCFG_SRCIDX j == 2) || b.on F.FRN_RSTAT_FIRED j)

/-- The wait of R579 is over. Log 56 (DEDUCED). -/
def hibReady (b : Blk) : Bool :=
  match b.pwr.hib with
  | some t => decide (t ≤ b.elapsed) || (hibFired b && (List.range 64).all (fun c => !hibMoving b c))
  | none => false

/-- Usable bytes that PASR keeps (R495). -/
def pasrKept (b : Blk) : Nat := dramSize b.is32 / 2 ^ b.rd F.MEM_DCTRL_PASR

/-- HIBERNATE_POWER_OFF (R579): the retention set is saved, tiles and control die go off. -/
def hibernatePowerOff (m : Mem) (b : Blk) : Blk × Mem :=
  if b.rd F.GLB_PWR_STATE ≠ 2 ∨ b.pwr.off ∨ !hibReady b then (b, m)
  else
    let keep := b.regs.filter (fun e => retained e.1)
    let tal := (carryTallies b).gov.tal
    let kept := if b.on F.MEM_DSTAT_DRAM_READY then pasrKept b else 0
    let w := warmState b (fun k => k.reg == .glbPwr)
    let w := { w with frn := { w.frn with hib := true }
                      gov := { w.gov with tal := tal }
                      ddr := { w.ddr with kept := kept }
                      pwr := { w.pwr with retain := keep, peWake := false } }
    (w, (sramCleared m).sweep (dramBase + kept) (dramSize b.is32 - kept))

/-- The entry to Hibernate is aborted (R580). -/
def hibAbort (b : Blk) : Blk :=
  let b := { b with frn := { b.frn with hib := false }, pwr := { b.pwr with hib := none } }
  selfRefreshAll (setPower (b.wr F.GLB_PWR_REQ 0) 0) false

/-- The tallies re-enter as the carry of R322, for one whole window. -/
def talliesBack (b : Blk) : Blk :=
  { b with gov := { b.gov with tal := b.gov.tal.map (fun e =>
      (e.1, { e.2 with carryUntil := b.elapsed + winTicks b (e.1 / 2 % 2) })) } }

/-- The part of DRAM not kept is out of service while it is cleared; with all of it kept, DRAM is ready. -/
def dramBack (b : Blk) (m : Mem) : Blk × Mem :=
  if !b.on F.MEM_DCTRL_TRAINED then (b.setDdr { b.ddr with kept := 0 }, m)
  else if b.ddr.kept = dramSize b.is32 then
    ((b.setDdr { b.ddr with kept := 0 }).wr F.MEM_DSTAT_DRAM_READY 1, m)
  else dramSweep b m 255 b.ddr.kept (dramSize b.is32 - b.ddr.kept)

/-- HIBERNATE_WAKE (R580). Log 87 (DEDUCED). -/
def hibernateWake (m : Mem) (b : Blk) : Blk × Mem :=
  if b.rd F.GLB_PWR_STATE ≠ 2 then (b, m)
  else if !b.pwr.off then (hibAbort b, m)
  else
    let b := { b with regs := b.regs.filter (fun e => !decide (e.1.reg = .glbPwr)) ++ b.pwr.retain
                      frn := { b.frn with hib := false }
                      pwr := { b.pwr with off := false, retain := [], peWake := true } }
    let b := setPower (sramSweep (talliesBack b)) 0
    dramBack b m

/-! ### Life cycle (R582 to R584) -/

/-- The transitions of R583. Log 34 (DEDUCED). -/
def lcAllowed (a t : Nat) : Bool :=
  match a, t with
  | 0, 1 => true
  | 1, 2 => true
  | 2, 1 => true
  | 1, 3 => true
  | 2, 3 => true
  | 3, 0 => true
  | _, _ => false

/-- The causes for which a transition is refused, in REF_CAUSE's codes. -/
def lcCauses (b : Blk) (target confirm : Nat) : List Nat :=
  (if lcAllowed (b.rd F.GLB_LC_STATE) target then [] else [1]) ++
  (if b.allDisabled then [] else [2]) ++
  (if target = 3 ∧ !b.on F.BIA_GLB_CLEAR_ACT then [3] else []) ++
  (if confirm = 0xC5 then [] else [4]) ++
  (if b.on F.GLB_LC_SWEEP_PEND then [5] else [])

/-- LC_TRANSITION (R583, R584, R586): where several causes hold, which one is reported is free.
Log 88 (DESIGN CHOICE). -/
def lcTransition (target confirm : Nat) (b : Blk) : Blk :=
  match lcCauses b target confirm with
  | [] => lcSweep ((b.wr F.GLB_LC_STATE target).wr F.GLB_LC_SWEEP_PEND 1)
  | c :: cs =>
    let l := c :: cs
    (b.spend.stick F.GLB_LC_REFUSED).wr F.GLB_LC_REF_CAUSE (l.getD (b.fresh % l.length) c)

/-- LC_SWEEP_DONE (R355, R584): the stores are clear, the presets factory safe, SWEEP_PEND clears, and a warm
reset follows. Log 86 (DEDUCED). -/
def lcSweepDone (m : Mem) (b : Blk) : Blk × Mem :=
  if !b.on F.GLB_LC_SWEEP_PEND then (b, m)
  else
    let straps := b.rd F.GLB_STRAP_STRAP
    let b := (presetsSwept b).wr F.GLB_LC_SWEEP_PEND 0
    let b := warmState b linkKey
    (b.sched 0 (.resetRelease (Fin.ofNat 64 straps)), ⟨[], []⟩)

def execVinRise (s : State) : Res := onBlk (fun _ => vinRise) s
def execVinLoss (s : State) : Res := onBlk (fun _ => vinLoss) s
def execBrownOut (s : State) : Res := onBlk (fun _ => brownOut) s
def execResetAssert (perst : Bool) (s : State) : Res := onBlk (fun _ => resetAssert perst) s
def execResetRelease (straps : Fin 64) (s : State) : Res := onBoth (resetRelease straps) s
def execBrstDrivePort (p : Fin 32) (s : State) : Res := onBlk (fun _ => brst 0 p (resetPort p)) s
def execBrstProbePort (p : Fin 16) (s : State) : Res := onBlk (fun _ => brst 1 p (resetPort (32 + p))) s
def execBrstAcqPort (k : AcqPort) (s : State) : Res := onBlk (fun _ => brst 2 k (resetAcq k)) s
def execBrstOdricCore (n : CoreNo) (s : State) : Res := onBlk (fun _ => brst 3 n (resetCore n)) s
def execBrstCaptureEngine (e : Fin 16) (s : State) : Res := onBlk (fun _ => brst 4 e (resetCapture e)) s
/-- R575: refused unless the region is idle. -/
def execBrstDiscriminators (r : Region) (s : State) : Res :=
  onBlk (fun _ b => if b.on F.GLB_BRST_BUSY ∨ b.regionIdle r then brst 5 r (resetDsc r) b
    else b.stick F.GLB_BRST_REFUSED) s
def execBrstHaborPort (p : HabPort) (s : State) : Res := onBlk (fun _ => brst 6 p (resetHabor p)) s
def execBrstNetPort (s : State) : Res := onBlk (fun _ => brst 7 0 resetNet) s
def execBrstDone (s : State) : Res := onBlk (fun _ => brstDone) s
def execReqActive (s : State) : Res := onBlk (fun _ => reqActive) s
def execReqIdle (s : State) : Res := onBlk (fun _ => reqIdle) s
def execReqHibernate (s : State) : Res := onBlk (fun _ => reqHibernate) s
def execIdleExit (s : State) : Res := onBlk (fun _ => idleExit) s
def execHibernatePowerOff (s : State) : Res := onBoth hibernatePowerOff s
def execHibernateWake (s : State) : Res := onBoth hibernateWake s
def execLcTransition (target : Fin 4) (confirm : Fin 256) (s : State) : Res :=
  onBlk (fun _ => lcTransition target confirm) s
def execLcSweepDone (s : State) : Res := onBoth lcSweepDone s

end Sys2Proof.Machine
end

