-- ==== Sys2Proof/Machine/Access.lean ====
section
/-!
DEFINITION. Where an access lands and who may make it: the register at a BAR0 offset (R595, R596), the
functions that see it (R450 and each chapter's visibility rule), the store at a BAR2 offset and its owner
(R448, R450).
-/

namespace Sys2Proof.Machine

/-! ### Registers by offset -/

/-- A place in BAR0: register, indices, byte offset within the register. -/
structure RegAt where
  reg : Reg
  i : Nat
  j : Nat
  off : Nat
  deriving DecidableEq, Repr

/-- An offset divided by a stride: index below the count, and the rest. -/
def splitIdx (o stride n : Nat) : Option (Nat × Nat) :=
  if stride = 0 then some (0, o) else if o / stride < n then some (o / stride, o % stride) else none

/-- Offset `a` within register `r`. -/
def locateIn (a : Nat) (r : Reg) : Option RegAt :=
  match r.layout with
  | none => none
  | some l =>
    if a < l.base then none
    else match splitIdx (a - l.base) l.si l.ni with
      | none => none
      | some (i, o) => match splitIdx o l.sj l.nj with
        | none => none
        | some (j, o) => match splitIdx o l.sk l.nk with
          | none => none
          | some (k, o) => if o < l.width / 8 then some ⟨r, i, j * l.nk + k, o⟩ else none

/-- Registers that a port or a variant lacks (R129, R497). -/
def regExists (b : Blk) (r : Reg) (i j : Nat) : Bool :=
  match r with
  | .drvSfreq | .drvSphase | .drvSamp | .drvSctrl => decide (j < nSlots i)
  | .prbSenv | .prbEstopcnt => decide (32 ≤ i)
  | .memDdly => decide (i < channels b)
  | _ => true

/-- The register at a BAR0 offset. -/
def locate (b : Blk) (a : Nat) : Option RegAt :=
  match Reg.all.findSome? (locateIn a) with
  | some x => if regExists b x.reg x.i x.j then some x else none
  | none => none

/-- Width of a register in bits. -/
def regWidth (r : Reg) : Nat := match r.layout with | some l => l.width | none => 64

/-! ### Visibility -/

/-- The owner of a task input (R430). -/
def tinOwner (b : Blk) (i : Nat) : Nat :=
  if i < 64 then b.seqOwner i
  else if i < 128 then b.seqOwner (i - 64)
  else if i < 384 then b.owner (64 + (i - 128) / 16)
  else if i < 400 then b.owner (144 + (i - 384))
  else 0

/-- The function besides function 0 that a register belongs to; 0 where there is none (R122, R162, R163, R195,
R233, R261, R311, R338, R361, R415, R441, R497). -/
def regOwner (b : Blk) (r : Reg) (i : Nat) : Nat :=
  match r with
  | .evfFire | .evfFstat | .evfLogq | .cntFstat | .dscColq | .dscCollost => i
  | .evfSrcmap => srcOwner b i
  | .evfChcfg | .evfChstat => chFunc b i
  | .evfTin => tinOwner b i
  | .cntCfg | .cntVal => b.rd F.CNT_CFG_OWNER i
  | .memPanic => b.owner i
  | .govBuds | .govBudl | .govCeils | .govCeill | .govTals | .govTall | .govLcfg | .govLcnt =>
    if i < 48 then b.owner i else 0
  | .biaCfg | .biaCode | .biaClr | .biaTrim | .biaAct | .biaStat | .biaPcmd | .biaPstat => b.owner (80 + i)
  | .trgTcfg | .trgTlev | .trgTstat | .trgTcnt => b.chanOwner i
  | .trgCcfg | .trgCbuf | .trgCwin | .trgCcmd | .trgCstat => b.owner (144 + i)
  | .dscCfg | .dscAxa | .dscAxb | .dscDrift | .dscBnda | .dscBndb | .dscErase | .dscStat => b.chanOwner i
  | .dscRsel0 | .dscRsel1 | .dscRtab => b.seqOwner i
  | r =>
    if drvReg r then b.owner i
    else if acqReg r then b.owner (48 + i)
    else if seqReg r then b.seqOwner i
    else if odrReg r then b.owner (64 + i)
    else 0

/-- Function `f` sees the register (R450, R604). -/
def sees (b : Blk) (f : Nat) (r : Reg) (i : Nat) : Bool :=
  f == 0 || r == .glbId || r == .glbVariant || r == .glbSerial || r == .glbCap || r == .dscDv || regOwner b r i == f

/-- Registers a virtual function sees and may not write (R195, R325, R338, R441). -/
def readOnlyVf (r : Reg) : Bool :=
  r == .evfLogq || r == .dscColq || r == .govCeils || r == .govCeill

/-! ### Fields -/

/-- Bits of a register that are no field's (R600). -/
def fieldBits (r : Reg) : Nat := r.fields.foldl (fun n x => n + (2 ^ x.fld.wid - 1) * 2 ^ x.fld.lsb) 0

/-- The island at which a field takes hold: its port's tile, else the timing island (R57). -/
def fieldIsland (b : Blk) (k : Key) : Nat :=
  match keyRes b k with
  | some x => regionTile (resRegion x)
  | none => 2

/-- The bits `mask` of `new` over those of `old`. -/
def mergeBits (wid mask old new : Nat) : Nat := orW wid (andW wid old (2 ^ wid - 1 - mask % 2 ^ wid)) (andW wid new mask)

/-- The word that a write of `v` on the bits of `mask` puts at a register: RW fields not covered keep their
value (R598), others count as 0. -/
def writtenWord (b : Blk) (r : Reg) (i j mask v : Nat) : Nat :=
  r.fields.foldl (fun n x =>
    let w := x.fld.wid
    let fm := field mask x.fld.lsb w
    let fv := field v x.fld.lsb w
    n + (match x.acc with
      | .rw => mergeBits w fm (b.rd x.fld i j) fv
      | .ro => 0
      | _ => andW w fv fm) * 2 ^ x.fld.lsb) 0

/-- One field under a host write with its Access and Effect codes (R7, R9); actions of WO and W1S fields are the
register's own. -/
def fieldWrite (f i j mask v : Nat) (b : Blk) (x : FieldSpec) : Blk :=
  let w := x.fld.wid
  let fm := field mask x.fld.lsb w
  let fv := field v x.fld.lsb w
  if fm = 0 then b
  else match x.acc with
    | .rw =>
      let nv := mergeBits w fm (b.rd x.fld i j) fv
      match x.eff with
      | .tick | .gran => hostWrite b f (fieldIsland b (x.fld.key i j)) x.eff x.fld nv i j
      | .frame =>
        match keyRes b (x.fld.key i j) with
        | some _ => hostWrite b f (fieldIsland b (x.fld.key i j)) .frame x.fld nv i j
        | none => setNow b x.fld nv i j
      | _ => b.wr x.fld nv i j
    | .w1c => b.wr x.fld (accWrite .w1c w (b.rd x.fld i j) (andW w fv fm)) i j
    | _ => b

/-- Every field of a register that the write covers. -/
def fieldsWrite (f : Nat) (r : Reg) (i j mask v : Nat) (b : Blk) : Blk :=
  r.fields.foldl (fieldWrite f i j mask v) b

/-! ### Stores by BAR2 offset (R448, R450) -/

/-- Owner resource and extent of the store at a BAR2 offset. -/
inductive StoreAt where
  | res (r lo hi : Nat)
  | scratch | dram | none
  deriving DecidableEq, Repr

/-- The owning engine of a capture-store page: the function whose engine's region holds the byte. -/
def captOwner (b : Blk) (a : Nat) : Option Nat :=
  (List.range 16).find? (fun e =>
    let lo := captBase + 4096 * b.rd F.TRG_CBUF_BASE e
    decide (lo ≤ a) && decide (a < lo + 4096 * b.rd F.TRG_CBUF_NPAGE e))

/-- The store at a BAR2 offset, as the smallest unit with one owner: `res r lo hi` is resource r of R451 over
[lo, hi). -/
def storeAt (b : Blk) (a : Nat) : StoreAt :=
  if a < 0x1000000 then .res (160 + a / 0x40000) (a / 0x40000 * 0x40000) (a / 0x40000 * 0x40000 + 0x40000)
  else if a < 0x2000000 then
    let k := (a - 0x1000000) / 0x100000
    .res (48 + k) (kernBase k) (kernBase k + 0x100000)
  else if a < 0x2200000 then
    let q := (a - 0x2000000) / 0x8000
    .res (seqRes q) (pgmBase q) (pgmBase q + 0x8000)
  else if a < 0x2600000 then
    let n := (a - 0x2200000) / 0x40000
    .res (64 + n) (odrPmem n) (odrPmem n + 0x40000)
  else if 0x3000000 ≤ a ∧ a < 0x4000000 then
    let n := (a - 0x3000000) / 0x100000
    .res (64 + n) (odrDmem n) (odrDmem n + 0x100000)
  else if captBase ≤ a ∧ a < captBase + 0x1800000 then
    match captOwner b a with
    | some e => .res (144 + e) (captBase + 4096 * b.rd F.TRG_CBUF_BASE e)
        (captBase + 4096 * (b.rd F.TRG_CBUF_BASE e + b.rd F.TRG_CBUF_NPAGE e))
    | none => .res 1000 captBase (captBase + 0x1800000)
  else if scratchBase ≤ a ∧ a < scratchBase + 0xC00000 then .scratch
  else if dramBase ≤ a ∧ a < dramBase + dramSize b.is32 then .dram
  else .none

/-- The whole store that a BAR2 offset lies in: its first byte and its end. -/
def storeSpan (b : Blk) (a : Nat) : Nat × Nat :=
  if a < 0x1000000 then (a / 0x200000 * 0x200000, a / 0x200000 * 0x200000 + 0x200000)
  else match storeAt b a with
    | .res _ lo hi => if captBase ≤ a then (captBase, captBase + 0x1800000) else (lo, hi)
    | .scratch => (scratchBase, scratchBase + 0xC00000)
    | .dram => (dramBase, dramBase + dramSize b.is32)
    | .none => (a, a)

/-- `[a, a + n)` lies in function `f`'s scratch partition (R453). -/
def inSpart (b : Blk) (f a n : Nat) : Bool :=
  let lo := scratchBase + 0x10000 * b.rd F.HIF_SPART_BASE f
  decide (lo ≤ a) && decide (a + n ≤ lo + 0x10000 * b.rd F.HIF_SPART_SIZE f)

/-- Function `f` owns the byte at a BAR2 offset; function 0 passes every check (R450). -/
def ownsByte (b : Blk) (f a : Nat) : Bool :=
  f == 0 || (match storeAt b a with
    | .res r _ _ => decide (r < 224) && b.owner r == f
    | .scratch => inSpart b f a 1
    | .dram => inDpart b f (a - dramBase) 1
    | .none => true)

/-- Function `f` owns all of `[a, a + n)`: checked where the unit of ownership can change, every 4 KiB. -/
def ownsRange (b : Blk) (f a n : Nat) : Bool :=
  f == 0 || (match storeAt b a with
    | .scratch => inSpart b f a n
    | .dram => inDpart b f (a - dramBase) n
    | _ => ownsByte b f a && ownsByte b f (a + n - 1) &&
      (List.range (n / 4096)).all (fun i => ownsByte b f (a + 4096 * (i + 1))))

/-- The range `[a, a + n)` lies in one store (R461). -/
def oneStore (b : Blk) (a n : Nat) : Bool :=
  let s := storeSpan b a
  decide (s.1 < s.2) && decide (a + n ≤ s.2)

/-- The region whose recovery holds accesses to the store at a BAR2 offset (R551). -/
def storeRegion (a : Nat) : Option Nat :=
  if a < 0x1000000 then some (a / 0x200000)
  else if a < 0x2000000 then some ((a - 0x1000000) / 0x200000)
  else if a < 0x2200000 then some ((a - 0x2000000) / 0x40000)
  else none

/-- A program memory refuses writes: its sequencer RUNNING or STOPPING, its core not HALTED (R203, R269). -/
def pgmBusy (b : Blk) (a : Nat) : Bool :=
  if 0x2000000 ≤ a ∧ a < 0x2200000 then
    let q := (a - 0x2000000) / 0x8000
    b.seqState q == sRunning || b.seqState q == sStopping
  else if 0x2200000 ≤ a ∧ a < 0x2600000 then b.coreState ((a - 0x2200000) / 0x40000) != cHalted
  else false

/-- The mark of a write that a program memory dropped. -/
def pgmRefused (b : Blk) (a : Nat) : Blk :=
  if a < 0x2200000 then b.stick F.SEQ_STATUS_PGM_REFUSED ((a - 0x2000000) / 0x8000)
  else b.stick F.ODR_STATUS_PMEM_REFUSED ((a - 0x2200000) / 0x40000)

/-- Bytes written to a store by the host: dropped while the store is swept (R448) or refuses writes. -/
def hostStore (b : Blk) (m : Mem) (a : Nat) (bs : List Byte) : Blk × Mem :=
  if bs.isEmpty ∨ storeAt b a = .none ∨ sweeping b a then (b, m)
  else if pgmBusy b a then (pgmRefused b a, m)
  else storeWrite b m a bs

end Sys2Proof.Machine
end

