-- ==== Sys2Proof/Machine/Tim.lean ====
section
/-!
DEFINITION. The timebase and the channel map: reference and lock, the counter, deadline queues, MSYNC,
APPLY of a map (R27 to R35, R45 to R83, R633, R634).
-/

namespace Sys2Proof.Machine

/-! ### Channel map (R27 to R35) -/

/-- The lowest entry whose staged index repeats an earlier entry's. -/
def chmapDup (b : Blk) (f : Fld) (r : Nat) : Option Nat :=
  (List.range 64).find? (fun i => (List.range i).any (fun j => b.rd f r j == b.rd f r i))

/-- APPLY (R29, R30, R35): idleness is judged at once; the check takes at most 64 ns. Log 12 (DESIGN CHOICE). -/
def chmapApply (r : Nat) (b : Blk) : Blk :=
  if chmapBusy b r then b
  else
    let b := b.wr F.GLB_CHMAP_CTRL_DUP_ENTRY 0 r
    if b.regionIdle r then (b.wr F.GLB_CHMAP_CTRL_STATUS 1 r).sched 51 (.chmapCheckDone (Fin.ofNat 8 r))
    else b.wr F.GLB_CHMAP_CTRL_STATUS 4 r

/-- A held EN of a region's sequencers takes hold at the first granule boundary (R29). -/
def releaseEn (b : Blk) (r : Nat) : Blk :=
  (regionSeqs r).foldl (fun b q =>
    if (b.seq q).enWait then b.schedAt (granule (b.now + 1)) (.seqEnSet (Fin.ofNat 64 q)) else b) b

/-- CHMAP_CHECK_DONE (R28, R30, R35). -/
def chmapCheckDone (r : Nat) (b : Blk) : Blk :=
  if !chmapBusy b r then b
  else
    let b := match chmapDup b F.GLB_CHMAP_STAGE_DRV_IDX r with
      | some i => (b.wr F.GLB_CHMAP_CTRL_STATUS 2 r).wr F.GLB_CHMAP_CTRL_DUP_ENTRY i r
      | none => match chmapDup b F.GLB_CHMAP_STAGE_RD_IDX r with
        | some i => (b.wr F.GLB_CHMAP_CTRL_STATUS 3 r).wr F.GLB_CHMAP_CTRL_DUP_ENTRY i r
        | none =>
          let b := (b.wr F.GLB_CHMAP_CTRL_STATUS 0 r).bump F.GLB_CHMAP_CTRL_APPLY_COUNT r
          (List.range 64).foldl (fun b i =>
            (b.wr F.GLB_CHMAP_ACT_DRV_IDX (b.rd F.GLB_CHMAP_STAGE_DRV_IDX r i) r i).wr
              F.GLB_CHMAP_ACT_RD_IDX (b.rd F.GLB_CHMAP_STAGE_RD_IDX r i) r i) b
    releaseEn b r

/-! ### Reference (R45 to R49, R634) -/

/-- A counted frequency is one the setting of REF_SEL uses (R634). -/
def refMatches (b : Blk) (f : RefFreq) : Bool :=
  match b.rd F.TIM_REF_CFG_REF_SEL, f with
  | 0, .m100 => true
  | 0, .m10 => true
  | 1, .m100 => true
  | 2, .m10 => true
  | _, _ => false

/-- The reference is lost: by absence or by ceasing to match while locked (R48, R634). -/
def refGone (b : Blk) : Blk :=
  let b := ((b.stick F.TIM_STATUS_REF_LOST).wr F.TIM_STATUS_HOLDOVER 1).wr F.TIM_STATUS_ALIGNED 0
  { b with tim := { b.tim with matchSince := none } }.publish 1017 0 b.now

/-- What counting REF_IN found is taken up (R47, R634). Log 13 (DEDUCED). -/
def refCounted (freq : RefFreq) (b : Blk) : Blk :=
  let b := b.wr F.TIM_STATUS_REF_PRESENT 1
  let t := { b.tim with meas := some freq }
  if refMatches b freq then
    let b := (b.wr F.TIM_STATUS_REF_MISMATCH 0).wr F.TIM_STATUS_REF_IS_10M (b2n (freq == .m10))
    { b with tim := { t with matchSince := some (t.matchSince.getD b.elapsed) } }
  else
    { b.wr F.TIM_STATUS_REF_MISMATCH 1 with tim := { t with matchSince := none } }

/-- REF_MISMATCH (R634): a reference that stops matching while the module is locked counts as lost. -/
def refMismatch (b : Blk) : Blk :=
  let b := b.wr F.TIM_STATUS_REF_MISMATCH 1
  let b := { b with tim := { b.tim with matchSince := none, meas := some .other } }
  if b.on F.TIM_STATUS_SCLK_LOCK then refGone b else b

/-- REF_LOST (R48). -/
def refLost (b : Blk) : Blk :=
  let b := b.wr F.TIM_STATUS_REF_PRESENT 0
  refGone { b with tim := { b.tim with meas := none } }

/-- CLEANUP_PLL_LOCK (R45, R47): the cleanup PLL is in use with 10 MHz, or with CLEAN_100. -/
def cleanupPllLock (b : Blk) : Blk :=
  if b.tim.matchSince.isSome ∧ (b.on F.TIM_STATUS_REF_IS_10M ∨ b.on F.TIM_REF_CFG_CLEAN_100) then
    b.wr F.TIM_STATUS_CLEAN_LOCK 1
  else b

/-- SCLK_LOCK (R46, R47): both sample-clock PLLs have locked to a matching reference. Log 13 (DEDUCED). -/
def sclkLock (b : Blk) : Blk :=
  if b.tim.matchSince.isSome then b.wr F.TIM_STATUS_SCLK_LOCK 1 else b

/-- A relock begins (R48, R49). -/
def relock (b : Blk) : Blk :=
  let b := hardMuteAll b .relock
  let b := ((b.wr F.TIM_STATUS_SCLK_LOCK 0).wr F.TIM_STATUS_CLEAN_LOCK 0).wr F.TIM_STATUS_ALIGNED 0
  { b with tim := { b.tim with running := false, relocking := true, loadAt := none } }

/-- RELOCK_START (R48): in holdover, all sequencers DISABLED, 1 ms of matching input. Log 13 (DEDUCED). -/
def relockStart (b : Blk) : Blk :=
  match b.tim.matchSince with
  | some t =>
    if b.on F.TIM_STATUS_HOLDOVER ∧ b.allDisabled ∧ t + 800000 ≤ b.elapsed then relock b else b
  | none => b

/-- REF_CFG_WRITE (R49, R77, R634). -/
def refCfgWrite (v : Nat) (b : Blk) : Blk :=
  let sel := field v 0 2
  let clean := field v 5 1
  let change := decide (sel ≠ b.rd F.TIM_REF_CFG_REF_SEL ∨ clean ≠ b.rd F.TIM_REF_CFG_CLEAN_100)
  if sel = 3 ∨ (change ∧ !b.allDisabled) then b
  else
    let b := ((b.wr F.TIM_REF_CFG_REFOUT_EN (field v 6 1)).wr F.TIM_REF_CFG_CLEAN_100 clean).wr
      F.TIM_REF_CFG_REF_SEL sel
    if change then
      let b := match b.tim.meas with
        | some f => refCounted f { b with tim := { b.tim with matchSince := none } }
        | none => b
      relock b
    else b

/-! ### The counter (R46, R50, R633) -/

/-- REFP (R46). -/
def refp (b : Blk) : Nat := if b.on F.TIM_STATUS_REF_IS_10M then 80 else 8

/-- A waiting message judged against a new count (R633); one applied late keeps waiting for its instant.
Log 15 (DEDUCED). -/
def rejudge (old : Nat) (b : Blk) (e : DlEnt) : Blk :=
  match e.msg.deadline with
  | none => dlPut b e.msg (legalFrom e.msg.eff (b.now + 1))
  | some v =>
    if (legalFrom e.msg.eff (fullTick old v).toNat) = e.due then
      let r := dlJudge b { e.msg with cmd := none }
      match r.2 with
      | .due t => dlPut r.1 e.msg t
      | .gone => r.1
    else dlPut b e.msg (legalFrom e.msg.eff (b.now + 1))

/-- The count becomes `n` at this tick; tallies are carried, tagged messages judged anew (R322, R633).
Log 15 (DEDUCED). -/
def setCount (b : Blk) (n : Nat) : Blk :=
  let old := b.now
  let b := carryTallies b
  let es := b.queueOf 0 ++ b.queueOf 1 ++ b.queueOf 2
  es.foldl (rejudge old) { b with now := n, dlq := [] }

/-- COUNTER_START (R50): the first reference-aligned tick after lock; enabled ports may ramp up (R112);
pairings start anew (R367). Log 13 (DEDUCED), 62 (DEDUCED). -/
def counterStart (b : Blk) : Blk :=
  if b.tim.running ∨ !b.on F.TIM_STATUS_SCLK_LOCK then b
  else
    let was := b.tim.relocking
    let b := setCount { b with tim := { b.tim with running := true, relocking := false },
                               frn := { b.frn with pairs := [] } } 0
    let b := if was then (b.wr F.TIM_STATUS_HOLDOVER 0).publish 1018 0 b.now else b
    (List.range 48).foldl (fun b p =>
      if b.actOn F.DRV_CTRL_EN p then b.sched 0 (.portEnSet (Fin.ofNat 48 p)) else b) b

/-! ### Deadline queues (R56 to R65) -/

/-- A message judged and queued; a RUN's start request reaches its sequencer at once (R204, R206).
Log 9 (DESIGN CHOICE). -/
def dlEnter (b : Blk) (m : DlMsg) : Blk :=
  let r := dlJudge b m
  match r.2 with
  | .gone => r.1
  | .due t =>
    let b := dlPut r.1 m t
    match m.target with
    | .start q pc shot =>
      startReq b q ⟨granule t, some pc, some shot, false, none⟩
    | _ => b

/-- DEADLINE_MSG_ARRIVE (R59 to R61): a full queue holds the handshake. -/
def deadlineMsgArrive (m : DlMsg) (b : Blk) : Blk :=
  if dlCap m.isl ≤ (b.queueOf m.isl).length then { b with dlHeld := b.dlHeld ++ [m] }
  else dlEnter b m

/-- The first held message for an island. -/
def takeHeld (isl : Nat) : List DlMsg → Option (DlMsg × List DlMsg)
  | [] => none
  | m :: t => if m.isl = isl then some (m, t)
              else (takeHeld isl t).map (fun x => (x.1, m :: x.2))

/-- DEADLINE_QUEUE_ADMIT (R61). -/
def deadlineQueueAdmit (isl : Nat) (b : Blk) : Blk :=
  if dlCap isl ≤ (b.queueOf isl).length then b
  else match takeHeld isl b.dlHeld with
    | none => b
    | some (m, t) => dlEnter { b with dlHeld := t } m

/-- DEADLINE_APPLY (R58, R65): everything due in an island's queue away from frame boundaries. -/
def deadlineApply (isl : Nat) (b : Blk) : Blk :=
  let l := b.queueOf isl
  let due := l.filter (dlDue b)
  applyBatch (b.setQueue isl (l.filter (fun e => !dlDue b e))) due

/-! ### MSYNC (R66 to R72) -/

/-- The margin of R67 for an effective capture in 1/16 tick. -/
def msyncMargin (b : Blk) (c : Int) : Nat :=
  let p : Int := 16 * refp b
  let d := (c % p).toNat
  min 255 (min d (16 * refp b - d))

/-- The load tick of R68 for an effective capture in 1/16 tick. -/
def loadTick (b : Blk) (c : Int) : Int :=
  let p : Int := 16 * refp b
  (c + 256 + p - 1) / p * refp b

/-- MSYNC_LOAD (R68): at load tick L, or as soon as it is known that L has passed. Log 14 (DEDUCED). -/
def msyncLoad (b : Blk) : Blk :=
  match b.tim.loadAt with
  | none => b
  | some l =>
    if b.now < l then b
    else
      let b := { b with tim := { b.tim with loadAt := none } }
      let v := b.rd F.TIM_MSYNC_LOAD_LOAD
      if !b.allDisabled ∨ v % refp b ≠ 0 then (b.stick F.TIM_STATUS_LOAD_REFUSED).publish 1020 0 b.now
      else
        let b := setCount b v
        ((b.wr F.TIM_STATUS_ALIGNED 1).wr F.TIM_MSYNC_CAPI_LOADED 1).publish 1020 0 b.now

/-- MSYNC_EDGE (R66 to R71): a rising edge at the present tick plus `frac`/16 that stays high for `high`
ticks. Log 14 (DEDUCED). -/
def msyncEdge (frac high : Nat) (b : Blk) : Blk :=
  let b := if b.rd F.TIM_MSYNC_CTRL_OUT_MODE = 2 then
      (b.emit (.msync (b.now + 2) true)).emit (.msync (b.now + 2 + high) false)
    else b
  let arm := b.rd F.TIM_MSYNC_CTRL_ARM
  if high < 2 ∨ arm = 0 then b
  else
    let c : Int := 16 * b.now + frac - b.rdS F.TIM_MSYNC_CTRL_COMP
    let mg := msyncMargin b c
    let b := ((((b.wr F.TIM_MSYNC_CAPT_CAP_TICK b.now).wr F.TIM_MSYNC_CAPI_FRAC frac).wr
      F.TIM_MSYNC_CAPI_MARGIN mg).wr F.TIM_MSYNC_CAPI_LOADED 0).wr F.TIM_MSYNC_CAPI_VALID 1
    let b := if mg < 16 then (b.stick F.TIM_STATUS_MSYNC_MARGIN_LOW).publish 1020 0 b.now else b
    if arm = 1 then
      let l := (loadTick b c).toNat
      let b := { b.wr F.TIM_MSYNC_CTRL_ARM 0 with tim := { b.tim with loadAt := some l } }
      if b.now < l then b.schedAt l .msyncLoad else msyncLoad b
    else b

/-- MSYNC_ARM: the reserved code is ignored (R80). -/
def msyncArm (v : Nat) (b : Blk) : Blk := if v = 3 then b else b.wr F.TIM_MSYNC_CTRL_ARM v

/-- SOFT (R70). Log 14 (DEDUCED). -/
def msyncSoft (b : Blk) : Blk := b.sched 1 (.msyncEdge 0 2)

/-- MSYNC_OUT_PULSE (R71): the rise at OUT_AT, and the fall 16 ticks later, which returns OUT_MODE.
Log 14 (DEDUCED). -/
def msyncOutPulse (b : Blk) : Blk :=
  match b.tim.outFall with
  | some t =>
    if t ≤ b.elapsed then
      { (b.wr F.TIM_MSYNC_CTRL_OUT_MODE 0).emit (.msync b.now false) with
        tim := { b.tim with outFall := none } }
    else b
  | none =>
    if b.rd F.TIM_MSYNC_CTRL_OUT_MODE = 1 ∧ b.now = b.rd F.TIM_MSYNC_OUT_AT_OUT_AT then
      { (b.emit (.msync b.now true)).sched 16 .msyncOutPulse with
        tim := { b.tim with outFall := some (b.elapsed + 16) } }
    else b

/-- OUT_MODE_WRITE (R71). -/
def outModeWrite (v : Nat) (b : Blk) : Blk :=
  if v = 3 then b
  else
    let b := match v, b.tim.outFall with
      | 0, some _ => { b.emit (.msync b.now false) with tim := { b.tim with outFall := none } }
      | _, _ => b
    let late := decide (v = 1) && decide (b.rd F.TIM_MSYNC_OUT_AT_OUT_AT < b.now)
    let b := b.wr F.TIM_MSYNC_CTRL_OUT_MODE (if late then 0 else v)
    if v = 1 ∧ b.rd F.TIM_MSYNC_OUT_AT_OUT_AT = b.now then b.sched 0 .msyncOutPulse else b

def execApply (r : Region) (s : State) : Res := onBlk (fun _ => chmapApply r) s
def execChmapCheckDone (r : Region) (s : State) : Res := onBlk (fun _ => chmapCheckDone r) s
def execRefIdentified (freq : RefFreq) (s : State) : Res := onBlk (fun _ => refCounted freq) s
def execRefMismatch (s : State) : Res := onBlk (fun _ => refMismatch) s
/-- R634: REF_IN matches again; locking proceeds as after identification. -/
def execRefMatchRestored (freq : RefFreq) (s : State) : Res := onBlk (fun _ b => refCounted freq b) s
def execRefLost (s : State) : Res := onBlk (fun _ => refLost) s
def execCleanupPllLock (s : State) : Res := onBlk (fun _ => cleanupPllLock) s
def execSclkLock (s : State) : Res := onBlk (fun _ => sclkLock) s
def execCounterStart (s : State) : Res := onBlk (fun _ => counterStart) s
def execRelockStart (s : State) : Res := onBlk (fun _ => relockStart) s
def execRefCfgWrite (v : Nat) (s : State) : Res := onBlk (fun _ => refCfgWrite v) s
def execDeadlineMsgArrive (m : DlMsg) (s : State) : Res := onBlk (fun _ => deadlineMsgArrive m) s
def execDeadlineQueueAdmit (isl : Fin 3) (s : State) : Res := onBlk (fun _ => deadlineQueueAdmit isl) s
def execDeadlineApply (isl : Fin 3) (s : State) : Res := onBlk (fun _ => deadlineApply isl) s
def execMsyncEdge (frac : Fin 16) (high : Nat) (s : State) : Res := onBlk (fun _ => msyncEdge frac high) s
def execMsyncLoad (s : State) : Res := onBlk (fun _ => msyncLoad) s
def execMsyncArm (v : Fin 4) (s : State) : Res := onBlk (fun _ => msyncArm v) s
def execSoft (s : State) : Res := onBlk (fun _ => msyncSoft) s
def execOutModeWrite (v : Fin 4) (s : State) : Res := onBlk (fun _ => outModeWrite v) s
def execMsyncOutPulse (s : State) : Res := onBlk (fun _ => msyncOutPulse) s

end Sys2Proof.Machine
end

