-- ==== Sys2Proof/Machine/Hif.lean ====
section
/-!
DEFINITION. The host interface: link, doorbells, rings, command descriptors, ownership, functions
(R444 to R470).
-/

namespace Sys2Proof.Machine

def Blk.setHif (b : Blk) (x : HifSt) : Blk := { b with hif := x }

/-! ### Link and functions (R444, R445) -/

/-- Function `f` is active (R445). -/
def isActive (b : Blk) (f : Nat) : Bool :=
  f == 0 || (b.on F.HIF_FCTRL_EN f && b.hif.vfEn && decide (f ≤ b.rd F.HIF_GSTAT_NUMVF))

/-- PCIE_LINK_UP (R444): a wake that waited for the host publishes source 1016 (R580). -/
def pcieLinkUp (width speed : Nat) (b : Blk) : Blk :=
  if b.pwr.off ∨ !(width == 4 || width == 8 || width == 16) ∨ speed = 0 ∨ 5 < speed then b
  else
    let b := ((b.wr F.HIF_LINK_UP 1).wr F.HIF_LINK_WIDTH width).wr F.HIF_LINK_SPEED speed
    if b.pwr.peWake then ({ b with pwr := { b.pwr with peWake := false } }).publish 1016 0 b.now else b

/-! ### Rings (R455 to R458) -/

/-- `x - y` modulo 2³². -/
def sub32 (x y : Nat) : Nat := (x + 2 ^ 32 - y % 2 ^ 32) % 2 ^ 32

/-- DB_CMD_WRITE (R456, R470). Log 104 (DESIGN CHOICE). -/
def dbCmdWrite (f v : Nat) (b : Blk) : Blk :=
  if !b.on F.HIF_RCFG_EN f 0 then b
  else
    let c := b.rd F.DB_CMD_CONSUMED f
    let d := sub32 v c
    if d < sub32 (b.rd F.DB_CMD_PROD f) c ∨ ringSize b f 0 < d then alarmStick b F.HIF_FSTAT_RING_ERR f
    else b.wr F.DB_CMD_PROD v f

/-- DB_RING_CONS_WRITE (R456, R466): credit for a ring that the module fills. -/
def dbRingConsWrite (f k v : Nat) (b : Blk) : Blk :=
  if k = 0 ∨ !b.on F.HIF_RCFG_EN f k then b
  else if ringUsed b f k < sub32 v (ringCons b f k) then alarmStick b F.HIF_FSTAT_RING_ERR f
  else
    let b := b.wr F.DB_RING_CONS v f k
    if k = 3 then (List.range 16).foldl (fun b e => capReturn b f e (v % 2 ^ 32)) b else b

/-- RING_ARM (R458): raised at once while unreturned entries exist. Log 69 (DEDUCED). -/
def ringArm (f k : Nat) (b : Blk) : Blk :=
  if k = 0 ∨ !b.on F.HIF_RCFG_EN f k then b
  else if ringUsed b f k = 0 then b.wr F.DB_RING_ARM 1 f k
  else raiseCause (b.wr F.DB_RING_ARM 0 f k) f (k - 1)

/-- MODERATION_EXPIRE (R458). Log 37 (DESIGN CHOICE). -/
def moderationExpire (f k : Nat) (b : Blk) : Blk :=
  if k ≠ 0 ∧ b.on F.DB_RING_ARM f k then raiseCause (b.wr F.DB_RING_ARM 0 f k) f (k - 1) else b

/-- A write of HIF_RCFG (R456, R475): setting EN resets both counts. Log 69 (DEDUCED). -/
def rcfgWrite (f k v : Nat) (b : Blk) : Blk :=
  let l := field v 16 4
  let was := b.on F.HIF_RCFG_EN f k
  if l < 4 ∨ 16 < l then b
  else if was ∧ l ≠ b.rd F.HIF_RCFG_LOG2N f k then alarmStick b F.HIF_FSTAT_RING_ERR f
  else
    let b := ((b.wr F.HIF_RCFG_LOG2N l f k).wr F.HIF_RCFG_MODER (field v 0 16) f k).wr F.HIF_RCFG_EN (field v 31 1) f k
    if was ∨ !bit v 31 then b
    else if k = 0 then (b.wr F.DB_CMD_PROD 0 f).wr F.DB_CMD_CONSUMED 0 f
    else (b.wr F.DB_RING_PRODUCED 0 f k).wr F.DB_RING_CONS 0 f k

/-! ### Descriptors (R459 to R463) -/

/-- Bytes `i` to `i + n - 1` of a descriptor. -/
def Cmd.le (c : Cmd) (i n : Nat) : Nat := leNat ((c.bytes.drop i).take n)

def Cmd.opc (c : Cmd) : Nat := c.le 0 1
def Cmd.kind (c : Cmd) : Nat := c.le 36 1
def Cmd.modoff (c : Cmd) : Nat := c.le 24 8
def Cmd.length (c : Cmd) : Nat := c.le 32 4

/-- Status codes of R463. -/
abbrev stOk : Nat := 0
abbrev stFlushed : Nat := 2
abbrev stOpcode : Nat := 4
abbrev stReserved : Nat := 5
abbrev stOwner : Nat := 6
abbrev stRange : Nat := 7
abbrev stState : Nat := 8
abbrev stTarget : Nat := 10
abbrev stApply : Nat := 11
abbrev stDma : Nat := 12
abbrev stPoisoned : Nat := 13

/-- `n` one bits from bit `lo`. -/
def ones (lo n : Nat) : Nat := (2 ^ n - 1) * 2 ^ lo

/-- The bits of a descriptor that its opcode uses (R459, R460). Log 70 (DEDUCED). -/
def usedBits (op : Nat) : Nat :=
  ones 0 9 + ones 32 80 + (match op with
    | 1 => ones 128 168
    | 2 => ones 128 168
    | 3 => ones 128 108
    | 4 => ones 128 32 + ones 192 64 + ones 256 32 + ones 320 64 + ones 384 32 + ones 448 64
    | 5 => ones 128 49
    | 6 => ones 128 8 + ones 192 192
    | 7 => [128, 192, 256, 320].foldl (fun n x => n + ones x 6 + ones (x + 7) 1 + ones (x + 32) 20) 0
    | 8 => ones 128 64
    | _ => 0)

/-- No reserved bit is set, and DEADLINE is all ones in an opcode that does not read it (R459). Log 70 (DEDUCED). -/
def Cmd.clean (c : Cmd) : Bool :=
  andW 512 (leNat c.bytes) (2 ^ 512 - 1 - usedBits c.opc) == 0 &&
  (c.opc == 3 || c.opc == 4 || c.le 8 6 == 2 ^ 48 - 1)

def cmdsOf (b : Blk) (f : Nat) : List Cmd := b.hif.cmds.get [] f
def setCmds (b : Blk) (f : Nat) (l : List Cmd) : Blk := b.setHif { b.hif with cmds := b.hif.cmds.set f l }
def cmdAt (b : Blk) (f idx : Nat) : Option Cmd := (cmdsOf b f).find? (fun c => c.idx == idx)
def putCmd (b : Blk) (f : Nat) (c : Cmd) : Blk := setCmds b f ((cmdsOf b f).map (fun x => if x.idx = c.idx then c else x))

/-- The 15 bytes of a completion below its phase (R462). -/
def compBytes (c : Cmd) (st detail : Nat) : List Byte :=
  (c.bytes.drop 4).take 4 ++ leBytes 2 st ++ c.bytes.take 1 ++ leBytes 1 0 ++ leBytes 7 detail

/-- A descriptor completes; SILENT suppresses the completion of an OK (R459). -/
def finish (b : Blk) (f : Nat) (c : Cmd) (st detail : Nat) : Blk :=
  let b := setCmds b f ((cmdsOf b f).filter (fun x => x.idx ≠ c.idx))
  if bit (c.le 1 1) 0 ∧ st = stOk then b
  else b.setHif { b.hif with comps := b.hif.comps.set f (b.hif.comps.get [] f ++ [compBytes c st detail]) }

/-- The outcomes of messages and checks that descriptors wait for. Log 68 (DEDUCED). -/
def takeVerdicts (b : Blk) : Blk :=
  b.verdicts.foldl (fun b v =>
    match cmdAt b v.1 v.2.1 with
    | none => b
    | some c =>
      let st := max c.status (v.2.2 % 65536)
      let d := if 65536 ≤ v.2.2 then v.2.2 / 65536 else c.detail
      if c.left ≤ 1 then finish b v.1 c st d else putCmd b v.1 { c with left := c.left - 1, status := st, detail := d })
    { b with verdicts := [] }

/-- COMPLETION_WRITE (R456, R462). -/
def completionWrite (f : Nat) (b : Blk) : Blk :=
  match b.hif.comps.get [] f with
  | [] => b
  | x :: t => if ringRoom b f 1 then ringPut (b.setHif { b.hif with comps := b.hif.comps.set f t }) f 1 x else b

/-- A register of a converter tile. -/
def tileReg (r : Reg) : Bool := decide (0x10 ≤ regPage r) && decide (regPage r < 0x1000)

/-- The registers that the entries of a SETPARAM name. -/
def Cmd.targets (b : Blk) (c : Cmd) : List RegAt :=
  ([16, 32, 48].filter (fun i => bit (c.le i 4) 31)).filterMap (fun i => locate b (c.le i 4 % 2 ^ 31))

/-- A descriptor targets a tile register or store (R578). -/
def Cmd.tile (b : Blk) (c : Cmd) : Bool :=
  match c.opc with
  | 1 => c.kind == 1 || decide (c.modoff < captBase)
  | 2 => decide (c.modoff < captBase)
  | 3 => true
  | 4 => (c.targets b).any (fun x => tileReg x.reg)
  | 8 => true
  | _ => false

/-- LOAD or READBACK. -/
def Cmd.moves (c : Cmd) : Bool := c.opc == 1 || c.opc == 2

/-- A descriptor not started may start after those before it (R460). Log 70 (DEDUCED). -/
def mayStart (before : List Cmd) (running : Nat) (c : Cmd) : Bool :=
  !c.started && (if c.moves then before.all Cmd.moves && decide (running < 8) else before.isEmpty)

/-- The descriptors that may start, oldest first. -/
def startable (l : List Cmd) : List Cmd :=
  let running := (l.filter (fun c => c.started && c.moves)).length
  let r := l.foldl (fun (s : List Cmd × List Cmd × Nat) c =>
    if mayStart s.1 s.2.2 c then (s.1 ++ [c], s.2.1 ++ [c], s.2.2 + 1) else (s.1 ++ [c], s.2.1, s.2.2)) ([], [], running)
  r.2.1

/-- The command that starts a descriptor. -/
def startInstr (f : Nat) (c : Cmd) : Instr :=
  let g : Func := Fin.ofNat 16 f
  match c.opc with
  | 0 => .cmdNop g c.idx
  | 1 => .load g c.idx
  | 2 => .readback g c.idx
  | 3 => .run g c.idx
  | 4 => .setparam g c.idx
  | 5 => .fence g c.idx
  | 6 => .descCaptureArm g c.idx
  | 7 => .biasset g c.idx
  | _ => .stop g c.idx

/-- The host interface serves function `f`. -/
def serving (b : Blk) (f : Nat) : Bool :=
  !b.pwr.off && !islBusy b 0 && isActive b f && !b.on F.HIF_FSTAT_FLUSHING f

/-- What may start does: reserved opcodes complete at once, a descriptor that targets a tile leaves Idle first
(R460, R578). -/
def kickCmds (f : Nat) (b : Blk) : Blk :=
  if !serving b f then b
  else (startable (cmdsOf b f)).foldl (fun b c =>
    if 9 ≤ c.opc then finish b f c stOpcode 0
    else if b.rd F.GLB_PWR_STATE = 1 ∧ c.tile b then
      if b.agenda.any (fun a => decide (a.2 = .idleExit)) then b else b.sched 16000 .idleExit
    else b.sched 0 (startInstr f c)) b

/-- DESCRIPTOR_FETCH (R456, R460): stopped while the completion ring has no free entry. -/
def descriptorFetch (f : Nat) (bytes : List Byte) (b : Blk) : Blk :=
  let n := b.rd F.DB_CMD_CONSUMED f
  if !serving b f ∨ !b.on F.HIF_RCFG_EN f 0 ∨ b.rd F.DB_CMD_PROD f = n ∨ !ringRoom b f 1 ∨
      !(b.hif.comps.get [] f).isEmpty then b
  else
    let c : Cmd := ⟨n, (bytes ++ List.replicate 64 (0 : Byte)).take 64, false, 0, 0, 0⟩
    kickCmds f (setCmds (b.wr F.DB_CMD_CONSUMED (n + 1) f) f (cmdsOf b f ++ [c]))

/-- A descriptor with opcode `op` starts: `body` does its effect. -/
def startCmd (op f idx : Nat) (body : Cmd → Blk → Blk) (b : Blk) : Blk :=
  match cmdAt b f idx with
  | none => b
  | some c =>
    if !serving b f ∨ c.opc ≠ op ∨ !(startable (cmdsOf b f)).any (fun x => x.idx == idx) then b
    else
      let b := if c.clean then body { c with started := true } (putCmd b f { c with started := true })
        else finish b f c stReserved 0
      kickCmds f (takeVerdicts b)

/-! ### LOAD and READBACK (R461) -/

/-- The checks of a LOAD or READBACK of kind 0. -/
def moveRange (b : Blk) (f : Nat) (c : Cmd) : Bool :=
  let n := c.length
  n % 4 == 0 && decide (4 ≤ n) && decide (n ≤ 0x10000000) && c.le 16 8 % 4 == 0 && c.modoff % 4 == 0 &&
    oneStore b c.modoff n && ownsRange b f c.modoff n

/-- LOAD starts: refused, or waiting for its data. Log 70 (DEDUCED). -/
def loadStart (f : Nat) (c : Cmd) (b : Blk) : Blk :=
  if 2 ≤ c.kind then finish b f c stOpcode 0
  else if c.kind = 1 then
    if f ≠ 0 ∧ b.owner (48 + c.modoff % 16) ≠ f then finish b f c stOwner 0 else b
  else if !moveRange b f c then finish b f c stRange 0
  else if pgmBusy b c.modoff then finish b f c stState 0
  else b

/-- READBACK starts. Log 70 (DEDUCED). -/
def readbackStart (f : Nat) (c : Cmd) (b : Blk) : Blk :=
  if c.kind ≠ 0 then finish b f c stOpcode 0 else if !moveRange b f c then finish b f c stRange 0 else b

/-- The region that holds a transfer's data back (R551). -/
def moveHeld (b : Blk) (c : Cmd) : Option Nat :=
  if c.opc = 1 ∧ c.kind = 1 then
    if regionHeld b (c.modoff % 16 / 2) then some (c.modoff % 16 / 2) else none
  else match storeRegion c.modoff with
    | some r => if regionHeld b r then some r else none
    | none => none

/-- An access waits for a region's release. Log 106 (DESIGN CHOICE). -/
def holdAt (b : Blk) (r : Nat) (c : Instr) : Blk := b.setRegRcv r { b.regRcv r with held := (b.regRcv r).held ++ [c] }

/-- The bytes of a READBACK: 0 for each poisoned word, and for memory being swept. -/
def readbackBytes (b : Blk) (m : Mem) (a n : Nat) : List Byte :=
  if sweeping b a then List.replicate n (0 : Byte)
  else (List.range n).map (fun i => if m.poisoned (a + i) then (0 : Byte) else m.byte (a + i))

/-- The poisoned words of a range, as offsets from its first byte. -/
def poisonIn (m : Mem) (a n : Nat) : List Nat :=
  (List.range ((a + n + 7) / 8 - a / 8)).filterMap (fun i =>
    if m.poison.contains (a / 8 + i) then some (8 * (a / 8 + i) - a) else none)

/-- The host-memory side of a transfer failed (R463). Log 71 (DESIGN CHOICE). -/
def dmaFailed (b : Blk) (f : Nat) (c : Cmd) (n : Nat) : Blk := finish (alarmStick b F.HIF_FSTAT_DMA_ERR f) f c stDma n

/-- DMA_COMPLETE (R461 to R463): `data` is what a LOAD has read; of a READBACK, `data.length` bytes reached the
host when it failed. Log 6 (DESIGN CHOICE), 71 (DESIGN CHOICE). -/
def dmaComplete (f : Func) (idx : Nat) (ok : Bool) (data : List Byte) (m : Mem) (b : Blk) : Blk × Mem :=
  match cmdAt b f idx with
  | none => (b, m)
  | some c =>
    if !c.moves ∨ !c.started ∨ (c.opc = 1 ∧ c.kind = 1 ∧ (ok ∨ c.left ≠ 0)) then (b, m)
    else match moveHeld b c with
      | some r => (holdAt b r (.dmaComplete f idx ok data), m)
      | none =>
        let n := if ok then c.length else min data.length c.length
        if c.opc = 1 then
          if c.kind = 1 then (kickCmds f (dmaFailed b f c n), m)
          else
            let w := hostStore (dramHit b 0x604 c.modoff n) m c.modoff ((data ++ List.replicate (n - data.length) (0 : Byte)).take n)
            (kickCmds f (if ok then finish w.1 f c stOk n else dmaFailed w.1 f c n), w.2)
        else
          let bad := poisonIn m c.modoff n
          let b := (bad.foldl (fun b o => poisonRead b (c.modoff + o)) (dramHit b 0x603 c.modoff n)).emit (.dmaWrite (c.le 16 8) (readbackBytes b m c.modoff n))
          let b := if !ok then dmaFailed b f c n
            else match bad with
              | [] => finish b f c stOk n
              | o :: _ => finish b f c stPoisoned o
          (kickCmds f b, m)

/-- One slot's part of the 768 bytes: a reserved bit or encoding. -/
def slotBytesBad (data : List Byte) (s : Nat) : Bool :=
  let d := leNat ((data.drop (24 * s)).take 8)
  d % 4 == 3 || field d 2 6 != 0 || field d 13 3 != 0 || field d 21 11 != 0 ||
    (List.range 4).any (fun i => decide (2 ^ 12 ≤ leNat ((data.drop (24 * s + 8 + 4 * i)).take 4)))

/-- One slot's staging registers written. -/
def stageSlot (k : Nat) (data : List Byte) (b : Blk) (s : Nat) : Blk :=
  let d := leNat ((data.drop (24 * s)).take 8)
  let b := (((b.wr F.ACQ_DSLOT_MODE d k s).wr F.ACQ_DSLOT_BIN (field d 8 5) k s).wr F.ACQ_DSLOT_SHIFT
    (field d 16 5) k s).wr F.ACQ_DSLOT_FNW (field d 32 32) k s
  (List.range 4).foldl (fun b i => b.wr F.ACQ_KDESC_KLEN (leNat ((data.drop (24 * s + 8 + 4 * i)).take 4)) k (4 * s + i)) b

/-- LOAD_ACQ_CONFIG (R461): the 768 bytes have come; the LOAD waits while STATUS reads BUSY, and then for the
check. Log 71 (DESIGN CHOICE). -/
def loadAcqConfig (f : Func) (idx : Nat) (data : List Byte) (b : Blk) : Blk :=
  match cmdAt b f idx with
  | none => b
  | some c =>
    let k := c.modoff % 16
    if c.opc ≠ 1 ∨ c.kind ≠ 1 ∨ !c.started ∨ c.left ≠ 0 then b
    else match moveHeld b c with
      | some r => holdAt b r (.loadAcqConfig f idx data)
      | none =>
        if (List.range 32).any (slotBytesBad data) then kickCmds f (finish b f c stReserved 0)
        else if b.rd F.ACQ_CFG_CTRL_STATUS k = 1 then b.sched 1 (.loadAcqConfig f idx data)
        else
          let b := acqCfgApply k ((List.range 32).foldl (stageSlot k data) b)
          (putCmd b f { c with left := 1 }).setAcq k { b.acq k with cfgCmd := some (f.val, idx) }

/-! ### RUN, SETPARAM, FENCE, CAPTURE_ARM, BIASSET, STOP (R461) -/

/-- The sequencers of a SEQMASK. -/
def Cmd.seqs (c : Cmd) : List Nat := (List.range 64).filter (fun q => bit (c.le 16 8) q)

/-- The deadline of a descriptor (R56). -/
def Cmd.deadline (c : Cmd) : Option Nat := if c.le 8 6 = 2 ^ 48 - 1 then none else some (c.le 8 6)

/-- The descriptor's messages go to their deadline queues; it waits for their verdicts. -/
def sendAll (b : Blk) (f : Nat) (c : Cmd) (l : List DlMsg) : Blk :=
  if l.isEmpty then finish b f c stOk 0
  else l.foldl (fun b x => deadlineMsgArrive x b) (putCmd b f { c with left := l.length })

/-- RUN (R461): a start request to each sequencer. -/
def runStart (f : Nat) (c : Cmd) (b : Blk) : Blk :=
  if c.seqs.any (fun q => b.seqOwner q != f) then finish b f c stOwner 0
  else sendAll b f c (c.seqs.map (fun q => (⟨c.deadline, 1, f, seqTile q, .gran, some (Fin.ofNat 64 q), true,
    some (Fin.ofNat 16 f, c.idx), false, .start (Fin.ofNat 64 q) (c.le 28 2 % 4096) (c.le 24 4)⟩ : DlMsg)))

/-- A value whose write the register ignores as a whole for a reserved encoding (R12). Log 70 (DEDUCED). -/
def badCode (b : Blk) (r : Reg) (i v : Nat) : Bool :=
  match r with
  | .drvLevel => decide (61 ≤ field v 8 6)
  | .drvStream => decide ((if i < 32 then 5 else 4) ≤ v % 8)
  | .drvSctrl => decide (2 ≤ v % 4)
  | .acqCtrl => decide (13 ≤ field v 8 4)
  | .trgTcfg => field v 4 3 == 7
  | .trgGcfg =>
    let k := field v 12 3
    let q := field v 16 3
    let x := field v 0 9
    decide (5 ≤ k) || field v 20 2 == 3 || (decide (k ∈ [1, 3, 4]) && decide (q ∈ [4, 6, 7])) ||
      (decide (k ∈ [2, 3]) && decide (16 ≤ x)) || (k == 4 && decide (80 ≤ x))
  | .trgGlev => decide (toS 32 v < toS 32 (v / 2 ^ 32))
  | .dscRsel0 => (List.range 4).any (fun e => bit v (16 * e + 15) && decide (768 ≤ field v (16 * e) 10))
  | .dscRsel1 => (List.range 4).any (fun e => bit v (16 * e + 15) && decide (768 ≤ field v (16 * e) 10))
  | .hifAp => b.pwr.off
  | _ => false

/-- The writable fields of a SETPARAM target, if it is one (R461). -/
def paramTarget (b : Blk) (f off : Nat) : Option (RegAt × List FieldSpec) :=
  match locate b off with
  | none => none
  | some x =>
    let l := x.reg.fields.filter (fun y => y.acc != .ro && y.acc != .rc)
    if x.off = 0 ∧ sees b f x.reg x.i ∧ !(f != 0 && readOnlyVf x.reg) ∧ !l.isEmpty ∧
        l.all (fun y => y.eff == .tick || y.eff == .gran || y.eff == .frame) then some (x, l) else none

/-- What a tagged write of one field does. -/
def paramDo (x : RegAt) (y : FieldSpec) (v : Nat) : Option DlTarget :=
  let fv := field v y.fld.lsb y.fld.wid
  match x.reg with
  | .seqJreq => some (.branch (Fin.ofNat 64 x.i) fv)
  | .seqSreg => some (.sreg (Fin.ofNat 64 x.i) x.j fv)
  | .evfFire => some (.fire (Fin.ofNat 16 x.i) fv)
  | .drvSctrl =>
    if y.acc = .wo then if fv = 1 then some (.phrst (Fin.ofNat 48 x.i) x.j) else none
    else some (.param (y.fld.key x.i x.j) y.fld.wid fv)
  | _ => some (.param (y.fld.key x.i x.j) y.fld.wid fv)

/-- The messages of one entry, under class `cls` from `sender` (R461, R62). -/
def paramMsgs (b : Blk) (cls sender : Nat) (dl : Option Nat) (cmd : Option (Func × Nat)) (x : RegAt)
    (l : List FieldSpec) (v : Nat) : List DlMsg :=
  if badCode b x.reg x.i v then []
  else l.filterMap (fun y =>
    let k := y.fld.key x.i x.j
    match paramDo x y v with
    | none => none
    | some t =>
      let res := keyRes b k
      let eff := if y.eff = .frame ∧ res.isNone then .tick else y.eff
      some ⟨dl, cls, sender, fieldIsland b k, eff, res.map (fun r => Fin.ofNat 64 (resSeq r)), true, cmd, false, t⟩)

/-- A write of a general unit's register restarts the unit (R400). Log 73 (DEDUCED). -/
def paramHook (b : Blk) (x : RegAt) : Blk :=
  if x.reg = .trgGcfg ∨ x.reg = .trgGlev ∨ x.reg = .trgGtime then unitRestart x.i b else b

/-- SETPARAM (R461). -/
def setparamStart (f : Nat) (c : Cmd) (b : Blk) : Blk :=
  let es := [16, 32, 48].filter (fun i => bit (c.le i 4) 31)
  let ts := es.map (fun i => (paramTarget b f (c.le i 4 % 2 ^ 31), c.le (i + 8) 8))
  if ts.any (fun t => t.1.isNone) then finish b f c stTarget 0
  else
    let b := ts.foldl (fun b t => match t.1 with | some x => paramHook b x.1 | none => b) b
    sendAll b f c (ts.flatMap (fun t =>
      match t.1 with
      | some x => paramMsgs b 0 f c.deadline (some (Fin.ofNat 16 f, c.idx)) x.1 x.2 t.2
      | none => []))

/-- PARAMETER_PACKET (R514): one entry of the physical function under class HABOR_FREE. -/
def parameterPacket (p d0 d1 : Nat) (b : Blk) : Blk :=
  if b.lnkState p ≠ lnkFree ∨ !b.on F.LNK_PCFG_RXPARAM_EN p then b
  else match paramTarget b 0 (d1 % 2 ^ 24) with
    | none => b.inc F.LNK_CNT_PARAM_REF 1 p
    | some x =>
      let dl := if d0 % 2 ^ 48 = 2 ^ 48 - 1 then none else some (d0 % 2 ^ 48)
      (paramMsgs b 5 p dl none x.1 x.2 (field d1 32 32)).foldl (fun b y => deadlineMsgArrive y b) (paramHook b x.1)

/-- A record of function `f` with decision tick at or before `t` is still on its way (R461). Log 73 (DEDUCED). -/
def recordDue (b : Blk) (f : Nat) (t : Int) : Bool :=
  b.dsc.arriving.any (fun r => b.chanOwner r.chan == f && decide ((r.dtick : Int) ≤ t)) ||
  b.dsc.intake.any (fun r => b.chanOwner r.chan == f && decide ((r.dtick : Int) ≤ t)) ||
  b.dsc.buffer.any (fun e => e.1 == f && decide ((e.2.dtick : Int) ≤ t))

/-- What a FENCE waits for has come. -/
def fenceReady (b : Blk) (f : Nat) (c : Cmd) : Bool :=
  let t := fullTick b.now (c.le 16 6)
  !bit (c.le 22 1) 0 || (decide (t < (b.now : Int)) && !recordDue b f t)

/-- FENCE starts when every earlier descriptor has completed. -/
def fenceStart (f : Nat) (c : Cmd) (b : Blk) : Blk := if fenceReady b f c then finish b f c stOk 0 else b

/-- FENCE_COMPLETE (R461). -/
def fenceComplete (f idx : Nat) (b : Blk) : Blk :=
  match cmdAt b f idx with
  | some c => if c.opc = 5 ∧ c.started ∧ fenceReady b f c then kickCmds f (finish b f c stOk 0) else b
  | none => b

/-- A capture engine's registers take hold only in IDLE and STOPPED (R406); a reserved TSELK is ignored.
Log 72 (DEDUCED). -/
def capIdle (b : Blk) (e : Nat) : Bool := b.capState e == cIdle || b.capState e == cStopped

/-- TRG_CCFG, TRG_CBUF and TRG_CWIN of an engine. -/
def capRegs (b : Blk) (e cc cb cw : Nat) : Blk :=
  let put (b : Blk) (r : Reg) (v : Nat) : Blk := r.fields.foldl (fun b x => b.wr x.fld (field v x.fld.lsb x.fld.wid) e) b
  if !capIdle b e then b
  else
    let b := if 4 ≤ field cc 8 3 then b else put b .trgCcfg cc
    put (put b .trgCbuf cb) .trgCwin cw

/-- CAPTURE_ARM (R461): the check's STATUS decides. Log 70 (DEDUCED), 72 (DEDUCED). -/
def capArmStart (f : Nat) (c : Cmd) (b : Blk) : Blk :=
  let e := c.le 16 1
  if 16 ≤ e ∨ b.owner (144 + e) ≠ f then finish b f c stOwner 0
  else
    let b := captureArm e (capRegs b e (c.le 24 8) (c.le 32 8) (c.le 40 8))
    let st := b.rd F.TRG_CSTAT_STATUS e
    finish b f c (if st = 0 then stOk else stApply) st

/-- The entries of a BIASSET: channel and code. -/
def Cmd.biases (c : Cmd) : List (Nat × Nat) :=
  ([16, 24, 32, 40].filter (fun i => bit (c.le i 1) 7)).map (fun i => (c.le i 1 % 64, c.le (i + 4) 4 % 2 ^ 20))

/-- BIASSET (R460). -/
def biassetStart (f : Nat) (c : Cmd) (b : Blk) : Blk :=
  if c.biases.any (fun x => b.owner (80 + x.1) != f) then finish b f c stOwner 0
  else finish (c.biases.foldl (fun b x => biaCodeWrite x.1 x.2 b) b) f c stOk 0

/-- The soft stops that a STOP named have completed. -/
def stopDone (b : Blk) (c : Cmd) : Bool :=
  c.seqs.all (fun q => b.seqState q != sStopping && (b.seqState q != sRunning || (b.seq q).stopAt.isNone))

/-- STOP (R461). -/
def stopStart (f : Nat) (c : Cmd) (b : Blk) : Blk :=
  if c.seqs.any (fun q => b.seqOwner q != f) then finish b f c stOwner 0
  else
    let b := c.seqs.foldl (fun b q => seqCmdStop q b) b
    if stopDone b c then finish b f c stOk 0 else b

/-! ### Ownership (R451 to R453) -/

/-- The stores of a resource: first byte and size. -/
def resStores (b : Blk) (r : Nat) : List (Nat × Nat) :=
  if r < 48 then [(pgmBase (portSeq r), 0x8000)]
  else if r < 64 then [(kernBase (r - 48), 0x100000), (pgmBase (acqSeq (r - 48)), 0x8000)]
  else if r < 80 then [(odrPmem (r - 64), 0x40000), (odrDmem (r - 64), 0x100000)]
  else if r < 144 then []
  else if r < 160 then
    [(captBase + 4096 * b.rd F.TRG_CBUF_BASE (r - 144), 4096 * b.rd F.TRG_CBUF_NPAGE (r - 144))]
  else [(0x40000 * (r - 160), 0x40000)]

/-- The Moraine sweep of a resource's memory. Log 77 (DESIGN CHOICE). -/
def resSweep (b : Blk) (m : Mem) (r : Nat) : Mem := (resStores b r).foldl (fun m x => m.sweep x.1 x.2) m

/-- A resource is idle (R452). -/
def resIdle (b : Blk) (r : Nat) : Bool :=
  if r < 48 then b.seqState (portSeq r) == sDisabled && (b.ostate r == oMuted || b.ostate r == oHard)
  else if r < 64 then b.seqState (acqSeq (r - 48)) == sDisabled && !anyWindow b (r - 48)
  else if r < 80 then b.coreState (r - 64) == cHalted || b.coreState (r - 64) == cFaulted
  else if r < 144 then true
  else if r < 160 then capIdle b (r - 144)
  else b.regionIdle ((r - 160) / 8)

/-- The resource of a register, 1000 where it has none. -/
def regRes (b : Blk) (x : RegAt) : Nat :=
  match keyRes b ⟨x.reg, x.i, x.j, 0⟩ with
  | some r => r
  | none => if odrReg x.reg then 64 + x.i else 1000

/-- A descriptor in progress targets resource `r` (R452). -/
def cmdTargets (b : Blk) (r : Nat) (c : Cmd) : Bool :=
  match c.opc with
  | 1 => if c.kind = 1 then r == 48 + c.modoff % 16
         else (resStores b r).any (fun x => decide (c.modoff < x.1 + x.2) && decide (x.1 < c.modoff + c.length))
  | 2 => (resStores b r).any (fun x => decide (c.modoff < x.1 + x.2) && decide (x.1 < c.modoff + c.length))
  | 3 => decide (r < 64) && c.seqs.contains (resSeq r)
  | 4 => (c.targets b).any (fun x => regRes b x == r)
  | 6 => r == 144 + c.le 16 1
  | 7 => c.biases.any (fun x => r == 80 + x.1)
  | 8 => decide (r < 64) && c.seqs.contains (resSeq r)
  | _ => false

def resTargeted (b : Blk) (r : Nat) : Bool := b.hif.cmds.any (fun e => e.2.any (cmdTargets b r))

/-- The resource that event source `s` belongs to, 1000 where it is none (R420, R424). -/
def srcRes (b : Blk) (s : Nat) : Nat :=
  if s < 512 then 48 + (slotOfChan b s).1
  else if s < 768 then seqRes ((s - 512) / 4)
  else if 928 ≤ s ∧ s ≤ 943 then 64 + (s - 928)
  else 1000

/-- The DRV or PRB fields of a port return to reset; a mute for a cause stays. Log 76 (DEDUCED). -/
def resetDac (b : Blk) (p : Nat) : Blk :=
  let x := b.port p
  let st := F.DRV_STATUS_OSTATE.key p 0
  let b := b.clearRegs (fun k => drvReg k.reg && k.i == p && !(k == st && x.mute.isSome))
  b.setPort p { PortSt.reset with mute := x.mute, muteAt := x.muteAt, enSeen := x.enSeen, hist := x.hist, energy := x.energy }

/-- The fields of GOV's entry for a port that its owner may write, and its panic level (R338, R500).
Log 76 (DEDUCED). -/
def resetLevels (b : Blk) (p : Nat) : Blk :=
  let b := [F.GOV_BUDS_BUD, F.GOV_BUDL_BUD, F.GOV_LCFG_ACT, F.GOV_LCFG_SCALE_MIN, F.GOV_LCFG_PCOH].foldl
    (fun b x => b.wr x (resetOf b.is32 (x.key p 0)) p) b
  b.wr F.MEM_PANIC_LEVEL 16384 p

/-- The ACQ fields of a port return to reset (R139); open windows run on. Log 76 (DEDUCED). -/
def resetAdc (b : Blk) (k : Nat) : Blk :=
  let b := b.clearRegs (fun x => acqReg x.reg && x.i == k)
  let a := b.acq k
  acqEnSet k (b.setAcq k { a with gainEnd := none, cfgStage := [], cfgPend := none, klen := [], cfgCmd := none, coef := none })

/-- The reflex registers of a sequencer and the registers of a channel (R195). Log 76 (DEDUCED). -/
def resetReflex (b : Blk) (q : Nat) : Blk :=
  b.clearRegs (fun k => (k.reg == .dscRsel0 || k.reg == .dscRsel1 || k.reg == .dscRtab) && k.i == q)

/-- Log 76 (DEDUCED). -/
def resetChans (b : Blk) (k : Nat) : Blk := b.clearRegs (fun x => dscReg x.reg && (slotOfChan b x.i).1 == k)

/-- The tone triggers of an acquisition port's channels. -/
def resetTones (b : Blk) (k : Nat) : Blk :=
  let mine (q : Nat) : Bool := (slotOfChan b q).1 == k
  let b := b.clearRegs (fun x => (x.reg == .trgTcfg || x.reg == .trgTlev || x.reg == .trgTstat || x.reg == .trgTcnt) && mine x.i)
  { b with trg := { b.trg with tones := b.trg.tones.filter (fun e => !mine e.1) } }

/-- The fields of a resource's registers return to reset when its owner changes (R452). -/
def resReset (b : Blk) (r : Nat) : Blk :=
  if r < 48 then resetReflex (resetLevels (resetDac (resetSeq b (portSeq r)) r) r) (portSeq r)
  else if r < 64 then
    resetReflex (resetTones (resetChans (resetAdc (resetSeq b (acqSeq (r - 48))) (r - 48)) (r - 48)) (r - 48)) (acqSeq (r - 48))
  else if r < 80 then resetCore (r - 64) b
  else if 144 ≤ r ∧ r < 160 then resetCapture (r - 144) b
  else b

/-- HIF_OWN_WRITE (R427, R452). -/
def hifOwnWrite (w v : Nat) (m : Mem) (b : Blk) : Blk × Mem :=
  let ch := (List.range 16).filter (fun j => b.owner (16 * w + j) != field v (4 * j) 4)
  match ch.find? (fun j => !resIdle b (16 * w + j) || resTargeted b (16 * w + j)) with
  | some j => ((b.stick F.HIF_GSTAT_OWN_REFUSED).wr F.HIF_GSTAT_OWN_IDX (16 * w + j), m)
  | none => ch.foldl (fun s j =>
      let r := 16 * w + j
      let m := resSweep s.1 s.2 r
      let b := resetMaps (resReset s.1 r) (fun x => srcRes s.1 x == r)
      (b.wr ⟨.hifOwn, 4 * j, 4⟩ (field v (4 * j) 4) w, m)) (b, m)

/-- `[a, a + n)` without `[c, c + k)`. -/
def rangeMinus (a n c k : Nat) : List (Nat × Nat) :=
  if k = 0 then [(a, n)]
  else ([(a, min (a + n) c - a), (max a (c + k), a + n - max a (c + k))]).filter (fun x => decide (x.2 ≠ 0))

/-- A function's partition overlaps that of another function (R453). -/
def partOverlaps (b : Blk) (bs sz : Fld) (f base size : Nat) : Bool :=
  (List.range 16).any (fun g => g != f && decide (size ≠ 0) && decide (b.rd sz g ≠ 0) &&
    decide (base < b.rd bs g + b.rd sz g) && decide (b.rd bs g < base + size))

/-- PARTITION_WRITE (R453). Log 74 (DEDUCED). -/
def partitionWrite (dram : Bool) (f v : Nat) (m : Mem) (b : Blk) : Blk × Mem :=
  let bs := if dram then F.HIF_DPART_BASE else F.HIF_SPART_BASE
  let sz := if dram then F.HIF_DPART_SIZE else F.HIF_SPART_SIZE
  let base := field v 0 bs.wid
  let size := field v 32 16
  let all := if dram then dramSize b.is32 / 0x4000000 else 192
  if all < base + size ∨ partOverlaps b bs sz f base size then (b.stick F.HIF_GSTAT_OWN_REFUSED, m)
  else if f ≠ 0 ∧ isActive b f then (b, m)
  else
    let gone := rangeMinus (b.rd bs f) (b.rd sz f) base size
    let b := (b.wr bs base f).wr sz size f
    gone.foldl (fun s x =>
      if dram then
        if s.1.on F.MEM_DSTAT_DRAM_READY then dramSweep s.1 s.2 f (0x4000000 * x.1) (0x4000000 * x.2) else s
      else (s.1, s.2.sweep (scratchBase + 0x10000 * x.1) (0x10000 * x.2))) (b, m)

/-! ### Disabling and resetting a function (R468, R469) -/

/-- Function `f`'s running sequencers soft-stop. -/
def stopAll (b : Blk) (f : Nat) : Blk :=
  (List.range 64).foldl (fun b q => if b.seqOwner q = f ∧ b.seqState q = sRunning then stopAtTick b q b.now else b) b

/-- The flush of a function begins: what was fetched completes FLUSHED, what runs soft-stops. -/
def flushBegin (b : Blk) (f : Nat) : Blk :=
  let b := (cmdsOf b f).foldl (fun b c => finish b f c stFlushed 0) b
  let b := (List.range 16).foldl (fun b k =>
    match (b.acq k).cfgCmd with
    | some (g, _) => if g = f then b.setAcq k { b.acq k with cfgCmd := none } else b
    | none => b) b
  stopAll (b.wr F.HIF_FSTAT_FLUSHING 1 f) f

/-- FUNCTION_DISABLE (R468): EN of `f` cleared, or with `vf` VF Enable, which disables every virtual function. -/
def functionDisable (f : Nat) (vf : Bool) (b : Blk) : Blk :=
  if vf then
    let l := (List.range 16).filter (fun g => g != 0 && isActive b g)
    l.foldl flushBegin (b.setHif { b.hif with vfEn := false })
  else if f = 0 then b
  else
    let was := isActive b f
    let b := b.wr F.HIF_FCTRL_EN 0 f
    if was then flushBegin b f else b

/-- Everything due of function `f` is written as far as its rings have room, and its stops and windows are
over. -/
def flushDone (b : Blk) (f : Nat) : Bool :=
  (List.range 64).all (fun q => b.seqOwner q != f || (b.seqState q != sRunning && b.seqState q != sStopping)) &&
  (List.range 16).all (fun k => b.owner (48 + k) != f || !anyWindow b k) &&
  ((b.hif.comps.get [] f).isEmpty || !ringRoom b f 1) &&
  (!b.dsc.buffer.any (fun e => e.1 == f) || !ringRoom b f 2) &&
  (!(List.range 16).any (fun e => b.owner (144 + e) == f && !(b.cap e).waiting.isEmpty) || !ringRoom b f 3) &&
  (!b.evf.logbuf.any (fun e => e.1 == f) || !ringRoom b f 4)

/-- FLUSH_COMPLETE (R468). -/
def flushComplete (f : Nat) (b : Blk) : Blk :=
  if b.on F.HIF_FSTAT_FLUSHING f ∧ flushDone b f then raiseCause (b.wr F.HIF_FSTAT_FLUSHING 0 f) f 6 else b

/-- FUNCTION_ENABLE (R445, R468): EN of `f` set, or VF Enable with NumVFs. -/
def functionEnable (f : Nat) (numVfs : Option (Fin 16)) (b : Blk) : Blk :=
  match numVfs with
  | some n => (b.setHif { b.hif with vfEn := true }).wr F.HIF_GSTAT_NUMVF n
  | none => b.wr F.HIF_FCTRL_EN 1 f

/-- The function's descriptors, rings, records and interrupts (R193, R433, R469). Log 75 (DEDUCED). -/
def flrHost (b : Blk) (f : Nat) : Blk :=
  let b := b.inc F.HIF_FSTAT_DISCARDS (cmdsOf b f).length f
  let b := b.setHif { b.hif with cmds := b.hif.cmds.erase f, comps := b.hif.comps.erase f }
  let b := b.wr F.HIF_FSTAT_FLUSHING 0 f
  let b := b.clearRegs (fun k => k.i == f && (k.reg == .hifIrqmap || k.reg == .hifRbase || k.reg == .hifRcfg ||
    k.reg == .dbCmd || k.reg == .dbRing || k.reg == .msixPba || k.reg == .msixTable || k == F.HIF_FCTRL_SUMMARY_EN.key f 0))
  let keep (r : Rec) : Bool := b.chanOwner r.chan != f
  let b := { b with
    agenda := b.agenda.filter (fun e => match e.2 with | .moderationExpire g _ => g.val != f | _ => true)
    dsc := { b.dsc with
      buffer := b.dsc.buffer.filter (fun e => e.1 != f)
      arriving := b.dsc.arriving.filter keep
      intake := b.dsc.intake.filter keep
      marker := b.dsc.marker.erase f }
    evf := { b.evf with logbuf := b.evf.logbuf.filter (fun e => e.1 != f) } }
  (b.wr F.DSC_COLQ_FILL 0 f).wr F.EVF_LOGQ_FILL 0 f

/-- A channel is owned by `f` or by one of its cores (R427). -/
def chanOfFunc (b : Blk) (f c : Nat) : Bool := b.rd F.EVF_CHCFG_OKIND c != 2 && chFunc b c == f

/-- The fabric's part (R427, R443). Log 75 (DEDUCED). -/
def flrFabric (b : Blk) (f : Nat) : Blk :=
  let b := (List.range 256).foldl (fun b c =>
    if chanOfFunc b f c then (b.wr F.EVF_CHCFG_EN 0 c).commit (F.EVF_CHCFG_EN.key c 0) else b) b
  let b := resetMaps b (fun s => srcOwner b s == f)
  let mine (k : Key) : Bool := b.rd F.CNT_CFG_OWNER k.i == f
  b.clearRegs (fun k => (k.reg == .evfFstat && k.i == f) ||
    (k.reg == .cntCfg && k.lsb != F.CNT_CFG_OWNER.lsb && mine k) || (k.reg == .cntVal && mine k))

/-- A DAC port ramps down, its sequencer stops; the reset of both follows (R116, R233). -/
def flrPort (b : Blk) (p : Nat) : Blk :=
  let b := (b.wr F.DRV_CTRL_EN 0 p).commit (F.DRV_CTRL_EN.key p 0)
  let b := b.schedAt (granule (b.now + 1)) (.portEnClear (Fin.ofNat 48 p))
  let b := b.setHif { b.hif with flr := b.hif.flr ++ [p, 64 + p] }
  resetReflex (resetLevels b p) (portSeq p)

/-- An acquisition port's part (R139, R195, R233). -/
def flrAcq (b : Blk) (k : Nat) : Blk :=
  let b := b.setHif { b.hif with flr := b.hif.flr ++ [48 + k] }
  resetReflex (resetChans (resetAdc b k) k) (acqSeq k)

/-- What has waited for a soft stop or a ramp is reset (R116, R233). -/
def flrTick (b : Blk) : Blk :=
  b.hif.flr.foldl (fun b x =>
    if x < 64 then
      let st := b.seqState (resSeq x)
      if st = sRunning ∨ st = sStopping then b
      else (resetSeq b (resSeq x)).setHif { b.hif with flr := b.hif.flr.filter (· ≠ x) }
    else if b.ostate (x - 64) = oMuted ∨ b.ostate (x - 64) = oHard then
      (resetDac b (x - 64)).setHif { b.hif with flr := b.hif.flr.filter (· ≠ x) }
    else b) b

/-- The resources of function `f`. -/
def resOfFunc (b : Blk) (f : Nat) : List Nat := (List.range 224).filter (fun r => b.owner r == f)

/-- Its resources' part. -/
def flrRes (b : Blk) (r : Nat) : Blk :=
  if r < 48 then flrPort b r
  else if r < 64 then flrAcq b (r - 48)
  else if r < 80 then resetCore (r - 64) b
  else if r < 144 then
    [F.BIA_STAT_WEAR_OUT, F.BIA_STAT_CLR_DROP, F.BIA_STAT_SENSE_OPEN, F.BIA_STAT_PRESET_FAIL].foldl
      (fun b x => b.wr x 0 (r - 80)) b
  else if r < 160 then resetCapture (r - 144) b
  else b

/-- The customer control stores and the NET rings, for function 0 (R252, R519). -/
def flrPf (b : Blk) : Blk :=
  let b := b.clearRegs (fun k => (k.reg == .ucsWord && decide (6144 ≤ k.j)) || (k.reg == .ucsDisp && decide (64 ≤ k.j)) ||
    k == F.UCS_STATUS_VERIFIED.key k.i 0 || k == F.UCS_STATUS_LOCKED.key k.i 0 || k == F.UCS_CTRL_LOCK.key k.i 0)
  (b.wr F.NET_TXQ_EN 0).wr F.NET_RXQ_EN 0

/-- The Moraine sweep of all that `f` owns (R469, R488). -/
def flrSweep (f : Nat) (s : Blk × Mem) : Blk × Mem :=
  let b := s.1
  let m := (resOfFunc b f).foldl (resSweep b) s.2
  let m := m.sweep (scratchBase + 0x10000 * b.rd F.HIF_SPART_BASE f) (0x10000 * b.rd F.HIF_SPART_SIZE f)
  if b.on F.MEM_DSTAT_DRAM_READY ∧ b.rd F.HIF_DPART_SIZE f ≠ 0 then
    dramSweep (b.wr F.HIF_FSTAT_SWEEP 1 f) m f (0x4000000 * b.rd F.HIF_DPART_BASE f) (0x4000000 * b.rd F.HIF_DPART_SIZE f)
  else (b, m)

/-- The lowest region held in which `f` owns a sequencer (R565). Log 75 (DEDUCED). -/
def flrHeld (b : Blk) (f : Nat) : Option Nat :=
  (List.range 8).find? (fun r => regionHeld b r && (regionSeqs r).any (fun q => b.seqOwner q == f))

/-- FUNCTION_LEVEL_RESET (R469, R565, R580): applied at release where a region of `f`'s recovers; out of Idle
first where `f` owns tile resources. Log 75 (DEDUCED). -/
def functionLevelReset (f : Func) (m : Mem) (b : Blk) : Blk × Mem :=
  match flrHeld b f with
  | some r => (holdAt b r (.functionLevelReset f), m)
  | none =>
    if b.rd F.GLB_PWR_STATE = 1 ∧ (resOfFunc b f).any (fun r => decide (r < 80) || decide (160 ≤ r)) then
      let b := { b with rcv := { b.rcv with held := b.rcv.held ++ [.functionLevelReset f] } }
      (if b.agenda.any (fun a => decide (a.2 = .idleExit)) then b else b.sched 16000 .idleExit, m)
    else
      let s := flrSweep f (b, m)
      let b := stopAll (flrFabric (flrHost s.1 f) f) f
      let b := (resOfFunc b f).foldl flrRes b
      (flrTick (if f.val = 0 then flrPf b else b), s.2)

/-! ### What the interface does in a tick -/

/-- Stops and fences that are over, descriptors that may start, completions, a flush. -/
def hifFunc (b : Blk) (f : Nat) : Blk :=
  let b := (cmdsOf b f).foldl (fun b c =>
    if !c.started then b
    else if c.opc = 8 ∧ stopDone b c then finish b f c stOk 0
    else if c.opc = 5 ∧ fenceReady b f c then b.sched 0 (.fenceComplete (Fin.ofNat 16 f) c.idx)
    else b) b
  let b := kickCmds f b
  let b := if (b.hif.comps.get [] f).isEmpty ∨ !ringRoom b f 1 then b else b.sched 0 (.completionWrite (Fin.ofNat 16 f))
  if b.on F.HIF_FSTAT_FLUSHING f ∧ flushDone b f then b.sched 0 (.flushComplete (Fin.ofNat 16 f)) else b

def hifTick (b : Blk) : Blk :=
  let b := flrTick (takeVerdicts b)
  if b.pwr.off ∨ islBusy b 0 then b else (List.range 16).foldl hifFunc b

def execPcieLinkUp (width speed : Nat) (s : State) : Res := onBlk (fun _ => pcieLinkUp width speed) s
def execDbCmdWrite (f : Func) (v : Nat) (s : State) : Res := onBlk (fun _ => dbCmdWrite f v) s
def execDbRingConsWrite (f : Func) (k : Fin 6) (v : Nat) (s : State) : Res := onBlk (fun _ => dbRingConsWrite f k v) s
def execRingArm (f : Func) (k : Fin 6) (s : State) : Res := onBlk (fun _ => ringArm f k) s
def execModerationExpire (f : Func) (k : Fin 6) (s : State) : Res := onBlk (fun _ => moderationExpire f k) s
def execRingEnable (f : Func) (k : Fin 6) (v : Nat) (s : State) : Res := onBlk (fun _ => rcfgWrite f k v) s
def execDescriptorFetch (f : Func) (bytes : List Byte) (s : State) : Res := onBlk (fun _ => descriptorFetch f bytes) s
def execCmdNop (f : Func) (idx : Nat) (s : State) : Res :=
  onBlk (fun _ => startCmd 0 f idx (fun c b => finish b f c stOk 0)) s
def execLoad (f : Func) (idx : Nat) (s : State) : Res := onBlk (fun _ => startCmd 1 f idx (loadStart f)) s
def execLoadAcqConfig (f : Func) (idx : Nat) (data : List Byte) (s : State) : Res :=
  onBlk (fun _ => loadAcqConfig f idx data) s
def execReadback (f : Func) (idx : Nat) (s : State) : Res := onBlk (fun _ => startCmd 2 f idx (readbackStart f)) s
def execRun (f : Func) (idx : Nat) (s : State) : Res := onBlk (fun _ => startCmd 3 f idx (runStart f)) s
def execSetparam (f : Func) (idx : Nat) (s : State) : Res := onBlk (fun _ => startCmd 4 f idx (setparamStart f)) s
def execFence (f : Func) (idx : Nat) (s : State) : Res := onBlk (fun _ => startCmd 5 f idx (fenceStart f)) s
def execFenceComplete (f : Func) (idx : Nat) (s : State) : Res := onBlk (fun _ => fenceComplete f idx) s
def execDescCaptureArm (f : Func) (idx : Nat) (s : State) : Res := onBlk (fun _ => startCmd 6 f idx (capArmStart f)) s
def execBiasset (f : Func) (idx : Nat) (s : State) : Res := onBlk (fun _ => startCmd 7 f idx (biassetStart f)) s
def execStop (f : Func) (idx : Nat) (s : State) : Res := onBlk (fun _ => startCmd 8 f idx (stopStart f)) s
def execCompletionWrite (f : Func) (s : State) : Res := onBlk (fun _ => completionWrite f) s
def execHifOwnWrite (w : Fin 14) (v : Nat) (s : State) : Res := onBoth (hifOwnWrite w v) s
def execPartitionWrite (dram : Bool) (f : Func) (v : Nat) (s : State) : Res := onBoth (partitionWrite dram f v) s
def execFunctionDisable (f : Func) (vf : Bool) (s : State) : Res := onBlk (fun _ => functionDisable f vf) s
def execFlushComplete (f : Func) (s : State) : Res := onBlk (fun _ => flushComplete f) s
def execFunctionEnable (f : Func) (numVfs : Option (Fin 16)) (s : State) : Res := onBlk (fun _ => functionEnable f numVfs) s
def execFunctionLevelReset (f : Func) (s : State) : Res := onBoth (functionLevelReset f) s
def execParameterPacket (p : HabPort) (d0 d1 : Nat) (s : State) : Res := onBlk (fun _ => parameterPacket p d0 d1) s
def execDmaComplete (f : Func) (idx : Nat) (ok : Bool) (data : List Byte) (s : State) : Res :=
  onBoth (dmaComplete f idx ok data) s

end Sys2Proof.Machine
end

