-- ==== Sys2Proof/Machine/Bus.lean ====
section
/-!
DEFINITION. Accesses from the host: a register's own behaviour when it is written (R7, R9, R12 and each owning
table), what a read returns, the handling of a request by width (R597 to R603), a virtual function's view
(R449), the doorbell page (R476), BAR2 (R448, R450) and the SMBus block read (R388).
-/

namespace Sys2Proof.Machine

/-! ### One register, written

Each meaning below takes function `f`, the register's indices, `mask` (the bits that the write covers) and
`w`, the word the write makes of the register: RW fields not covered as they were, others 0 (R598). -/

/-- The write covers part of a field. -/
def covers (mask : Nat) (x : Fld) : Bool := field mask x.lsb x.wid != 0

/-- The field of a word. -/
def Fld.of (x : Fld) (w : Nat) : Nat := field w x.lsb x.wid

/-- The fields of a register but for those in `skip`, under their Access and Effect codes. -/
def otherFields (skip : List Fld) (f : Nat) (r : Reg) (i j mask w : Nat) (b : Blk) : Blk :=
  (r.fields.filter (fun x => !skip.contains x.fld)).foldl (fieldWrite f i j mask w) b

/-- `act` where the write holds 1 in a command bit. -/
def onBit (x : Fld) (w : Nat) (act : Blk → Blk) (b : Blk) : Blk := if x.of w = 1 then act b else b

/-- Every field of the register set from a word. -/
def storeWord (r : Reg) (i j w : Nat) (b : Blk) : Blk := r.fields.foldl (fun b x => b.wr x.fld (x.fld.of w) i j) b

/-- GLB_PWR (R577, R586). Log 81 (DEDUCED). -/
def wGlbPwr (f mask w : Nat) (b : Blk) : Blk :=
  let req := F.GLB_PWR_REQ.of w
  let st := b.rd F.GLB_PWR_STATE
  if req = 3 then b
  else if ((req = 1 ∧ st = 0) ∨ (req = 2 ∧ st ≠ 2)) ∧ !quiet b then b.stick F.GLB_PWR_REFUSED
  else
    let b := otherFields [F.GLB_PWR_REQ] f .glbPwr 0 0 mask w b
    match req with
    | 0 => reqActive (b.wr F.GLB_PWR_REQ 0)
    | 1 => reqIdle b
    | _ => reqHibernate b

/-- The block resets by KIND and INDEX, `none` where the write is refused (R575). -/
def brstOf (b : Blk) (kind i : Nat) : Option (Blk → Blk) :=
  match kind with
  | 0 => if i < 32 then some (resetPort i) else none
  | 1 => if i < 16 then some (resetPort (32 + i)) else none
  | 2 => if i < 16 then some (resetAcq i) else none
  | 3 => if i < 16 then some (resetCore i) else none
  | 4 => if i < 16 then some (resetCapture i) else none
  | 5 => if i < 8 ∧ b.regionIdle i then some (resetDsc i) else none
  | 6 => if i < 4 then some (resetHabor i) else none
  | 7 => if i < 1 then some resetNet else none
  | _ => none

/-- GLB_BRST (R575). Log 84 (DEDUCED). -/
def wGlbBrst (w : Nat) (b : Blk) : Blk :=
  if b.on F.GLB_BRST_BUSY then b
  else
    let b := if F.GLB_BRST_REFUSED.of w = 1 then b.wr F.GLB_BRST_REFUSED 0 else b
    let kind := F.GLB_BRST_KIND.of w
    let i := F.GLB_BRST_INDEX.of w
    match brstOf b kind i with
    | some g => brst kind i g b
    | none => b.stick F.GLB_BRST_REFUSED

/-- GLB_LC (R583, R586): CONFIRM 0 is no attempt. Log 88 (DESIGN CHOICE). -/
def wGlbLc (f mask w : Nat) (b : Blk) : Blk :=
  let b := otherFields [] f .glbLc 0 0 mask w b
  if F.GLB_LC_CONFIRM.of w = 0 then b else lcTransition (F.GLB_LC_TARGET.of w) (F.GLB_LC_CONFIRM.of w) b

/-- TIM_MSYNC_CTRL (R80). -/
def wMsyncCtrl (mask w : Nat) (b : Blk) : Blk :=
  let arm := F.TIM_MSYNC_CTRL_ARM.of w
  let om := F.TIM_MSYNC_CTRL_OUT_MODE.of w
  if arm = 3 ∨ om = 3 then b
  else
    let b := b.wr F.TIM_MSYNC_CTRL_COMP (F.TIM_MSYNC_CTRL_COMP.of w)
    if covers mask F.TIM_MSYNC_CTRL_ARM then
      onBit F.TIM_MSYNC_CTRL_SOFT w msyncSoft (outModeWrite om (msyncArm arm b))
    else b

/-- TIM_DL_POLICY (R63, R82). -/
def wDlPolicy (w : Nat) (b : Blk) : Blk :=
  if (List.range 6).any (fun c => field w (2 * c) 2 == 3) then b else storeWord .timDlPolicy 0 0 w b

/-- HIF_FCTRL (R445, R468, R474). -/
def wFctrl (i mask w : Nat) (b : Blk) : Blk :=
  if !covers mask F.HIF_FCTRL_EN then b
  else
    let b := b.wr F.HIF_FCTRL_SUMMARY_EN (F.HIF_FCTRL_SUMMARY_EN.of w) i
    let en := F.HIF_FCTRL_EN.of w
    if i = 0 ∨ en = b.rd F.HIF_FCTRL_EN i then b
    else if en = 1 then functionEnable i none b else functionDisable i false b

/-- HIF_RBASE (R475). Log 69 (DEDUCED). -/
def wRbase (i j w : Nat) (b : Blk) : Blk :=
  if b.on F.HIF_RCFG_EN i j then alarmStick b F.HIF_FSTAT_RING_ERR i else storeWord .hifRbase i j w b

/-- EVF_FIRE (R426): the write has reached the timing island, and the fire is born in this tick. -/
def wFire (i w : Nat) (b : Blk) : Blk :=
  let c := F.EVF_FIRE_CH.of w
  b.sched 0 (.evfFire (Fin.ofNat 16 i) (Fin.ofNat 256 c))

/-- CNT_CTRL (R439). -/
def wCntCtrl (f mask w : Nat) (b : Blk) : Blk :=
  let p := F.CNT_CTRL_PERIOD.of w
  if p < 800 ∨ 800000000 < p then b
  else
    let b := (b.wr F.CNT_CTRL_PERIOD p).wr F.CNT_CTRL_DUMP_EN (F.CNT_CTRL_DUMP_EN.of w)
    if covers mask F.CNT_CTRL_SNAP ∧ F.CNT_CTRL_SNAP.of w = 1 then
      deadlineMsgArrive ⟨none, 6, f, 2, .tick, none, false, none, false, .snap⟩ b
    else b

/-- MEM_DDLY (R489, R499). -/
def wDdly (i w : Nat) (b : Blk) : Blk :=
  if b.on F.MEM_DCTRL_TRAINED then b.stick F.MEM_DSTAT_DLY_REFUSED
  else
    let r := F.MEM_DDLY_RD_DLY.of w
    let x := F.MEM_DDLY_WR_DLY.of w
    (((b.wr F.MEM_DDLY_RD_DLY r i).wr F.MEM_DDLY_WR_DLY x i).wr F.MEM_DDLY_RD_ACT r i).wr F.MEM_DDLY_WR_ACT x i

/-- LNK_PCFG (R503, R528): a change of another field while EN is 1 is ignored. -/
def wLnkPcfg (i w : Nat) (b : Blk) : Blk :=
  let was := b.rd F.LNK_PCFG_EN i
  let en := F.LNK_PCFG_EN.of w
  let same := [F.LNK_PCFG_LT, F.LNK_PCFG_FOM_MIN, F.LNK_PCFG_RXPARAM_EN, F.LNK_PCFG_RAWPAT, F.LNK_PCFG_MODE].all
    (fun x => x.of w == b.rd x i)
  if F.LNK_PCFG_MODE.of w = 3 ∨ (was = 1 ∧ !same) then b
  else
    let b := storeWord .lnkPcfg i 0 w b
    if was = 0 ∧ en = 1 then haborPortEnable i b
    else if was = 1 ∧ en = 0 then haborPortDisable i b else b

/-- NET_CFG (R517, R529). -/
def wNetCfg (w : Nat) (b : Blk) : Blk :=
  let fec := F.NET_CFG_FEC.of w
  let sp := F.NET_CFG_SPEED.of w
  let was := b.rd F.NET_CFG_EN
  if 2 ≤ fec ∨ (fec = 1 ∧ sp = 0) ∨ (was = 1 ∧ (fec ≠ b.rd F.NET_CFG_FEC ∨ sp ≠ b.rd F.NET_CFG_SPEED)) then b
  else
    let b := storeWord .netCfg 0 0 w b
    if was = 1 ∧ F.NET_CFG_EN.of w = 0 then netLinkChange false b else b

/-- NET_TXQ and NET_RXQ (R519): setting EN starts the walk at entry 0. Log 99 (DEDUCED). -/
def wNetQueue (tx : Bool) (w : Nat) (b : Blk) : Blk :=
  let r : Reg := if tx then .netTxq else .netRxq
  let was := b.rd ⟨r, 0, 1⟩
  let b := storeWord r 0 0 w b
  if was = 0 ∧ w % 2 = 1 then
    if tx then b.setNet { b.net with tx := ⟨0, false⟩ } else b.setNet { b.net with rx := ⟨0, false⟩ }
  else b

/-- GOV_CEILS, GOV_CEILL, GOV_ALLOT and other fields that LOCK makes read-only (R330). -/
def wLocked (r : Reg) (i w : Nat) (b : Blk) : Blk :=
  if b.on F.GOV_CTRL_LOCK then b.stick F.GOV_STATUS_WR_LOCKED else storeWord r i 0 w b

/-- FRN_RCFG (R380, R393): a rule disabled starts afresh. -/
def wFrnRcfg (i w : Nat) (b : Blk) : Blk :=
  if 4 ≤ F.FRN_RCFG_SRCKIND.of w then b
  else
    let b := storeWord .frnRcfg i 0 w b
    if F.FRN_RCFG_EN.of w = 1 then b else b.setFrn { b.frn with rules := b.frn.rules.erase i }

/-- BIA_CFG (R358, R362). -/
def wBiaCfg (i w : Nat) (b : Blk) : Blk :=
  let r := F.BIA_CFG_RANGE.of w
  if 6 ≤ r then b
  else
    let b := (b.wr F.BIA_CFG_SENSE_EN (F.BIA_CFG_SENSE_EN.of w) i).wr F.BIA_CFG_CLRMODE (F.BIA_CFG_CLRMODE.of w) i
    rangeChange i r b

/-- BIA_PCMD (R353). -/
def wBiaPcmd (c w : Nat) (b : Blk) : Blk :=
  match F.BIA_PCMD_OP.of w with
  | 1 => saveNext c b
  | 2 => presetBegin c 0 true b
  | 3 => presetBegin c 1 true b
  | 4 => presetBegin c 0 false b
  | 5 => presetBegin c 1 false b
  | 6 => reload c b
  | _ => b

/-- TRG_CCFG, TRG_CBUF and TRG_CWIN (R405, R418). -/
def wCapture (r : Reg) (e w : Nat) (b : Blk) : Blk :=
  if !capIdle b e ∨ (r = .trgCcfg ∧ 4 ≤ F.TRG_CCFG_TSELK.of w) then b else storeWord r e 0 w b

/-- TRG_CCMD (R405): ARM, then STOP, then SOFT. Log 64 (DEDUCED). -/
def wCcmd (e w : Nat) (m : Mem) (b : Blk) : Blk × Mem :=
  let b := onBit F.TRG_CCMD_ARM w (captureArm e) b
  let s := if F.TRG_CCMD_STOP.of w = 1 then captureStop e [] m b else (b, m)
  (onBit F.TRG_CCMD_SOFT w (fun b => captureTrigger e (16 * b.now) 2 b) s.1, s.2)

/-- DRV_CTRL (R98, R123): a refused change of MODE ignores the write. -/
def wDrvCtrl (f i mask w : Nat) (b : Blk) : Blk :=
  let v := F.DRV_CTRL_MODE.of w
  if v = 3 ∨ (v = 2 ∧ 32 ≤ i) then b
  else if v ≠ b.rd F.DRV_CTRL_MODE i ∧ b.seqState (portSeq i) ≠ sDisabled then b.stick F.DRV_STATUS_MODE_REFUSED i
  else otherFields [F.DRV_CTRL_MODE] f .drvCtrl i 0 mask w (drvModeWrite i v b)

/-- DRV_SCTRL (R87, R128). -/
def wDrvSctrl (f i j mask w : Nat) (b : Blk) : Blk :=
  let b := otherFields [F.DRV_SCTRL_PHRST] f .drvSctrl i j mask w b
  if F.DRV_SCTRL_PHRST.of w = 1 then
    deadlineMsgArrive ⟨none, 6, f, regionTile (portRegion i), .tick, none, false, none, false,
      .phrst (Fin.ofNat 48 i) (Fin.ofNat 32 j)⟩ b
  else b

/-- SEQ_JREQ (R222): a branch request at the next tick. -/
def wSeqJreq (f i w : Nat) (b : Blk) : Blk :=
  deadlineMsgArrive ⟨none, 6, f, seqTile i, .tick, none, false, none, false,
    .branch (Fin.ofNat 64 i) (Fin.ofNat 4096 (F.SEQ_JREQ_TARGET.of w))⟩ b

/-- UCS_CTRL (R254, R256). -/
def wUcsCtrl (i w : Nat) (b : Blk) : Blk :=
  onBit F.UCS_CTRL_LOCK w (ucsLock i) (onBit F.UCS_CTRL_VERIFY w (ucsVerify i) b)

/-- ODR_CTRL (R268, R273). Log 28 (DEDUCED). -/
def wOdrCtrl (i w : Nat) (b : Blk) : Blk :=
  let md := F.ODR_CTRL_MODE.of w
  if md ≠ b.rd F.ODR_CTRL_MODE i ∧ b.coreState i ≠ cHalted then b
  else
    let b := b.wr F.ODR_CTRL_MODE md i
    if F.ODR_CTRL_RUN.of w = 1 then odrRun i b else odrRunClear i b

/-- ODR_IRQ (R289, R314): line 4 ignores writes. -/
def wOdrIrq (f i mask w : Nat) (b : Blk) : Blk :=
  fieldsWrite f .odrIrq i 0 (andW 64 mask (2 ^ 64 - 1 - 2 ^ 36)) w b

/-- ODR_GMASK(n, k, w) (R299). -/
def wGmask (i j w : Nat) (b : Blk) : Blk :=
  if b.on F.ODR_GRP_ARM i (j / 12) then b.stick F.ODR_STATUS_GMASK_BUSY i else b.wr F.ODR_GMASK_MASK w i j

/-- ODR_GRP (R299). -/
def wOdrGrp (i j mask w : Nat) (b : Blk) : Blk :=
  if !covers mask F.ODR_GRP_ARM then b
  else if F.ODR_GRP_ARM.of w = 1 then groupArm i j b else groupDisarm i j b

/-- Registers of the banks of R267. -/
def bankReg (r : Reg) : Bool :=
  r == .odrMainG || r == .odrMainA || r == .odrM || r == .odrShadowG || r == .odrShadowA ||
  r == .odrMainCre || r == .odrMainCim || r == .odrShadowCre || r == .odrShadowCim

/-- NET_PTP_CTRL2 (R524, R525). -/
def wPtpCtrl2 (w : Nat) (b : Blk) : Blk :=
  let b := b.wr F.NET_PTP_CTRL2_PAIR_AUTO (F.NET_PTP_CTRL2_PAIR_AUTO.of w)
  onBit F.NET_PTP_CTRL2_PAIR w pair (onBit F.NET_PTP_CTRL2_ACCEPT w accept b)

/-- RCV_RCTL (R554, R568). -/
def wRctl (i w : Nat) (b : Blk) : Blk :=
  let b := b.wr F.RCV_RCTL_HOLD (F.RCV_RCTL_HOLD.of w) i
  onBit F.RCV_RCTL_RESUME w (resume i) (onBit F.RCV_RCTL_RELEASE w (rcvRelease i) b)

/-- A write of one register, by function `f`. Log 81 (DEDUCED), 104 (DESIGN CHOICE). -/
def regWrite (f : Nat) (r : Reg) (i j mask w : Nat) (m : Mem) (b : Blk) : Blk × Mem :=
  let keep (x : Blk) : Blk × Mem := (x, m)
  match r with
  | .glbPwr => keep (wGlbPwr f mask w b)
  | .glbBrst => keep (wGlbBrst w b)
  | .glbLc => keep (wGlbLc f mask w b)
  | .glbChmapStage => keep (if chmapBusy b i then b else storeWord r i j w b)
  | .glbChmapCtrl => keep (if covers mask F.GLB_CHMAP_CTRL_APPLY then onBit F.GLB_CHMAP_CTRL_APPLY w (chmapApply i) b else b)
  | .timRefCfg => keep (refCfgWrite w b)
  | .timMsyncCtrl => keep (wMsyncCtrl mask w b)
  | .timDlPolicy => keep (wDlPolicy w b)
  | .hifOwn => hifOwnWrite i w m b
  | .hifFctrl => keep (wFctrl i mask w b)
  | .hifSpart => partitionWrite false i w m b
  | .hifDpart => partitionWrite true i w m b
  | .hifRbase => keep (wRbase i j w b)
  | .hifRcfg => keep (rcfgWrite i j w b)
  | .evfFire => keep (wFire i w b)
  | .evfLogq => keep (evfLogqWrite i w b)
  | .evfSrcmap => keep (evfSrcmapWrite f i w b)
  | .evfChcfg => keep (evfChcfgWrite f i w b)
  | .cntCfg => keep (cntCfgWrite f i w b)
  | .cntCtrl => keep (wCntCtrl f mask w b)
  | .memDctrl =>
    let b := otherFields [F.MEM_DCTRL_TRAINED] f r 0 0 mask w b
    if F.MEM_DCTRL_TRAINED.of w = 1 then memTrained m b else keep b
  | .memTrain => keep (if covers mask F.MEM_TRAIN_DLY then memTrainRun w b else b)
  | .memDdly => keep (wDdly i w b)
  | .memPanic => keep (if 65536 < F.MEM_PANIC_LEVEL.of w then b else fieldsWrite f r i j mask w b)
  | .lnkGcfg => keep (if (List.range 4).any (fun p => b.on F.LNK_PCFG_EN p) then b else storeWord r 0 0 w b)
  | .lnkPcfg => keep (wLnkPcfg i w b)
  | .lnkFptr => keep (if j = 0 then otherFields [F.LNK_FPTR_CONS] f r i j mask w b
      else otherFields [F.LNK_FPTR_PROD] f r i j mask w b)
  | .lnkLane => keep (onBit F.LNK_LANE_SLIP w (slip i j) (otherFields [] f r i j mask w b))
  | .netCfg => keep (wNetCfg w b)
  | .netTxq => keep (wNetQueue true w b)
  | .netRxq => keep (wNetQueue false w b)
  | .netDb => keep (onBit F.NET_DB_RX w netDbRx (onBit F.NET_DB_TX w netDbTx b))
  | .netPtpIncr => keep (incrWrite w b)
  | .netPtpAdj => keep (adjWrite w b)
  | .netPtpCtrl2 => keep (wPtpCtrl2 w b)
  | .rcvRctl => keep (wRctl i w b)
  | .calCtrl => keep (onBit F.CAL_CTRL_RELOAD w calReload (otherFields [F.CAL_CTRL_RELOAD] f r 0 0 mask w b))
  | .govCtrl => keep (onBit F.GOV_CTRL_LOCK w govLock b)
  | .govWin => keep (govWinWrite w b)
  | .govCeils => keep (wLocked r i w b)
  | .govCeill => keep (wLocked r i w b)
  | .govAllot => keep (wLocked r i w b)
  | .govLcfg => keep (govLcfgWrite f i w b)
  | .frnCtrl => keep (onBit F.FRN_CTRL_SOFT_TRIG w frnTriggered (otherFields [F.FRN_CTRL_SOFT_TRIG] f r 0 0 mask w b))
  | .frnSeq => keep (frnSeqWrite i w b)
  | .frnCmp => keep (frnCmpWrite i w b)
  | .frnRcfg => keep (wFrnRcfg i w b)
  | .frnRstat => keep (onBit F.FRN_RSTAT_RELEASE w (ruleRelease i) b)
  | .biaCfg => keep (wBiaCfg i w b)
  | .biaCode => keep (biaCodeWrite i w b)
  | .biaTrim => keep (biaTrimWrite i w b)
  | .biaPcmd => keep (wBiaPcmd i w b)
  | .trgMcmd => keep (markerPatternStart (F.TRG_MCMD_MRK.of w) (F.TRG_MCMD_PAT.of w) 0 b)
  | .trgGcfg => keep (trgGcfgWrite i 0 w b)
  | .trgGlev => keep (trgGcfgWrite i 1 w b)
  | .trgGtime => keep (trgGcfgWrite i 2 w b)
  | .trgCcfg => keep (wCapture r i w b)
  | .trgCbuf => keep (wCapture r i w b)
  | .trgCwin => keep (wCapture r i w b)
  | .trgCcmd => wCcmd i w m b
  | .trgPlen => keep (if w % 32 < 4 ∨ 16 < w % 32 then b else storeWord r i j w b)
  | .trgTcfg => keep (if badCode b r i w then b else fieldsWrite f r i j mask w b)
  | .drvCtrl => keep (wDrvCtrl f i mask w b)
  | .drvLevel => keep (if badCode b r i w then b else fieldsWrite f r i j mask w b)
  | .drvStream => keep (if badCode b r i w then b else fieldsWrite f r i j mask w b)
  | .drvSctrl => keep (if badCode b r i w then b else wDrvSctrl f i j mask w b)
  | .acqCtrl => keep (if badCode b r i w then b else fieldsWrite f r i j mask w b)
  | .acqTrack => keep (if 8 < F.ACQ_TRACK_AVG_LOG2.of w then b else storeWord r i j w b)
  | .acqDslot => keep (if F.ACQ_DSLOT_MODE.of w = 3 then b else storeWord r i j w b)
  | .acqCfgCtrl => keep (if covers mask F.ACQ_CFG_CTRL_APPLY then onBit F.ACQ_CFG_CTRL_APPLY w (acqCfgApply i) b else b)
  | .dscCfg => keep (if 2 ≤ F.DSC_CFG_SMODE.of w then b else storeWord r i j w b)
  | .dscRsel0 => keep (if badCode b r i w then b else fieldsWrite f r i j mask w b)
  | .dscRsel1 => keep (if badCode b r i w then b else fieldsWrite f r i j mask w b)
  | .dscColq => keep (colqWrite i w b)
  | .seqCtrl => keep (if F.SEQ_CTRL_TPOL.of w = 3 then b else fieldsWrite f r i j mask w b)
  | .seqCmd => keep (onBit F.SEQ_CMD_STOP w (seqCmdStop i) (onBit F.SEQ_CMD_START w (seqCmdStart i) b))
  | .seqJreq => keep (wSeqJreq f i w b)
  | .seqShot => keep (if b.seqState i = sRunning ∨ b.seqState i = sStopping then b else storeWord r i j w b)
  | .ucsCtrl => keep (wUcsCtrl i w b)
  | .ucsDisp => keep (ucsCustomerWrite i true j w b)
  | .ucsWord =>
    let a := ucsPoisonBase i + 4 * j
    keep (if m.poisoned a then poisonRead b a else ucsCustomerWrite i false j w b)
  | .odrCtrl => keep (wOdrCtrl i w b)
  | .odrIrq => keep (wOdrIrq f i mask w b)
  | .odrGmask => keep (wGmask i j w b)
  | .odrGrp => keep (wOdrGrp i j mask w b)
  | _ => keep (if bankReg r ∧ b.coreState i ≠ cHalted then b else fieldsWrite f r i j mask w b)

/-! ### What a read returns -/

/-- Entries 8w to 8w + 7 of the West decision vector as function `f` reads them (R195, R201).
Log 50 (DESIGN CHOICE). -/
def dvRead (b : Blk) (f w : Nat) : Nat :=
  (List.range 8).foldl (fun n e =>
    let x := 8 * w + e
    if f = 0 ∨ (x < 512 ∧ b.chanOwner x = f) then n + dvByte (b.dvEnt 0 x) * 2 ^ (8 * e) else n) 0

/-- The oldest transmit stamp as NET_TXTS0 shows it (R521). Log 81 (DEDUCED). -/
def txts0 (b : Blk) : Nat :=
  match b.net.stamps with
  | x :: _ => 2 ^ 63 + x.id % 65536 * 2 ^ 34 + x.qns % 4 * 2 ^ 32 + x.qns / 4 % 2 ^ 30
  | [] => 0

/-- A register's value as function `f` reads it: what its fields hold, and what the block counts or computes
as it is read. Log 80 (DEDUCED). -/
def regValue (b : Blk) (f : Nat) (r : Reg) (i j : Nat) : Nat :=
  let w := b.word r i j
  match r with
  | .timNow => b.now % 2 ^ 64
  | .hifFstat => setField w 0 1 (b2n (isActive b i))
  | .dscDv => dvRead b f i
  | .dscStat =>
    let x := b.dvEnt (i / 256) i
    setField (setField w 0 2 x.st) 3 1 (b2n x.early)
  | .seqPc =>
    let s := b.seq i
    s.pc % 4096 + s.calls.length % 16 * 2 ^ 16 + s.loops.length % 8 * 2 ^ 20
  | .seqLoop => match (b.seq i).loops.reverse[j]? with | some (n, _) => n % 2 ^ 24 | none => 0
  | .odrPc => setField w 16 16 (b.odr i).pc
  | .odrMainCre | .odrMainCim | .odrShadowCre | .odrShadowCim => ofS 64 (toS 40 w)
  | .drvRfill => min (b.port i).rbuf.length (2 ^ 17 - 1)
  | .govTals => talRead b i 0
  | .govTall => talRead b i 1
  | .acqCrev => setField w 0 32 (crevLeft b i)
  | .odrIrq => setField w 36 1 (b2n (!(b.odr i).notices.isEmpty))
  | .trgGstat => (showUnit b i).word .trgGstat i j
  | .netTxts0 => txts0 b
  | .netTxts1 => match b.net.stamps with | x :: _ => x.sec % 2 ^ 64 | [] => 0
  | _ => w

/-- RC fields that the read returned in full are cleared (R7, R597). -/
def rcClear (r : Reg) (i j mask : Nat) (b : Blk) : Blk :=
  r.fields.foldl (fun b x =>
    if x.acc = .rc ∧ field mask x.fld.lsb x.fld.wid = 2 ^ x.fld.wid - 1 then b.wr x.fld 0 i j else b) b

/-- What a read of the bits `mask` of a register does besides (R388, R521, R522). Log 81 (DEDUCED). -/
def readEffect (r : Reg) (i j mask : Nat) (b : Blk) : Blk :=
  let b := rcClear r i j mask b
  match r with
  | .netTxts1 => if mask = 0 then b else b.setNet { b.net with stamps := b.net.stamps.tail }
  | .netPtpNs => if mask = 0 then b else b.wr F.NET_PTP_SEC_SEC b.net.sec
  | .frnRes =>
    if field mask 25 1 = 1 then b.setFrn { b.frn with smbReady := b.frn.smbReady.filter (· ≠ i) } else b
  | _ => b

/-! ### Requests (R597 to R600, R603) -/

/-- A register that part of an 8-byte block reaches, with the bits covered and the bits written in it. -/
structure Part where
  at_ : RegAt
  mask : Nat
  v : Nat
  deriving DecidableEq, Repr

/-- The 32-bit register in the upper half of the block at `a`. -/
def upperPart (b : Blk) (a mask v : Nat) : List Part :=
  if field mask 32 32 = 0 then []
  else match locate b (a + 4) with
    | some y => if regWidth y.reg = 32 then [⟨y, field mask 32 32, field v 32 32⟩] else []
    | none => []

/-- The registers that a mask over the aligned 8-byte block at `a` reaches, the lower address first.
Log 81 (DEDUCED). -/
def parts (b : Blk) (a mask v : Nat) : List Part :=
  match locate b a with
  | some x =>
    if regWidth x.reg = 64 then (if mask = 0 then [] else [⟨x, mask, v⟩])
    else (if field mask 0 32 = 0 then [] else [⟨x, field mask 0 32, field v 0 32⟩]) ++ upperPart b a mask v
  | none => upperPart b a mask v

/-- GLB_ACCERR: a bit set, with the access that set it (R607). Log 78 (DEDUCED). -/
def accErr (b : Blk) (f a : Nat) (x : Fld) : Blk := ((b.wr F.GLB_ACCERR_ADDR a).wr F.GLB_ACCERR_FUNC f).stick x

/-- Function `f` may reach the register; `own` is a virtual function's own register in its view (R449, R450). -/
def mayReach (b : Blk) (f : Nat) (own : Bool) (p : Part) : Bool := own || sees b f p.at_.reg p.at_.i

/-- The write leaves the register as it is, whatever its other fields hold (R599). -/
def ignores (b : Blk) (f : Nat) (own : Bool) (p : Part) : Bool :=
  let r := p.at_.reg
  let i := p.at_.i
  let j := p.at_.j
  let w := writtenWord b r i j p.mask p.v
  !mayReach b f own p || (f != 0 && !own && readOnlyVf r) || (own && f != 0 && (r == .hifSpart || r == .hifDpart || r == .hifAp)) ||
  badCode b r i w || (bankReg r && b.coreState i != cHalted) ||
  (match r with
    | .glbChmapStage => chmapBusy b i
    | .biaCfg => decide (6 ≤ F.BIA_CFG_RANGE.of w)
    | .biaPcmd => decide (7 ≤ F.BIA_PCMD_OP.of w)
    | .seqCtrl => F.SEQ_CTRL_TPOL.of w == 3
    | .ucsDisp => decide (j < 64) || !b.regionIdle i || b.on F.UCS_STATUS_LOCKED i || b.rd F.UCS_STATUS_STATUS i == 1
    | .ucsWord => decide (j < 6144) || !b.regionIdle i || b.on F.UCS_STATUS_LOCKED i || b.rd F.UCS_STATUS_STATUS i == 1
    | _ => false)

/-- The fields of one copy of a register: a drive port has 16 slots (R127). -/
def fieldsAt (r : Reg) (i : Nat) : Nat :=
  if r = .drvStream ∧ i < 32 then fieldBits r - 2 ^ 12 else fieldBits r

/-- One register of a request written: reserved bits are discarded (R600). -/
def partWrite (f : Nat) (own : Bool) (a : Nat) (s : Blk × Mem) (p : Part) : Blk × Mem :=
  let b := s.1
  let r := p.at_.reg
  let i := p.at_.i
  let bits := fieldsAt r i
  let on := andW 64 p.mask p.v
  let b := if andW 64 on (2 ^ 64 - 1 - bits) ≠ 0 then accErr b f a F.GLB_ACCERR_RSVD_SET else b
  if !mayReach b f own p ∨ (f ≠ 0 ∧ !own ∧ readOnlyVf r) ∨ (own ∧ f ≠ 0 ∧ (r = .hifSpart ∨ r = .hifDpart ∨ r = .hifAp)) then
    (b, s.2)
  else
    let w := writtenWord b r i p.at_.j p.mask (andW 64 p.v bits)
    let w := if own ∧ f ≠ 0 ∧ r = .hifFctrl then setField w 0 1 (b.rd F.HIF_FCTRL_EN i) else w
    regWrite f r i p.at_.j p.mask w s.2 b

/-- The region that a register's writes wait for (R551). -/
def regionOf (r : Reg) (i : Nat) : Option Nat :=
  if drvReg r then some (portRegion i)
  else if acqReg r then some (i / 2)
  else if seqReg r then some (i / 8)
  else if regPage r = 0x28 then some i
  else match r with
    | .dscCfg | .dscAxa | .dscAxb | .dscDrift | .dscBnda | .dscBndb | .dscErase | .dscStat => some (i / 64)
    | .trgTcfg | .trgTlev | .trgTstat | .trgTcnt => some (i / 64)
    | .dscRsel0 | .dscRsel1 | .dscRtab => some (i / 8)
    | _ => none

/-- The held region that a register belongs to. Log 79 (DEDUCED). -/
def heldFor (b : Blk) (p : Part) : Option Nat :=
  match regionOf p.at_.reg p.at_.i with
  | some r => if regionHeld b r then some r else none
  | none => none

/-- A write of function `f` on the aligned 8-byte block at `a` of the register map (R597 to R600, R603), with
`mask` over whole 4-byte words.  A held region's write waits as the physical function's, its check made.
Log 78 (DEDUCED), 79 (DEDUCED). -/
def blockWrite (f : Nat) (own : Bool) (a mask v : Nat) (s : Blk × Mem) : Blk × Mem :=
  let ps := parts s.1 a mask v
  let denied := ps.any (fun p => !mayReach s.1 f own p)
  let b := if denied then alarmStick s.1 F.HIF_FSTAT_ACCESS_DENIED f else s.1
  if ps.length = 2 ∧ ps.any (ignores b f own) then (accErr b f a F.GLB_ACCERR_PAIR_REFUSED, s.2)
  else if denied then (b, s.2)
  else match ps.findSome? (heldFor b) with
    | some r => (holdAt b r (.registerWrite 0 a 8 (15 * b2n (field mask 0 32 != 0) + 240 * b2n (field mask 32 32 != 0)) v), s.2)
    | none =>
      let m := if ps.length = 2 ∧ ps.all (fun p => p.at_.reg == .ucsWord) then
          (match ps with | p :: _ => s.2.clearPoison ((ucsPoisonBase p.at_.i + 4 * p.at_.j) / 8) | [] => s.2) else s.2
      ps.foldl (partWrite f own a) (b, m)

/-- Fields of a region's registers as the writes that wait for its release have last written them (R551, R601).
Log 10 (DEDUCED). -/
def overlay (b : Blk) (r : Nat) : Blk :=
  (b.regRcv r).held.foldl (fun b c =>
    match c with
    | .registerWrite _ a _ be v =>
      let mask := b2n (bit be 0) * (2 ^ 32 - 1) + b2n (bit be 4) * (2 ^ 64 - 2 ^ 32)
      (parts b a mask v).foldl (fun b p =>
        let w := writtenWord b p.at_.reg p.at_.i p.at_.j p.mask p.v
        p.at_.reg.fields.foldl (fun b x => if x.acc = .rw then b.wr x.fld (x.fld.of w) p.at_.i p.at_.j else b) b) b
    | _ => b) b

/-- A field that takes hold at a tick, a granule boundary or a frame boundary (R9). Log 10 (DEDUCED). -/
def waits (f : Fld) : Bool := match effOf f with | .tick | .gran | .frame => true | _ => false

/-- A field as a queued message will write it: its key, width and value. Log 10 (DEDUCED). -/
def msgField (t : DlTarget) : Option (Fld × Nat × Nat × Nat) :=
  match t with
  | .param k wid v => some (⟨k.reg, k.lsb, wid⟩, v, k.i, k.j)
  | .sreg q i v => some (F.SEQ_SREG_VALUE, v, q.val, i)
  | _ => none

/-- One message of a queue in a read's view; a host write of the field that came later has already set what it
reads as. Log 10 (DEDUCED). -/
def showMsg (later : List DlEnt) (b : Blk) (m : DlMsg) (ord : Nat) : Blk :=
  match msgField m.target with
  | some (f, v, i, j) =>
    if !waits f || later.any (fun e => decide (ord < e.ord) && (match e.msg.target with
        | .host x _ => x == f.key i j | _ => false)) then b else b.wr f v i j
  | none => b

/-- Fields as the messages that wait in the deadline queues have last written them (R11, R56). Log 10 (DEDUCED). -/
def showQueued (b : Blk) : Blk :=
  let b' := b.dlq.foldl (fun c q => q.2.foldl (fun c e => showMsg q.2 c e.msg e.ord) c) b
  b.dlHeld.foldl (fun c m => showMsg [] c m 0) b'

/-- One register of a request read: its value above its place in the block, and what the read does. -/
def partRead (f : Nat) (own : Bool) (s : Nat × Blk) (p : Part) : Nat × Blk :=
  let b := s.2
  let r := p.at_.reg
  let i := p.at_.i
  if !mayReach b f own p then (s.1, alarmStick b F.HIF_FSTAT_ACCESS_DENIED f)
  else
    let seen := showQueued b
    let view := match heldFor b p with | some g => overlay seen g | none => seen
    (s.1 + andW 64 (regValue view f r i p.at_.j) p.mask * 2 ^ p.v, readEffect r i p.at_.j p.mask b)

/-- A read on the aligned block at `a` of the register map of the bits in `mask`. -/
def blockRead (f : Nat) (own : Bool) (a mask : Nat) (b : Blk) : Nat × Blk :=
  let ps := parts b a mask 0
  (ps.map (fun p => { p with v := if p.at_.off = 0 ∧ locate b a ≠ some p.at_ then 32 else 0 })).foldl (partRead f own) (0, b)

/-! ### Where a function's request goes (R449, R476) -/

/-- What an aligned 8-byte block of a function's BAR0 or doorbell page reaches: a block of the register map,
own or checked; VIEW_ADDR; a block of the doorbell page. -/
inductive Reach where
  | map (own : Bool) (a : Nat)
  | viewAddr
  | page (o : Nat)
  | none
  deriving DecidableEq, Repr

/-- The first byte of the doorbell page in the model's numbering of a function's requests. -/
abbrev pageBase : Nat := 0x400000

/-- Aperture block `o` of function `f`: offset within 0x8000 to 0xFFFF of its view. -/
def aperture (b : Blk) (f o : Nat) : Reach :=
  let i := o / 0x1000
  if o < 0x8000 ∧ b.on F.HIF_AP_EN f i then .map false (0x1000 * b.rd F.HIF_AP_PAGE f i + o % 0x1000) else .none

/-- The block that `a`, a multiple of 8, reaches for function `f`. -/
def reach (b : Blk) (f a : Nat) : Reach :=
  if pageBase ≤ a then (if a < pageBase + 0x1000 then .page (a - pageBase) else .none)
  else if f = 0 then .map true a
  else if a < 0x100 then .map true (0x21000 + 0x100 * f + a)
  else if a = 0x1000 then .map true (0x30100 + 8 * f)
  else if a = 0x1008 then .map true (0x30180 + 8 * f)
  else if a = 0x1010 then .map true (0x40100 + 8 * f)
  else if a = 0x2000 then .viewAddr
  else if a = 0x2008 then .map false (b.rd F.VIEW_ADDR_ADDR f / 8 * 8)
  else if 0x8000 ≤ a ∧ a < 0x10000 then aperture b f (a - 0x8000)
  else .none

/-- Dword `j` of the MSI-X table written: an unmasked vector's pending message leaves (R446). -/
def msixWrite (f j v : Nat) (b : Blk) : Blk :=
  let b := { b with regs := b.regs.set ⟨.msixTable, f, j, 0⟩ (v % 2 ^ 32) }
  let n := j / 4
  if j % 4 = 3 ∧ !bit v 0 ∧ bit (b.rd msixPending f) n then
    emitMsix (b.wr msixPending (b.rd msixPending f - 2 ^ n) f) f n
  else b

/-- A write on a block of the doorbell page (R476). -/
def pageWrite (f o mask v : Nat) (b : Blk) : Blk :=
  let lo := field mask 0 32 ≠ 0
  let hi := field mask 32 32 ≠ 0
  if o = 0 then (if lo then dbCmdWrite f (field v 0 32) b else b)
  else if o ≤ 0x28 then
    let k := o / 8
    let b := if lo then dbRingConsWrite f k (field v 0 32) b else b
    if hi then (if bit v 32 then ringArm f k b else b.wr F.DB_RING_ARM 0 f k) else b
  else if 0x800 ≤ o then
    let j := (o - 0x800) / 4
    let b := if lo then msixWrite f j (field v 0 32) b else b
    if hi then msixWrite f (j + 1) (field v 32 32) b else b
  else b

/-- A block of the doorbell page as it reads (R476). -/
def pageRead (b : Blk) (f o : Nat) : Nat :=
  if o = 0 then b.rd F.DB_CMD_PROD f + b.rd F.DB_CMD_CONSUMED f * 2 ^ 32
  else if o ≤ 0x28 then ringCons b f (o / 8) + ringProduced b f (o / 8) * 2 ^ 32
  else if o = 0x700 then field (b.rd msixPending f) 0 64
  else if o = 0x708 then field (b.rd msixPending f) 64 64
  else if 0x800 ≤ o then msixDword b f ((o - 0x800) / 4) + msixDword b f ((o - 0x800) / 4 + 1) * 2 ^ 32
  else 0

/-- A write of whole words on a block of a function's request. -/
def reachWrite (f : Nat) (dest : Reach) (mask v : Nat) (s : Blk × Mem) : Blk × Mem :=
  match dest with
  | .map own a => blockWrite f own a mask v s
  | .viewAddr => if field mask 0 32 = 0 then s else (s.1.wr F.VIEW_ADDR_ADDR (field v 3 29 * 8) f, s.2)
  | .page o => (pageWrite f o mask v s.1, s.2)
  | .none => s

/-- A read of the bits `mask` on a block of a function's request. Log 83 (DEDUCED). -/
def reachRead (f : Nat) (dest : Reach) (mask : Nat) (b : Blk) : Nat × Blk :=
  match dest with
  | .map own a => blockRead f own a mask b
  | .viewAddr => (andW 64 (b.rd F.VIEW_ADDR_ADDR f) mask, b)
  | .page o => (andW 64 (pageRead b f o) mask, b)
  | .none => (0, b)

/-- The aligned 8-byte blocks of `[a, a + n)`. -/
def blocksOf (a n : Nat) : List Nat := (List.range ((a + n + 7) / 8 - a / 8)).map (fun i => 8 * (a / 8 + i))

/-- The enabled bytes of a write that lie in the block at `a8`: byte `i` as bit `i`. -/
def enabled (a n be a8 : Nat) : Nat :=
  (List.range 8).foldl (fun x i =>
    if a ≤ a8 + i ∧ a8 + i < a + n ∧ bit be (a8 + i - a) then x + 2 ^ i else x) 0

/-- The bits of the whole words that enabled bytes cover. -/
def wholeWords (en : Nat) : Nat :=
  b2n (en % 16 == 15) * (2 ^ 32 - 1) + b2n (en / 16 == 15) * (2 ^ 64 - 2 ^ 32)

/-- A word of the block is covered in part. -/
def partWord (en : Nat) : Bool := (en % 16 != 0 && en % 16 != 15) || (en / 16 != 0 && en / 16 != 15)

/-- The bits that a read of `[a, a + n)` returns in the block at `a8`. -/
def readMask (a n a8 : Nat) : Nat :=
  (List.range 8).foldl (fun x i => if a ≤ a8 + i ∧ a8 + i < a + n then x + 255 * 2 ^ (8 * i) else x) 0

/-- The 64 bits that data at `a` puts into the block at `a8`. -/
def dataIn (a v a8 : Nat) : Nat := if a8 < a then v * 2 ^ (8 * (a - a8)) % 2 ^ 64 else field v (8 * (a8 - a)) 64

/-- A write request of function `f`, block by block (R597); `to` says where a block goes. -/
def requestWrite (f : Nat) (dest : Blk → Nat → Reach) (a n be v : Nat) (s : Blk × Mem) : Blk × Mem :=
  let ens := (blocksOf a n).map (enabled a n be)
  let s := if ens.any partWord ∨ ens.all (fun e => wholeWords e == 0) then
      (accErr s.1 f a F.GLB_ACCERR_PARTIAL, s.2) else s
  (blocksOf a n).foldl (fun s a8 =>
    let mask := wholeWords (enabled a n be a8)
    if mask = 0 then s else reachWrite f (dest s.1 a8) mask (dataIn a v a8) s) s

/-- A read request of function `f`, block by block: the value returned. -/
def requestRead (f : Nat) (dest : Blk → Nat → Reach) (a n : Nat) (b : Blk) : Blk :=
  let r := (blocksOf a n).foldl (fun (s : Nat × Blk) a8 =>
    let x := reachRead f (dest s.2 a8) (readMask a n a8) s.2
    (s.1 + (if a8 < a then x.1 / 2 ^ (8 * (a - a8)) else x.1 * 2 ^ (8 * (a8 - a))), x.2)) (0, b)
  (hit r.2 0x602 1).emit (.readData f (r.1 % 2 ^ (8 * n)))

/-! ### When a request is served (R445, R551, R556, R578) -/

/-- A request waits for an island or for the exit from Idle. Log 106 (DESIGN CHOICE). -/
def waitBus (b : Blk) (c : Instr) : Blk := { b with rcv := { b.rcv with held := b.rcv.held ++ [c] } }

/-- The same, and the exit from Idle begins. Log 106 (DESIGN CHOICE). -/
def waitIdle (b : Blk) (c : Instr) : Blk :=
  let b := waitBus b c
  if b.agenda.any (fun a => decide (a.2 = .idleExit)) then b else b.sched 16000 .idleExit

/-- The request reaches a register of a converter tile. -/
def hitsTile (b : Blk) (l : List Reach) : Bool :=
  l.any (fun x => match x with
    | .map _ a => (parts b a (2 ^ 64 - 1) 0).any (fun p => tileReg p.at_.reg || (regionOf p.at_.reg p.at_.i).isSome)
    | _ => false)

/-- Function `f` is there to send a request (R445). Log 74 (DEDUCED). -/
def present (b : Blk) (f : Nat) : Bool := f == 0 || (b.hif.vfEn && decide (f ≤ b.rd F.HIF_GSTAT_NUMVF))

/-- A register request: served, or waiting as instruction `c`. Log 78 (DEDUCED), 82 (DEDUCED), 105 (DESIGN CHOICE). -/
def registerRequest (f : Nat) (c : Instr) (l : List Reach) (go : Blk × Mem → Blk × Mem) (s : Blk × Mem) : Blk × Mem :=
  let b := s.1
  if b.pwr.off ∨ !present b f then s
  else if islBusy b 0 ∨ islBusy b 2 then (waitBus b c, s.2)
  else if b.rd F.GLB_PWR_STATE = 1 ∧ hitsTile b l then (waitIdle b c, s.2)
  else go (hit b 0x601 1, s.2)

/-- REGISTER_WRITE (R597): a write request of a function to its BAR0, or at `pageBase` to its doorbell page. -/
def registerWrite (f : Func) (a n be v : Nat) (m : Mem) (b : Blk) : Blk × Mem :=
  registerRequest f (.registerWrite f a n be v) ((blocksOf a n).map (reach b f))
    (requestWrite f (fun b a8 => reach b f a8) a n be v) (b, m)

/-- READ_CLEAR (R7, R597): a read request of a function. Log 83 (DEDUCED). -/
def readClear (f : Func) (a n : Nat) (m : Mem) (b : Blk) : Blk × Mem :=
  registerRequest f (.readClear f a n) ((blocksOf a n).map (reach b f))
    (fun s => (requestRead f (fun b a8 => reach b f a8) a n s.1, s.2)) (b, m)

/-- VIEW_DATA_ACCESS (R603): `half` 1 is 4 bytes at 0x200C. -/
def viewDataAccess (f : Func) (write : Bool) (half n v : Nat) (m : Mem) (b : Blk) : Blk × Mem :=
  let a := 0x2008 + 4 * (half % 2)
  let n := min n (8 - 4 * (half % 2))
  if f.val = 0 then (b, m)
  else
    registerRequest f (.viewDataAccess f write half n v) [reach b f 0x2008]
      (fun s =>
        if write then requestWrite f (fun b a8 => reach b f a8) a n (2 ^ n - 1) v s
        else (requestRead f (fun b a8 => reach b f a8) a n s.1, s.2)) (b, m)

/-- APERTURE_ACCESS (R449): `off` counts from the view's offset 0x8000. -/
def apertureAccess (f : Func) (write : Bool) (off n be v : Nat) (m : Mem) (b : Blk) : Blk × Mem :=
  if f.val = 0 then (b, m)
  else
    registerRequest f (.apertureAccess f write off n be v) ((blocksOf off n).map (aperture b f))
      (fun s =>
        if write then requestWrite f (fun b a8 => aperture b f a8) off n be v s
        else (requestRead f (fun b a8 => aperture b f a8) off n s.1, s.2)) (b, m)

/-! ### BAR2 (R448, R450) -/

/-- The runs of enabled bytes: offset of the first byte and length. -/
def runs (be : Nat) : Nat → List (Nat × Nat) → List (Nat × Nat)
  | 0, l => l
  | n + 1, l =>
    match runs be n l, bit be n with
    | l, false => l
    | [], true => [(n, 1)]
    | (o, k) :: t, true => if o + k = n then (o, k + 1) :: t else (n, 1) :: (o, k) :: t

/-- The held region whose stores the request touches. -/
def heldStore (b : Blk) (a n : Nat) : Option Nat :=
  [a, a + n - 1].findSome? (fun x =>
    match storeRegion x with
    | some r => if regionHeld b r then some r else none
    | none => none)

/-- One run of enabled bytes written: denied as a whole where a byte of it is not the function's. -/
def runWrite (f a v : Nat) (s : Blk × Mem) (r : Nat × Nat) : Blk × Mem :=
  let x := a + r.1
  if ownsRange s.1 f x r.2 then hostStore (dramHit s.1 0x604 x r.2) s.2 x (leBytes r.2 (v / 2 ^ (8 * r.1)))
  else (alarmStick s.1 F.HIF_FSTAT_ACCESS_DENIED f, s.2)

/-- The bytes that a BAR2 read returns: 0 outside the stores and in memory being swept. -/
def storeRead (b : Blk) (m : Mem) (a n : Nat) : List Byte × Blk :=
  if storeAt b a = .none ∨ sweeping b a then (List.replicate n (0 : Byte), b) else outBytes b m a n

/-- BAR2_ACCESS (R448, R450): denied accesses set ACCESS_DENIED; those of a held region wait (R551).
Log 82 (DEDUCED). -/
def bar2Access (f : Func) (write : Bool) (a n be v : Nat) (m : Mem) (b : Blk) : Blk × Mem :=
  let c : Instr := .bar2Access f write a n be v
  if b.pwr.off ∨ !present b f then (b, m)
  else if islBusy b 0 ∨ (dramBase ≤ a ∧ islBusy b 1) then (waitBus b c, m)
  else if b.rd F.GLB_PWR_STATE = 1 ∧ a < captBase then (waitIdle b c, m)
  else match heldStore b a n with
    | some r => (holdAt b r c, m)
    | none =>
      let b := hit b 0x601 1
      if write then (runs be n []).reverse.foldl (runWrite f a v) (b, m)
      else if ownsRange b f a n then
        let x := storeRead (dramHit b 0x603 a n) m a n
        ((hit x.2 0x602 1).emit (.readData f (leNat x.1)), m)
      else ((hit (alarmStick b F.HIF_FSTAT_ACCESS_DENIED f) 0x602 1).emit (.readData f 0), m)

/-! ### SMBus (R388) -/

/-- SMB_BLOCK_READ: 8 bytes at the pointer, which then advances; a read of FRN_RES clears READY for the SMBus
alone. -/
def smbBlockRead (b : Blk) : Blk :=
  let p := b.frn.smbPtr
  let a := (if bit p 15 then 0xC0000 else 0xB0000) + p % 2 ^ 15
  let show_ (x : Option RegAt) : Nat :=
    match x with
    | some y =>
      let w := regValue (showQueued b) 0 y.reg y.i y.j
      if y.reg = .frnRes then setField w 25 1 (b2n (b.frn.smbReady.contains y.i)) else w
    | none => 0
  let lo := locate b a
  let v := match lo with
    | some x => if regWidth x.reg = 64 then show_ lo else show_ lo % 2 ^ 32 + show_ (locate b (a + 4)) * 2 ^ 32
    | none => show_ (locate b (a + 4)) * 2 ^ 32
  let b := match lo with
    | some x => if x.reg = Reg.frnRes then b.setFrn { b.frn with smbReady := b.frn.smbReady.filter (· ≠ x.i) } else b
    | none => b
  (b.setFrn { b.frn with smbPtr := (p + 8) % 2 ^ 16 }).emit (.smbus ((leBytes 8 v).map (fun (x : Byte) => x.toNat)))

def execRegisterWrite (f : Func) (addr nbytes be data : Nat) (s : State) : Res := onBoth (registerWrite f addr nbytes be data) s
def execReadClear (f : Func) (addr nbytes : Nat) (s : State) : Res := onBoth (readClear f addr nbytes) s
def execViewDataAccess (f : Func) (write : Bool) (half nbytes data : Nat) (s : State) : Res :=
  onBoth (viewDataAccess f write half nbytes data) s
def execApertureAccess (f : Func) (write : Bool) (off nbytes be data : Nat) (s : State) : Res :=
  onBoth (apertureAccess f write off nbytes be data) s
def execBar2Access (f : Func) (write : Bool) (addr nbytes be data : Nat) (s : State) : Res :=
  onBoth (bar2Access f write addr nbytes be data) s
def execSmbBlockRead (s : State) : Res := onBlk (fun _ => smbBlockRead) s

end Sys2Proof.Machine
end

