-- ==== Sys2Proof/Machine/Dispatch.lean ====
section
/-!
DEFINITION. The dispatcher: one arm for each command, a direct call of its meaning.
-/

namespace Sys2Proof.Machine

/-- The effect of a command on everything but the queue. -/
def exec (i : Instr) (s : State) : Host.Outcome State Fault Refusal :=
  match i with
  | .registerWrite f addr nbytes be data => Sys2Proof.Machine.execRegisterWrite f addr nbytes be data s
  | .readClear f addr nbytes => Sys2Proof.Machine.execReadClear f addr nbytes s
  | .viewDataAccess f write half nbytes data => Sys2Proof.Machine.execViewDataAccess f write half nbytes data s
  | .apertureAccess f write off nbytes be data => Sys2Proof.Machine.execApertureAccess f write off nbytes be data s
  | .bar2Access f write addr nbytes be data => Sys2Proof.Machine.execBar2Access f write addr nbytes be data s
  | .apply r => Sys2Proof.Machine.execApply r s
  | .chmapCheckDone r => Sys2Proof.Machine.execChmapCheckDone r s
  | .refIdentified freq => Sys2Proof.Machine.execRefIdentified freq s
  | .refMismatch => Sys2Proof.Machine.execRefMismatch s
  | .refMatchRestored freq => Sys2Proof.Machine.execRefMatchRestored freq s
  | .refLost => Sys2Proof.Machine.execRefLost s
  | .cleanupPllLock => Sys2Proof.Machine.execCleanupPllLock s
  | .sclkLock => Sys2Proof.Machine.execSclkLock s
  | .counterStart => Sys2Proof.Machine.execCounterStart s
  | .relockStart => Sys2Proof.Machine.execRelockStart s
  | .refCfgWrite v => Sys2Proof.Machine.execRefCfgWrite v s
  | .deadlineMsgArrive m => Sys2Proof.Machine.execDeadlineMsgArrive m s
  | .deadlineQueueAdmit isl => Sys2Proof.Machine.execDeadlineQueueAdmit isl s
  | .deadlineApply isl => Sys2Proof.Machine.execDeadlineApply isl s
  | .msyncEdge frac high => Sys2Proof.Machine.execMsyncEdge frac high s
  | .msyncLoad => Sys2Proof.Machine.execMsyncLoad s
  | .msyncArm v => Sys2Proof.Machine.execMsyncArm v s
  | .soft => Sys2Proof.Machine.execSoft s
  | .outModeWrite v => Sys2Proof.Machine.execOutModeWrite v s
  | .msyncOutPulse => Sys2Proof.Machine.execMsyncOutPulse s
  | .phrst p slot => Sys2Proof.Machine.execPhrst p slot s
  | .drvModeWrite p v => Sys2Proof.Machine.execDrvModeWrite p v s
  | .modeSwitchDone p => Sys2Proof.Machine.execModeSwitchDone p s
  | .portEnSet p => Sys2Proof.Machine.execPortEnSet p s
  | .portEnClear p => Sys2Proof.Machine.execPortEnClear p s
  | .rampEnd p => Sys2Proof.Machine.execRampEnd p s
  | .levelStage p => Sys2Proof.Machine.execLevelStage p s
  | .levelAdopt p => Sys2Proof.Machine.execLevelAdopt p s
  | .holdEnd p => Sys2Proof.Machine.execHoldEnd p s
  | .streamUnderrun p => Sys2Proof.Machine.execStreamUnderrun p s
  | .earlyToneStop p slot d => Sys2Proof.Machine.execEarlyToneStop p slot d s
  | .acqEnSet k => Sys2Proof.Machine.execAcqEnSet k s
  | .adcReady k => Sys2Proof.Machine.execAdcReady k s
  | .gainSettled k => Sys2Proof.Machine.execGainSettled k s
  | .acqCfgApply k => Sys2Proof.Machine.execAcqCfgApply k s
  | .acqCfgCheckDone k => Sys2Proof.Machine.execAcqCfgCheckDone k s
  | .binStepTest k slot samples ovr => Sys2Proof.Machine.execBinStepTest k slot samples ovr s
  | .lateDecision k slot => Sys2Proof.Machine.execLateDecision k slot s
  | .trkEnSet k slot => Sys2Proof.Machine.execTrkEnSet k slot s
  | .crevasseBegin k => Sys2Proof.Machine.execCrevasseBegin k s
  | .crevasseEnd k => Sys2Proof.Machine.execCrevasseEnd k s
  | .dvOwnTileUpdate entry st code early d => Sys2Proof.Machine.execDvOwnTileUpdate entry st code early d s
  | .dvOtherTileUpdate entry st code early d => Sys2Proof.Machine.execDvOtherTileUpdate entry st code early d s
  | .exportLatchSet q code early unav d => Sys2Proof.Machine.execExportLatchSet q code early unav d s
  | .decisionBlockSend p => Sys2Proof.Machine.execDecisionBlockSend p s
  | .decisionBlockReceive p lane block chkOk => Sys2Proof.Machine.execDecisionBlockReceive p lane block chkOk s
  | .importUpdate p origin chan code early ovr unav => Sys2Proof.Machine.execImportUpdate p origin chan code early ovr unav s
  | .collectorIntake => Sys2Proof.Machine.execCollectorIntake s
  | .resultRecordWrite f => Sys2Proof.Machine.execResultRecordWrite f s
  | .lossMarkerWrite f => Sys2Proof.Machine.execLossMarkerWrite f s
  | .shotSummary q shot => Sys2Proof.Machine.execShotSummary q shot s
  | .colqWrite f v => Sys2Proof.Machine.execColqWrite f v s
  | .seqEnSet q => Sys2Proof.Machine.execSeqEnSet q s
  | .seqEnClear q => Sys2Proof.Machine.execSeqEnClear q s
  | .startTrigger q birth => Sys2Proof.Machine.execStartTrigger q birth s
  | .seqCmdStart q => Sys2Proof.Machine.execSeqCmdStart q s
  | .seqCmdStop q => Sys2Proof.Machine.execSeqCmdStop q s
  | .seqStart q => Sys2Proof.Machine.execSeqStart q s
  | .entryCommit q => Sys2Proof.Machine.execEntryCommit q s
  | .entryStart q => Sys2Proof.Machine.execEntryStart q s
  | .haltRetire q => Sys2Proof.Machine.execHaltRetire q s
  | .nop q => Sys2Proof.Machine.execNop q s
  | .halt q => Sys2Proof.Machine.execHalt q s
  | .play q => Sys2Proof.Machine.execPlay q s
  | .wait q => Sys2Proof.Machine.execWait q s
  | .waitev q => Sys2Proof.Machine.execWaitev q s
  | .waitd q => Sys2Proof.Machine.execWaitd q s
  | .brd q => Sys2Proof.Machine.execBrd q s
  | .jmp q => Sys2Proof.Machine.execJmp q s
  | .brs q => Sys2Proof.Machine.execBrs q s
  | .call q => Sys2Proof.Machine.execCall q s
  | .ret q => Sys2Proof.Machine.execRet q s
  | .loop q => Sys2Proof.Machine.execLoop q s
  | .endl q => Sys2Proof.Machine.execEndl q s
  | .setf q => Sys2Proof.Machine.execSetf q s
  | .setp q => Sys2Proof.Machine.execSetp q s
  | .shiftp q => Sys2Proof.Machine.execShiftp q s
  | .seta q => Sys2Proof.Machine.execSeta q s
  | .emit q => Sys2Proof.Machine.execEmit q s
  | .capt q => Sys2Proof.Machine.execCapt q s
  | .sync q => Sys2Proof.Machine.execSync q s
  | .streamFetch q => Sys2Proof.Machine.execStreamFetch q s
  | .streamPlays q => Sys2Proof.Machine.execStreamPlays q s
  | .openw q => Sys2Proof.Machine.execOpenw q s
  | .opr q => Sys2Proof.Machine.execOpr q s
  | .shot q => Sys2Proof.Machine.execShot q s
  | .mrkp q => Sys2Proof.Machine.execMrkp q s
  | .customerOpcode q => Sys2Proof.Machine.execCustomerOpcode q s
  | .reservedOpcode q => Sys2Proof.Machine.execReservedOpcode q s
  | .waitdSatisfied q => Sys2Proof.Machine.execWaitdSatisfied q s
  | .waitdTimeout q => Sys2Proof.Machine.execWaitdTimeout q s
  | .waitevEvent q ch => Sys2Proof.Machine.execWaitevEvent q ch s
  | .waitevTimeout q => Sys2Proof.Machine.execWaitevTimeout q s
  | .seqJreq q target => Sys2Proof.Machine.execSeqJreq q target s
  | .branchRequest q target => Sys2Proof.Machine.execBranchRequest q target s
  | .softStopBegin q => Sys2Proof.Machine.execSoftStopBegin q s
  | .softStopComplete q => Sys2Proof.Machine.execSoftStopComplete q s
  | .sreg q r v => Sys2Proof.Machine.execSreg q r v s
  | .uopUndef q => Sys2Proof.Machine.execUopUndef q s
  | .uopNop q => Sys2Proof.Machine.execUopNop q s
  | .uopCommit q => Sys2Proof.Machine.execUopCommit q s
  | .uopMxt q => Sys2Proof.Machine.execUopMxt q s
  | .uopLdi q => Sys2Proof.Machine.execUopLdi q s
  | .uopAlu q => Sys2Proof.Machine.execUopAlu q s
  | .uopAlui q => Sys2Proof.Machine.execUopAlui q s
  | .uopSrd q => Sys2Proof.Machine.execUopSrd q s
  | .uopSwr q => Sys2Proof.Machine.execUopSwr q s
  | .uopUjmp q => Sys2Proof.Machine.execUopUjmp q s
  | .uopUbr q => Sys2Proof.Machine.execUopUbr q s
  | .uopSetnpc q => Sys2Proof.Machine.execUopSetnpc q s
  | .uopPushc q => Sys2Proof.Machine.execUopPushc q s
  | .uopPopc q => Sys2Proof.Machine.execUopPopc q s
  | .uopLpush q => Sys2Proof.Machine.execUopLpush q s
  | .uopLstep q => Sys2Proof.Machine.execUopLstep q s
  | .uopLtop q => Sys2Proof.Machine.execUopLtop q s
  | .uopDvrd q => Sys2Proof.Machine.execUopDvrd q s
  | .uopEkind q => Sys2Proof.Machine.execUopEkind q s
  | .uopElen q => Sys2Proof.Machine.execUopElen q s
  | .uopEplay q => Sys2Proof.Machine.execUopEplay q s
  | .uopEplaym q => Sys2Proof.Machine.execUopEplaym q s
  | .uopEstrm q => Sys2Proof.Machine.execUopEstrm q s
  | .uopEclose q => Sys2Proof.Machine.execUopEclose q s
  | .uopEparm q => Sys2Proof.Machine.execUopEparm q s
  | .uopEatt q => Sys2Proof.Machine.execUopEatt q s
  | .uopEaux q => Sys2Proof.Machine.execUopEaux q s
  | .uopBrdarm q => Sys2Proof.Machine.execUopBrdarm q s
  | .uopSfetch q => Sys2Proof.Machine.execUopSfetch q s
  | .uopFault q => Sys2Proof.Machine.execUopFault q s
  | .uopVchk q => Sys2Proof.Machine.execUopVchk q s
  | .verify r => Sys2Proof.Machine.execVerify r s
  | .verifyDone r => Sys2Proof.Machine.execVerifyDone r s
  | .lock r => Sys2Proof.Machine.execLock r s
  | .ucsCustomerWrite r disp idx v => Sys2Proof.Machine.execUcsCustomerWrite r disp idx v s
  | .vimgReady => Sys2Proof.Machine.execVimgReady s
  | .odrRun n => Sys2Proof.Machine.execOdrRun n s
  | .odrRunClear n => Sys2Proof.Machine.execOdrRunClear n s
  | .odrNop n => Sys2Proof.Machine.execOdrNop n s
  | .add n => Sys2Proof.Machine.execAdd n s
  | .sub n => Sys2Proof.Machine.execSub n s
  | .and n => Sys2Proof.Machine.execAnd n s
  | .or n => Sys2Proof.Machine.execOr n s
  | .xor n => Sys2Proof.Machine.execXor n s
  | .shl n => Sys2Proof.Machine.execShl n s
  | .shr n => Sys2Proof.Machine.execShr n s
  | .sar n => Sys2Proof.Machine.execSar n s
  | .mov n => Sys2Proof.Machine.execMov n s
  | .neg n => Sys2Proof.Machine.execNeg n s
  | .abs n => Sys2Proof.Machine.execAbs n s
  | .min n => Sys2Proof.Machine.execMin n s
  | .max n => Sys2Proof.Machine.execMax n s
  | .parm n => Sys2Proof.Machine.execParm n s
  | .popc n => Sys2Proof.Machine.execPopc n s
  | .selnz n => Sys2Proof.Machine.execSelnz n s
  | .selz n => Sys2Proof.Machine.execSelz n s
  | .mul n => Sys2Proof.Machine.execMul n s
  | .mulh n => Sys2Proof.Machine.execMulh n s
  | .adds n => Sys2Proof.Machine.execAdds n s
  | .subs n => Sys2Proof.Machine.execSubs n s
  | .cmplt n => Sys2Proof.Machine.execCmplt n s
  | .cmpeq n => Sys2Proof.Machine.execCmpeq n s
  | .extb n => Sys2Proof.Machine.execExtb n s
  | .mta n => Sys2Proof.Machine.execMta n s
  | .mtm n => Sys2Proof.Machine.execMtm n s
  | .mfa n => Sys2Proof.Machine.execMfa n s
  | .mfm n => Sys2Proof.Machine.execMfm n s
  | .cmul n => Sys2Proof.Machine.execCmul n s
  | .cmac n => Sys2Proof.Machine.execCmac n s
  | .cmsu n => Sys2Proof.Machine.execCmsu n s
  | .cmulj n => Sys2Proof.Machine.execCmulj n s
  | .cmacj n => Sys2Proof.Machine.execCmacj n s
  | .cmsuj n => Sys2Proof.Machine.execCmsuj n s
  | .cclr n => Sys2Proof.Machine.execCclr n s
  | .cadd n => Sys2Proof.Machine.execCadd n s
  | .sacc16 n => Sys2Proof.Machine.execSacc16 n s
  | .sacc32 n => Sys2Proof.Machine.execSacc32 n s
  | .sacc32r n => Sys2Proof.Machine.execSacc32r n s
  | .lacc n => Sys2Proof.Machine.execLacc n s
  | .lacc32 n => Sys2Proof.Machine.execLacc32 n s
  | .hsr n => Sys2Proof.Machine.execHsr n s
  | .hpar n => Sys2Proof.Machine.execHpar n s
  | .hbr n => Sys2Proof.Machine.execHbr n s
  | .evfire n => Sys2Proof.Machine.execEvfire n s
  | .odrReservedOp n => Sys2Proof.Machine.execOdrReservedOp n s
  | .lsLoad n => Sys2Proof.Machine.execLsLoad n s
  | .lsStore n => Sys2Proof.Machine.execLsStore n s
  | .ldi n => Sys2Proof.Machine.execLdi n s
  | .nopc n => Sys2Proof.Machine.execNopc n s
  | .br n => Sys2Proof.Machine.execBr n s
  | .odrCall n => Sys2Proof.Machine.execOdrCall n s
  | .odrRet n => Sys2Proof.Machine.execOdrRet n s
  | .rti n => Sys2Proof.Machine.execRti n s
  | .rep n => Sys2Proof.Machine.execRep n s
  | .repr n => Sys2Proof.Machine.execRepr n s
  | .waiti n => Sys2Proof.Machine.execWaiti n s
  | .odrHalt n => Sys2Proof.Machine.execOdrHalt n s
  | .ei n => Sys2Proof.Machine.execEi n s
  | .di n => Sys2Proof.Machine.execDi n s
  | .interruptTake n => Sys2Proof.Machine.execInterruptTake n s
  | .coreTimerZero n => Sys2Proof.Machine.execCoreTimerZero n s
  | .handoffQueueAdmit n => Sys2Proof.Machine.execHandoffQueueAdmit n s
  | .mailboxNotice n entry st code early ovr d => Sys2Proof.Machine.execMailboxNotice n entry st code early ovr d s
  | .mbpop1 n => Sys2Proof.Machine.execMbpop1 n s
  | .groupArm n k => Sys2Proof.Machine.execGroupArm n k s
  | .groupFire n k => Sys2Proof.Machine.execGroupFire n k s
  | .vetoNotice q => Sys2Proof.Machine.execVetoNotice q s
  | .binBoundary w => Sys2Proof.Machine.execBinBoundary w s
  | .lastResortCrossing x w => Sys2Proof.Machine.execLastResortCrossing x w s
  | .muteRampRelease p => Sys2Proof.Machine.execMuteRampRelease p s
  | .govWinWrite v => Sys2Proof.Machine.execGovWinWrite v s
  | .govLock => Sys2Proof.Machine.execGovLock s
  | .govLcfgWrite f x v => Sys2Proof.Machine.execGovLcfgWrite f x v s
  | .peerTallyStale origin n w => Sys2Proof.Machine.execPeerTallyStale origin n w s
  | .biasUpdateSlot apart far limit => Sys2Proof.Machine.execBiasUpdateSlot apart far limit s
  | .trimGrade => Sys2Proof.Machine.execTrimGrade s
  | .biaCodeWrite c v => Sys2Proof.Machine.execBiaCodeWrite c v s
  | .biaTrimWrite c v => Sys2Proof.Machine.execBiaTrimWrite c v s
  | .rangeChange c v => Sys2Proof.Machine.execRangeChange c v s
  | .saveNext c => Sys2Proof.Machine.execSaveNext c s
  | .saveA c => Sys2Proof.Machine.execSaveA c s
  | .saveB c => Sys2Proof.Machine.execSaveB c s
  | .eraseA c => Sys2Proof.Machine.execEraseA c s
  | .eraseB c => Sys2Proof.Machine.execEraseB c s
  | .reload c => Sys2Proof.Machine.execReload c s
  | .presetDone c verified => Sys2Proof.Machine.execPresetDone c verified s
  | .presetCheck => Sys2Proof.Machine.execPresetCheck s
  | .clearNAct => Sys2Proof.Machine.execClearNAct s
  | .clearNRelease => Sys2Proof.Machine.execClearNRelease s
  | .firnTimePairing => Sys2Proof.Machine.execFirnTimePairing s
  | .firnEventDeliver => Sys2Proof.Machine.execFirnEventDeliver s
  | .frnSeqWrite e v => Sys2Proof.Machine.execFrnSeqWrite e v s
  | .frnEntryComplete e conv rev isOver temp => Sys2Proof.Machine.execFrnEntryComplete e conv rev isOver temp s
  | .frnTrigger => Sys2Proof.Machine.execFrnTrigger s
  | .softTrig => Sys2Proof.Machine.execSoftTrig s
  | .trigSequenceEnd => Sys2Proof.Machine.execTrigSequenceEnd s
  | .frnResRead e => Sys2Proof.Machine.execFrnResRead e s
  | .comparatorEdge ai dest => Sys2Proof.Machine.execComparatorEdge ai dest s
  | .comparatorSettle ai dest => Sys2Proof.Machine.execComparatorSettle ai dest s
  | .latchPeriodClear => Sys2Proof.Machine.execLatchPeriodClear s
  | .frnCmpWrite ai v => Sys2Proof.Machine.execFrnCmpWrite ai v s
  | .rulePass => Sys2Proof.Machine.execRulePass s
  | .release j => Sys2Proof.Machine.execRelease j s
  | .wake src index => Sys2Proof.Machine.execWake src index s
  | .wakeN => Sys2Proof.Machine.execWakeN s
  | .smbReadStatus => Sys2Proof.Machine.execSmbReadStatus s
  | .smbSetPointer v => Sys2Proof.Machine.execSmbSetPointer v s
  | .smbBlockRead => Sys2Proof.Machine.execSmbBlockRead s
  | .toneTriggerFire t => Sys2Proof.Machine.execToneTriggerFire t s
  | .toneTriggerArrive t v stamp => Sys2Proof.Machine.execToneTriggerArrive t v stamp s
  | .trgTcfgWrite t => Sys2Proof.Machine.execTrgTcfgWrite t s
  | .generalUnitFire u stamp => Sys2Proof.Machine.execGeneralUnitFire u stamp s
  | .generalUnitTimeout u since => Sys2Proof.Machine.execGeneralUnitTimeout u since s
  | .trgGcfgWrite u word v => Sys2Proof.Machine.execTrgGcfgWrite u word v s
  | .trigInEdge ai level sample held => Sys2Proof.Machine.execTrigInEdge ai level sample held s
  | .captureArm e => Sys2Proof.Machine.execCaptureArm e s
  | .captureTrigger e stamp kind => Sys2Proof.Machine.execCaptureTrigger e stamp kind s
  | .captureSoft e => Sys2Proof.Machine.execCaptureSoft e s
  | .captureStop e data => Sys2Proof.Machine.execCaptureStop e data s
  | .segmentClose e data => Sys2Proof.Machine.execSegmentClose e data s
  | .captureFlush e => Sys2Proof.Machine.execCaptureFlush e s
  | .captureOverflow e data => Sys2Proof.Machine.execCaptureOverflow e data s
  | .markerPatternStart mk pat by_ => Sys2Proof.Machine.execMarkerPatternStart mk pat by_ s
  | .eventPublish src birth detail ftime => Sys2Proof.Machine.execEventPublish src birth detail ftime s
  | .eventDeliver => Sys2Proof.Machine.execEventDeliver s
  | .relayDue k => Sys2Proof.Machine.execRelayDue k s
  | .evfFire f ch => Sys2Proof.Machine.execEvfFire f ch s
  | .channelDisable c => Sys2Proof.Machine.execChannelDisable c s
  | .channelEnable c => Sys2Proof.Machine.execChannelEnable c s
  | .evfChcfgWrite f c v => Sys2Proof.Machine.execEvfChcfgWrite f c v s
  | .evfSrcmapWrite f src v => Sys2Proof.Machine.execEvfSrcmapWrite f src v s
  | .evfLogqWrite f v => Sys2Proof.Machine.execEvfLogqWrite f v s
  | .eventLogIntake => Sys2Proof.Machine.execEventLogIntake s
  | .logRecordWrite f => Sys2Proof.Machine.execLogRecordWrite f s
  | .cntCfgWrite f ai v => Sys2Proof.Machine.execCntCfgWrite f ai v s
  | .counterSnapshot => Sys2Proof.Machine.execCounterSnapshot s
  | .snap => Sys2Proof.Machine.execSnap s
  | .pcieLinkUp width speed => Sys2Proof.Machine.execPcieLinkUp width speed s
  | .dbCmdWrite f v => Sys2Proof.Machine.execDbCmdWrite f v s
  | .dbRingConsWrite f k v => Sys2Proof.Machine.execDbRingConsWrite f k v s
  | .ringArm f k => Sys2Proof.Machine.execRingArm f k s
  | .moderationExpire f k => Sys2Proof.Machine.execModerationExpire f k s
  | .ringEnable f k v => Sys2Proof.Machine.execRingEnable f k v s
  | .descriptorFetch f bytes => Sys2Proof.Machine.execDescriptorFetch f bytes s
  | .cmdNop f idx => Sys2Proof.Machine.execCmdNop f idx s
  | .load f idx => Sys2Proof.Machine.execLoad f idx s
  | .loadAcqConfig f idx data => Sys2Proof.Machine.execLoadAcqConfig f idx data s
  | .readback f idx => Sys2Proof.Machine.execReadback f idx s
  | .run f idx => Sys2Proof.Machine.execRun f idx s
  | .setparam f idx => Sys2Proof.Machine.execSetparam f idx s
  | .fence f idx => Sys2Proof.Machine.execFence f idx s
  | .fenceComplete f idx => Sys2Proof.Machine.execFenceComplete f idx s
  | .descCaptureArm f idx => Sys2Proof.Machine.execDescCaptureArm f idx s
  | .biasset f idx => Sys2Proof.Machine.execBiasset f idx s
  | .stop f idx => Sys2Proof.Machine.execStop f idx s
  | .completionWrite f => Sys2Proof.Machine.execCompletionWrite f s
  | .hifOwnWrite w v => Sys2Proof.Machine.execHifOwnWrite w v s
  | .partitionWrite dram f v => Sys2Proof.Machine.execPartitionWrite dram f v s
  | .functionDisable f vf => Sys2Proof.Machine.execFunctionDisable f vf s
  | .flushComplete f => Sys2Proof.Machine.execFlushComplete f s
  | .functionEnable f numVfs => Sys2Proof.Machine.execFunctionEnable f numVfs s
  | .functionLevelReset f => Sys2Proof.Machine.execFunctionLevelReset f s
  | .scrubWord a found => Sys2Proof.Machine.execScrubWord a found s
  | .memTrainRun v => Sys2Proof.Machine.execMemTrainRun v s
  | .trainRunDone errors => Sys2Proof.Machine.execTrainRunDone errors s
  | .trained => Sys2Proof.Machine.execTrained s
  | .dramSweepComplete id fails => Sys2Proof.Machine.execDramSweepComplete id fails s
  | .sramSweepComplete => Sys2Proof.Machine.execSramSweepComplete s
  | .dramRefresh ch => Sys2Proof.Machine.execDramRefresh ch s
  | .dramRetrain ch eye => Sys2Proof.Machine.execDramRetrain ch eye s
  | .refillTransfer => Sys2Proof.Machine.execRefillTransfer s
  | .panicEnter p => Sys2Proof.Machine.execPanicEnter p s
  | .selfRefreshExit ch => Sys2Proof.Machine.execSelfRefreshExit ch s
  | .haborPortEnable p => Sys2Proof.Machine.execHaborPortEnable p s
  | .trainingDone p => Sys2Proof.Machine.execTrainingDone p s
  | .lockedEntry p => Sys2Proof.Machine.execLockedEntry p s
  | .laneLost p lane => Sys2Proof.Machine.execLaneLost p lane s
  | .tallySend p => Sys2Proof.Machine.execTallySend p s
  | .tallyReceive p lane block chkOk => Sys2Proof.Machine.execTallyReceive p lane block chkOk s
  | .alignSend p lane => Sys2Proof.Machine.execAlignSend p lane s
  | .alignReceive p lane block chkOk parity => Sys2Proof.Machine.execAlignReceive p lane block chkOk parity s
  | .exchangeStart p t1 => Sys2Proof.Machine.execExchangeStart p t1 s
  | .exchangeRequestReceive p lane block chkOk t2 t3 => Sys2Proof.Machine.execExchangeRequestReceive p lane block chkOk t2 t3 s
  | .exchangeAnswerReceive p lane block chkOk t4 => Sys2Proof.Machine.execExchangeAnswerReceive p lane block chkOk t4 s
  | .exchangeTimeout p => Sys2Proof.Machine.execExchangeTimeout p s
  | .packetSend p => Sys2Proof.Machine.execPacketSend p s
  | .packetReceive p sid data crcOk => Sys2Proof.Machine.execPacketReceive p sid data crcOk s
  | .parameterPacket p d0 d1 => Sys2Proof.Machine.execParameterPacket p d0 d1 s
  | .slip p lane => Sys2Proof.Machine.execSlip p lane s
  | .fomUpdate p lane v => Sys2Proof.Machine.execFomUpdate p lane v s
  | .netLinkChange up => Sys2Proof.Machine.execNetLinkChange up s
  | .netFrameReceive frame fcsOk sub => Sys2Proof.Machine.execNetFrameReceive frame fcsOk sub s
  | .netFrameTransmit sub => Sys2Proof.Machine.execNetFrameTransmit sub s
  | .netDbTx => Sys2Proof.Machine.execNetDbTx s
  | .netDbRx => Sys2Proof.Machine.execNetDbRx s
  | .netTxts1Read => Sys2Proof.Machine.execNetTxts1Read s
  | .ptpSecondBoundary => Sys2Proof.Machine.execPtpSecondBoundary s
  | .incrWrite v => Sys2Proof.Machine.execIncrWrite v s
  | .adjWrite v => Sys2Proof.Machine.execAdjWrite v s
  | .accept => Sys2Proof.Machine.execAccept s
  | .pair => Sys2Proof.Machine.execPair s
  | .pairing => Sys2Proof.Machine.execPairing s
  | .portCycleStart r => Sys2Proof.Machine.execPortCycleStart r s
  | .selfcalDone r => Sys2Proof.Machine.execSelfcalDone r s
  | .matchDone r => Sys2Proof.Machine.execMatchDone r s
  | .handover r => Sys2Proof.Machine.execHandover r s
  | .forcedHandover r => Sys2Proof.Machine.execForcedHandover r s
  | .calDone r => Sys2Proof.Machine.execCalDone r s
  | .adcCalStep k => Sys2Proof.Machine.execAdcCalStep k s
  | .adcCalComplete k => Sys2Proof.Machine.execAdcCalComplete k s
  | .astarved k => Sys2Proof.Machine.execAstarved k s
  | .fmodCal m => Sys2Proof.Machine.execFmodCal m s
  | .fstarved m => Sys2Proof.Machine.execFstarved m s
  | .biasTrimMeasure c d => Sys2Proof.Machine.execBiasTrimMeasure c d s
  | .calReload => Sys2Proof.Machine.execCalReload s
  | .faultDetected cause index => Sys2Proof.Machine.execFaultDetected cause index s
  | .tileRelock t => Sys2Proof.Machine.execTileRelock t s
  | .regionRecoveryDone r => Sys2Proof.Machine.execRegionRecoveryDone r s
  | .regionRelease r => Sys2Proof.Machine.execRegionRelease r s
  | .resume r => Sys2Proof.Machine.execResume r s
  | .rcvRelease r => Sys2Proof.Machine.execRcvRelease r s
  | .islandRecoveryDone k ai => Sys2Proof.Machine.execIslandRecoveryDone k ai s
  | .heartbeatTimeout => Sys2Proof.Machine.execHeartbeatTimeout s
  | .undervoltageTrip => Sys2Proof.Machine.execUndervoltageTrip s
  | .vinRise => Sys2Proof.Machine.execVinRise s
  | .vinLoss => Sys2Proof.Machine.execVinLoss s
  | .brownOut => Sys2Proof.Machine.execBrownOut s
  | .resetAssert perst => Sys2Proof.Machine.execResetAssert perst s
  | .resetRelease straps => Sys2Proof.Machine.execResetRelease straps s
  | .brstDrivePort p => Sys2Proof.Machine.execBrstDrivePort p s
  | .brstProbePort p => Sys2Proof.Machine.execBrstProbePort p s
  | .brstAcqPort k => Sys2Proof.Machine.execBrstAcqPort k s
  | .brstOdricCore n => Sys2Proof.Machine.execBrstOdricCore n s
  | .brstCaptureEngine e => Sys2Proof.Machine.execBrstCaptureEngine e s
  | .brstDiscriminators r => Sys2Proof.Machine.execBrstDiscriminators r s
  | .brstHaborPort p => Sys2Proof.Machine.execBrstHaborPort p s
  | .brstNetPort => Sys2Proof.Machine.execBrstNetPort s
  | .brstDone => Sys2Proof.Machine.execBrstDone s
  | .reqActive => Sys2Proof.Machine.execReqActive s
  | .reqIdle => Sys2Proof.Machine.execReqIdle s
  | .reqHibernate => Sys2Proof.Machine.execReqHibernate s
  | .idleExit => Sys2Proof.Machine.execIdleExit s
  | .hibernatePowerOff => Sys2Proof.Machine.execHibernatePowerOff s
  | .hibernateWake => Sys2Proof.Machine.execHibernateWake s
  | .lcTransition target confirm => Sys2Proof.Machine.execLcTransition target confirm s
  | .lcSweepDone => Sys2Proof.Machine.execLcSweepDone s
  | .selfRefreshEntry ch => Sys2Proof.Machine.execSelfRefreshEntry ch s
  | .relockTimeout t => Sys2Proof.Machine.execRelockTimeout t s
  | .toneTriggerRearm t => Sys2Proof.Machine.execToneTriggerRearm t s
  | .blockLock p lane => Sys2Proof.Machine.execBlockLock p lane s
  | .prbsError p lane => Sys2Proof.Machine.execPrbsError p lane s
  | .scratchLoadData n => Sys2Proof.Machine.execScratchLoadData n s
  | .dmaComplete f idx ok data => Sys2Proof.Machine.execDmaComplete f idx ok data s

end Sys2Proof.Machine
end

