-- ==== Sys2Proof/Machine/Advance.lean ====
section
/-!
DEFINITION. What the block does of itself in a tick, with no command waiting: in stages, each of which puts the
commands that are due of the block's own engines on the agenda, or does what has no row of its own (a port's
samples, the tallies, the clocks).  Step.lean takes the stages in order.
-/

namespace Sys2Proof.Machine

/-- A command at once when a condition holds. -/
def Blk.when (b : Blk) (c : Bool) (i : Instr) : Blk := if c then b.sched 0 i else b

/-- A fold over the numbers below `n`. -/
def upto (n : Nat) (f : Blk → Nat → Blk) (b : Blk) : Blk := (List.range n).foldl f b

/-- The tiles run: powered, out of reset, their sample clocks counting (R46, R50, R576). Log 102 (DESIGN CHOICE). -/
def tilesRun (b : Blk) : Bool := !b.pwr.off && b.tim.running && b.rd F.GLB_PWR_STATE != 1

/-! ### Held messages, relays, crevasses (R56 to R61, R71, R139, R423) -/

/-- A held crevasse that has ended without an end tick of its own, or one that begins. -/
def crevStage (b : Blk) (k : Nat) : Blk :=
  let q : AcqPort := Fin.ofNat 16 k
  match (b.acq k).crev with
  | none => if anyWindow b k then b else
      (match crevGap b k with
       | none => b.sched 0 (.crevasseBegin q)
       | some g => b.when (decide (1600 ≤ g)) (.crevasseBegin q))
  | some none => b.when (crevGap b k).isSome (.crevasseEnd q)
  | some (some t) => b.when (decide (t ≤ b.now)) (.crevasseEnd q)

def queueStage (b : Blk) : Blk :=
  if b.pwr.off then b
  else
    let b := upto 3 (fun b i =>
      let isl : Fin 3 := Fin.ofNat 3 i
      b.when (b.dlHeld.any (fun m => m.isl == i) && decide ((b.queueOf i).length < dlCap i)) (.deadlineQueueAdmit isl)) b
    let b := upto 64 (fun b k => b.when ((b.evf.pend.get [] k).any (fun e => decide (e.1 ≤ b.now))) (.relayDue (Fin.ofNat 64 k))) b
    let b := b.when (b.tim.running && b.tim.outFall.isNone && b.rd F.TIM_MSYNC_CTRL_OUT_MODE == 1 &&
      b.now == b.rd F.TIM_MSYNC_OUT_AT_OUT_AT) .msyncOutPulse
    if tilesRun b then upto 16 crevStage b else b

/-! ### Sequencers (R202, R210, R213, R239) -/

/-- The vendor instructions by opcode (R223). -/
def vendorInstr (w : Nat) (q : SeqNo) : Option Instr :=
  match opOf w with
  | 0x00 => some (.nop q) | 0x01 => some (.halt q) | 0x02 => some (.play q) | 0x03 => some (.wait q)
  | 0x04 => some (.waitev q) | 0x05 => some (.waitd q) | 0x06 => some (.brd q) | 0x07 => some (.jmp q)
  | 0x08 => some (.brs q) | 0x09 => some (.call q) | 0x0A => some (.ret q) | 0x0B => some (.loop q)
  | 0x0C => some (.endl q) | 0x0D => some (.setf q) | 0x0E => some (.setp q) | 0x0F => some (.shiftp q)
  | 0x10 => some (.seta q) | 0x11 => some (.emit q) | 0x12 => some (.capt q) | 0x13 => some (.sync q)
  | 0x14 => some (if bit w 56 then .streamPlays q else .streamFetch q)
  | 0x15 => some (.openw q) | 0x16 => some (.opr q) | 0x17 => some (.shot q) | 0x18 => some (.mrkp q)
  | _ => none

/-- The micro-ops by code (R241). -/
def uopInstr (w : Nat) (q : SeqNo) : Instr :=
  match uRow w with
  | 0x01 => .uopNop q | 0x02 => .uopCommit q | 0x03 => .uopMxt q | 0x04 => .uopLdi q | 0x05 => .uopAlu q
  | 0x06 => .uopAlui q | 0x07 => .uopSrd q | 0x08 => .uopSwr q | 0x09 => .uopUjmp q | 0x0A => .uopUbr q
  | 0x0B => .uopSetnpc q | 0x0C => .uopPushc q | 0x0D => .uopPopc q | 0x0E => .uopLpush q | 0x0F => .uopLstep q
  | 0x10 => .uopLtop q | 0x11 => .uopDvrd q | 0x12 => .uopEkind q | 0x13 => .uopElen q | 0x14 => .uopEplay q
  | 0x15 => .uopEplaym q | 0x16 => .uopEstrm q | 0x17 => .uopEclose q | 0x18 => .uopEparm q | 0x19 => .uopEatt q
  | 0x1A => .uopEaux q | 0x1B => .uopBrdarm q | 0x1C => .uopSfetch q | 0x1D => .uopFault q | 0x30 => .uopVchk q
  | _ => .uopUndef q

/-- A customer routine is dispatched at its instruction's dispatch tick. -/
def beginStage (m : Mem) (b : Blk) : Blk :=
  if !tilesRun b then b
  else upto 64 (fun b i =>
    let w := progWord m i (b.seq i).pc
    b.when (feReady b i && !vendorOp w && customerOk b i (opOf w) && decide ((b.seq i).disp ≤ b.now)) (.customerOpcode (Fin.ofNat 64 i))) b

/-- One instruction or micro-op of each front end. -/
def issueStage (m : Mem) (b : Blk) : Blk :=
  if !tilesRun b then b
  else upto 64 (fun b i =>
    let q : SeqNo := Fin.ofNat 64 i
    let s := b.seq i
    if b.seqState i ≠ sRunning then b
    else match s.rt with
      | some r =>
        b.when (decide (s.disp < b.now) && (s.fe == .run || s.fe == .waitQueue))
          (uopInstr (if m.poisoned (ucsPoisonBase (i / 8) + 4 * r.upc) then 0 else ucsWord b (i / 8) r.upc) q)
      | none =>
        if !feReady b i then b
        else
          let w := progWord m i s.pc
          match vendorInstr w q with
          | some c => b.when (decide (s.disp + costOf w ≤ b.now)) c
          | none => b.when (decide (s.disp < b.now) && !customerOk b i (opOf w)) (.reservedOpcode q)) b

/-- An entry's commit point has come, or a lookup's. -/
def commitReady (b : Blk) (i : Nat) : Bool :=
  let s := b.seq i
  b.seqState i == sRunning && (match s.next, s.brd with
    | some (_, r), _ => decide (commitPoint s r ≤ b.now)
    | none, some (_, r) => decide (commitPoint s r ≤ b.now)
    | none, none => false)

/-- Commits in the order of R332: drive ports, then probe ports, ascending. Log 18 (DESIGN CHOICE). -/
def commitStage (b : Blk) : Blk :=
  if !tilesRun b then b
  else (((List.range 48).map portSeq) ++ ((List.range 16).map acqSeq)).foldl (fun b i =>
    b.when (commitReady b i) (.entryCommit (Fin.ofNat 64 i))) b

/-! ### Events, ports, governor (R84, R120, R323 to R329, R428, R533) -/

/-- Deliveries, underruns and levels of the tick. -/
def eventStage (b : Blk) : Blk :=
  if b.pwr.off then b
  else
    let b := b.when (b.evf.flight.any (fun e => decide (e.1 ≤ b.elapsed))) .eventDeliver
    if !tilesRun b then b
    else
      if b.now % 4 ≠ 0 then b
      else upto 48 (fun b p =>
        let b := b.when (underruns b p) (.streamUnderrun (Fin.ofNat 48 p))
        b.when (b.on F.DRV_STATUS_LEVEL_PEND p && b.ostate p == oOn && portSilent b p) (.levelAdopt (Fin.ofNat 48 p))) b

/-- The energies whose counting tick has come enter the tallies (R323). Log 52 (DEDUCED). -/
def countDue (b : Blk) : Blk :=
  let due := b.gov.flight.filter (fun e => decide (e.1 ≤ b.now))
  let b := { b with gov := { b.gov with flight := b.gov.flight.filter (fun e => !decide (e.1 ≤ b.now)) } }
  due.foldl (fun b e => countTick b (e.1 - 8) e.2.1 e.2.2) b

def portStage (m : Mem) (b : Blk) : Blk :=
  if !tilesRun b then b
  else
    let b := upto 8 rotTick b
    let b := upto 48 (fun b p => measure (issueTick m (b.rd F.GOV_LCNT_GG p) p (portBegin b p)) p) b
    let b := compareCeilings (takeSnap (releaseResv (countDue b)))
    upto 16 markerTick b

/-! ### Odric cores (R266 to R293) -/

/-- The parallel and immediate operations by code (R276). -/
def opInstr (o : Nat) (n : CoreNo) : Instr :=
  match o with
  | 0x00 => .odrNop n | 0x01 => .add n | 0x02 => .sub n | 0x03 => .and n | 0x04 => .or n | 0x05 => .xor n
  | 0x06 => .shl n | 0x07 => .shr n | 0x08 => .sar n | 0x09 => .mov n | 0x0A => .neg n | 0x0B => .abs n
  | 0x0C => .min n | 0x0D => .max n | 0x0E => .parm n | 0x0F => .popc n | 0x10 => .selnz n | 0x11 => .selz n
  | 0x12 => .mul n | 0x13 => .mulh n | 0x14 => .adds n | 0x15 => .subs n | 0x16 => .cmplt n | 0x17 => .cmpeq n
  | 0x18 => .extb n | 0x19 => .mta n | 0x1A => .mtm n | 0x1B => .mfa n | 0x1C => .mfm n | 0x20 => .cmul n
  | 0x21 => .cmac n | 0x22 => .cmsu n | 0x23 => .cmulj n | 0x24 => .cmacj n | 0x25 => .cmsuj n | 0x26 => .cclr n
  | 0x27 => .cadd n | 0x30 => .sacc16 n | 0x31 => .sacc32 n | 0x32 => .sacc32r n | 0x33 => .lacc n
  | 0x34 => .lacc32 n | 0x38 => .hsr n | 0x39 => .hpar n | 0x3A => .hbr n | 0x3B => .evfire n
  | _ => .odrReservedOp n

/-- The control instructions by code (R287). -/
def ctrlInstr (c : Nat) (n : CoreNo) : Instr :=
  match c with
  | 0x00 => .nopc n | 0x01 => .br n | 0x02 => .odrCall n | 0x03 => .odrRet n | 0x04 => .rti n | 0x05 => .rep n
  | 0x06 => .repr n | 0x07 => .waiti n | 0x08 => .odrHalt n | 0x09 => .ei n | 0x0A => .di n
  | _ => .odrReservedOp n

/-- The row of a core's instruction word. -/
def coreInstr (w : Nat) (n : CoreNo) : Instr :=
  if !opAssigned w then .odrReservedOp n
  else if isPar w ∨ isImm w then opInstr (odrOp w) n
  else if isLs w then (if bit w 28 then .lsStore n else .lsLoad n)
  else if isLdi w then .ldi n
  else ctrlInstr (cop w) n

/-- One core cycle (R291, R302, R306). Log 31 (DESIGN CHOICE). -/
def coreCycle (m : Mem) (b : Blk) (i : Nat) : Blk :=
  let n : CoreNo := Fin.ofNat 16 i
  let o := b.odr i
  let b := if o.timer = 1 then b.sched 0 (.coreTimerZero n)
    else if o.timer = 0 then b else b.setOdr i { o with timer := o.timer - 1 }
  let o := b.odr i
  if o.held.isSome then
    if o.handq.length < 16 then b.sched 0 (.handoffQueueAdmit n) else b.inc F.ODR_CNT_HO_STALL 1 i
  else if 0 < o.stall then b.setOdr i { o with stall := o.stall - 1 }
  else if canTake b i && (takeLine b i).isSome then b.sched 0 (.interruptTake n)
  else b.when (b.coreState i == cRunning && o.wait.isNone) (coreInstr (coreWord m b i) n)

/-- The cores' first cycle of the tick, and what they send. Log 31 (DESIGN CHOICE). -/
def coreStage (m : Mem) (b : Blk) : Blk :=
  if !tilesRun b then b else upto 16 (coreCycle m) (upto 16 hoSend b)

/-- The second cycle of an odd tick: three cycles run in two ticks. Log 31 (DESIGN CHOICE). -/
def coreStage2 (m : Mem) (b : Blk) : Blk :=
  if !tilesRun b ∨ b.elapsed % 2 = 0 then b else upto 16 (coreCycle m) b

/-! ### The Firn island (R364 to R391) -/

/-- One cycle of the Firn oscillator. Log 59 (DESIGN CHOICE). -/
def firnStage (b : Blk) : Blk :=
  if b.pwr.vin = 2 ∨ !Config.firnCycle b.elapsed then b
  else
    let f := (b.rd F.FRN_TIME_FTIME + 1) % 2 ^ 48
    let b := b.wr F.FRN_TIME_FTIME f
    let b := b.when (f % 50 == 0) (.biasUpdateSlot 0 0 0)
    let b := b.when (f % 3200 == 0) .trimGrade
    let b := b.when (f % 500 == 0) .rulePass
    let b := b.when (f % 65536 == 0 && b.tim.running && !b.pwr.off) .firnTimePairing
    let lper := b.rd F.FRN_CTRL_LPER
    let b := b.when (lper != 0 && f % (50000 * max 1 lper) == 0) .latchPeriodClear
    let b := b.when (!b.pwr.off && !b.frn.evq.isEmpty) .firnEventDeliver
    let b := entryEnd (entryEnd b 0) 1
    if (b.frn.cur.find 1).isNone ∧ 100000 ≤ (f + 2 ^ 48 - b.frn.vendAt) % 2 ^ 48 then vendorBegin b else b

/-! ### Memory, links, network time, host (R439, R444 to R529) -/

/-- Log 44 (DESIGN CHOICE). -/
def memStage (b : Blk) : Blk :=
  if b.pwr.off then b
  else
    let b := streamLoad (upto 48 panicTick b)
    let b := upto (if b.is32 then 2 else 1) (fun b _ => b.when (refillPort b).isSome .refillTransfer) b
    upto (channels b) (fun b c => b.when (b.elapsed % 3120 == 390 * c) (.dramRefresh (Fin.ofNat 8 c))) b

/-- One Habor port in a tick: its slots, the start of an exchange, locked mode, figures of merit, packets.
Log 95 (DESIGN CHOICE), 98 (DESIGN CHOICE). -/
def linkStage (b : Blk) (p : Nat) : Blk :=
  let h : HabPort := Fin.ofNat 4 p
  let b := if b.tim.running then lockCheck (linkSlots b p) p else b
  let b := b.when (b.lnkState p == lnkSynced && b.tim.running && b.now % 33 == 0) (.lockedEntry h)
  let b := if timed2 b p ∧ b.now % (33 * 1024) = 0 then b.spend.sched 0 (.exchangeStart h (16 * b.now + b.fresh)) else b
  let b := if b.on F.LNK_PCFG_EN p ∧ b.elapsed % 8000 = 0 then
      (b.spend.sched 0 (.fomUpdate h 0 (b.fresh % 256))).sched 0 (.fomUpdate h 1 (b.spend.fresh % 256)) |>.spend
    else b
  b.when (b.lnkState p == lnkFree && decide (8 ≤ bufUsed b p 0)) (.packetSend h)

/-- The 250 MHz edge of the PTP clock falls in one tick in 3.2. Log 98 (DESIGN CHOICE), 101 (DEDUCED). -/
def netStage (b : Blk) : Blk :=
  if b.pwr.off then b
  else
    let b := if b.elapsed % 16 ∈ [0, 3, 6, 9, 12] then ptpEdge b else b
    let b := b.when (pairTick b && (b.net.pair || b.net.auto)) .pairing
    if b.on F.NET_CFG_EN && b.on F.NET_STAT_LINK && b.on F.NET_TXQ_EN && !b.net.tx.stopped && inSpart0 b (txDesc b) 32 then
      b.spend.sched 0 (.netFrameTransmit (Fin.ofNat 16 b.fresh))
    else b

/-- The collector, the log and what the rings have room for. Log 37 (DESIGN CHOICE). -/
def recordStage (b : Blk) : Blk :=
  if b.pwr.off ∨ islBusy b 2 then b
  else
    let b := b.when (!b.dsc.arriving.isEmpty || !b.dsc.intake.isEmpty) .collectorIntake
    let b := b.when (!b.evf.logq.isEmpty) .eventLogIntake
    let b := b.when ((b.on F.CNT_CTRL_DUMP_EN && b.now % (max 1 (b.rd F.CNT_CTRL_PERIOD)) == 0) ||
      b.evf.snapAt.any (fun t => decide (t ≤ b.elapsed))) .counterSnapshot
    if islBusy b 0 then b
    else upto 16 (fun b f =>
      let g : Func := Fin.ofNat 16 f
      let b := if ringRoom b f 2 then
          (if markerDue b f then b.sched 0 (.lossMarkerWrite g)
           else b.when (b.dsc.buffer.any (fun e => e.1 == f)) (.resultRecordWrite g)) else b
      b.when (ringRoom b f 4 && b.evf.logbuf.any (fun e => e.1 == f)) (.logRecordWrite g)) b

/-- SAFE holds the dies in reset 100 µs after it begins (R562); Hibernate powers off (R579). Log 91 (DEDUCED). -/
def powerStage (b : Blk) : Blk :=
  let b := match b.rcv.safeOff with
    | some t => if t ≤ b.elapsed then { b with
        pwr := { b.pwr with off := true }
        rcv := { b.rcv with safeOff := none } } else b
    | none => b
  b.when (!b.pwr.off && b.rd F.GLB_PWR_STATE == 2 && hibReady b) .hibernatePowerOff

def restStage (b : Blk) : Blk :=
  let b := firnStage b
  let b := memStage b
  let b := if b.pwr.off then b else upto 4 linkStage b
  let b := netStage b
  let b := if b.pwr.off then b else calTick (rcvTick (hifTick b))
  powerStage (recordStage b)

/-- The last of a tick: the counters take what the tick counted (R437). -/
def countStage (b : Blk) : Blk := if b.pwr.off then b else countersTick b

/-- The stages of a tick, in order. Log 1 (DESIGN CHOICE). -/
def stages : List (Mem → Blk → Blk) :=
  [fun _ => queueStage, beginStage, issueStage, fun _ => commitStage, fun _ => eventStage, portStage, coreStage,
   coreStage2, fun _ => restStage, fun _ => countStage]

/-- The deadline messages that take effect in this tick, one for each of the three queues that holds one.
Log 11 (DEDUCED). -/
def messagesDue (b : Blk) : List (Nat × Instr) :=
  (([0, 1, 2] : List (Fin 3)).filter (fun (i : Fin 3) => (b.queueOf i.val).any (dlDue b))).map
    (fun (i : Fin 3) => (b.elapsed, Instr.deadlineApply i))

/-- The windows of which a bin ends at this tick (R321). Log 11 (DEDUCED). -/
def binsDue (b : Blk) : List (Nat × Instr) :=
  if !tilesRun b then []
  else (([0, 1] : List (Fin 2)).filter (fun (w : Fin 2) => b.now % (4 * max 1 (binLen b w.val)) == 0)).map
    (fun (w : Fin 2) => (b.elapsed, Instr.binBoundary w))

/-- Bin boundaries and the messages that take effect in a tick come before everything else of the tick (R121,
R232, R321). Log 11 (DEDUCED). -/
def messagesFirst (b : Blk) : Blk :=
  if b.pwr.off then b else { b with agenda := binsDue b ++ messagesDue b ++ b.agenda }

/-- The next tick begins. Log 1 (DESIGN CHOICE). -/
def nextTick (b : Blk) : Blk :=
  messagesFirst { b with elapsed := b.elapsed + 1, now := if b.tim.running then b.now + 1 else b.now, tickStage := 0 }

/-- With nothing due and nothing waiting: the next stage of the tick, or the next tick. Log 1 (DESIGN CHOICE). -/
def advanceBlk (m : Mem) (b : Blk) : Blk :=
  match stages[b.tickStage]? with
  | some f => f m { b with tickStage := b.tickStage + 1 }
  | none => nextTick b

/-- The follow-up commands due now, in the order they were set up. Log 1 (DESIGN CHOICE). -/
def dueNow (b : Blk) : List Instr := (b.agenda.filter (fun e => decide (e.1 ≤ b.elapsed))).map (·.2)

/-- The agenda without them. Log 1 (DESIGN CHOICE). -/
def notDue (b : Blk) : Blk := { b with agenda := b.agenda.filter (fun e => !decide (e.1 ≤ b.elapsed)) }

/-- What the machine does with no command waiting: follow-up commands that are due become commands that wait;
with none due, the block goes on by itself. Log 1 (DESIGN CHOICE). -/
def idle (s : State) : State :=
  match dueNow s.blk with
  | [] => { s with blk := advanceBlk s.mem s.blk }
  | l => { s with blk := notDue s.blk, pending := l }

end Sys2Proof.Machine
end

