-- ==== Sys2Proof/Machine/Pins.lean ====
section
/-!
DEFINITION. The sideband balls the module drives (R622, R625, R626), each as the level the state gives it
while VSB is present: `true` is high or, for an open-drain ball, released.
-/

namespace Sys2Proof.Machine

/-- VIN is below 3.0 V: everything is off (R570). -/
def noVin (b : Blk) : Bool := b.pwr.vin == 2

/-- The condition "Firn only" of R626: VIN between 3.0 V and the undervoltage threshold, or thermal shutdown. -/
def firnOnly (b : Blk) : Bool := b.pwr.vin == 1 || b.on F.FRN_THERM_SHDN

/-- FAULT_N: low while a cause of R564 holds. Log 103 (DEDUCED). -/
def pinFaultN (b : Blk) : Bool := noVin b || !faultN b

/-- ALERT_N (R381, R382). Log 103 (DEDUCED). -/
def pinAlertN (b : Blk) : Bool := noVin b || !alertN b

/-- SAFE_N: low while the SAFE state holds. Log 103 (DEDUCED). -/
def pinSafeN (b : Blk) : Bool := noVin b || firnOnly b || !b.pwr.safe

/-- PGOOD: high while rails 2 to 6 are in regulation. Log 103 (DEDUCED). -/
def pinPgood (b : Blk) : Bool := !noVin b && !firnOnly b && !hibernated b

/-- LOCK: high while TIM_STATUS.SCLK_LOCK is 1. Log 103 (DEDUCED). -/
def pinLock (b : Blk) : Bool := pinPgood b && !b.pwr.off && b.on F.TIM_STATUS_SCLK_LOCK

/-- PE_WAKE_N: driven low from a wake to the link's training (R580). Log 103 (DEDUCED). -/
def pinPeWakeN (b : Blk) : Bool := noVin b || !b.pwr.peWake

/-- REF_OUT: whether it carries the module's 100 MHz reference; low, or undriven without power, otherwise (R77). -/
def pinRefOut (b : Blk) : Bool := pinPgood b && !b.pwr.off && b.on F.TIM_REF_CFG_REFOUT_EN

end Sys2Proof.Machine
end

