-- ==== Sys2Proof/Safety.lean ====
section
/-!
DEFINITION. The terms claims are made in: a command completes, registers and stores that stay as they were,
the invariant of the stores.
-/

namespace Sys2Proof.Machine

/-- The command completes and touches neither the queue nor the stores; `P` holds of the block after it. -/
def Completes (c : Instr) (s : State) (P : Blk → Prop) : Prop :=
  ∃ t, exec c s = .next t ∧ t.pending = s.pending ∧ t.mem = s.mem ∧ P t.blk

/-- The command completes and does not touch the queue; `P` holds of the block and the stores after it. -/
def CompletesMem (c : Instr) (s : State) (P : Blk → Mem → Prop) : Prop :=
  ∃ t, exec c s = .next t ∧ t.pending = s.pending ∧ P t.blk t.mem

/-- Every register field but those in `ks` reads as before, and its pending write is as before. -/
def Keeps (ks : List Key) (b b' : Blk) : Prop :=
  ∀ k, k ∉ ks → b'.get k = b.get k ∧ b'.force.find k = b.force.find k

/-- No register field but `ks` changes, and what lies beside the registers is as it was, but for commands
that are to follow. -/
def OnlyRegs (ks : List Key) (b b' : Blk) : Prop :=
  Keeps ks b b' ∧ { b' with regs := b.regs, force := b.force, agenda := b.agenda } = b

/-- A follow-up command is due `dt` ticks from now. -/
def Follows (b : Blk) (dt : Nat) (c : Instr) : Prop := (b.elapsed + dt, c) ∈ b.agenda

/-- Of the block only sequencer `q`'s own state changes: no register, no port, no other sequencer. -/
def OnlySeq (q : Nat) (b b' : Blk) : Prop :=
  { b' with seqs := b.seqs } = b ∧ ∀ x, x ≠ q → b'.seq x = b.seq x

/-- Sequencer `q` is about to complete the instruction word `w`, whose opcode is `op`: its front end has
reached it, the word is not poisoned and breaks no rule of R223 to R225. -/
def AtWord (s : State) (q : SeqNo) (op w : Nat) : Prop :=
  progWord s.mem q (s.blk.seq q).pc = w ∧ opOf w = op ∧ feReady s.blk q = true ∧
    wordPoisoned s.mem s.blk q = false ∧ wordIllegal s.blk q w = false

/-- The front end of `q` goes on at `pc` with the sequencer state `x` otherwise; nothing but `q` changes. -/
def GoesOn (q : SeqNo) (b : Blk) (x : SeqSt) (pc : Nat) (b' : Blk) : Prop :=
  (∃ d, b.now ≤ d ∧ d ≤ b.now + 1 ∧
    b'.seq q = { x with pc := pc % 4096, disp := d, latch := [], trapDue := false }) ∧ OnlySeq q b b'

/-- The entry `e` is complete: the front end of `q` waits for its commit, the PC after the instruction. -/
def ClosesAs (q : SeqNo) (b : Blk) (e : Entry) (b' : Blk) : Prop :=
  b'.seq q = { b.seq q with pc := nextPc b q, build := Entry.empty, next := some (e, b.now), fe := .waitCommit,
                            latch := [] } ∧ OnlySeq q b b'

/-- The rows of the vendor instructions, with their opcodes (R223). -/
def vendorRows (q : SeqNo) : List (Nat × Instr) :=
  [(0x00, .nop q), (0x01, .halt q), (0x02, .play q), (0x03, .wait q), (0x04, .waitev q), (0x05, .waitd q),
   (0x06, .brd q), (0x07, .jmp q), (0x08, .brs q), (0x09, .call q), (0x0A, .ret q), (0x0B, .loop q),
   (0x0C, .endl q), (0x0D, .setf q), (0x0E, .setp q), (0x0F, .shiftp q), (0x10, .seta q), (0x11, .emit q),
   (0x12, .capt q), (0x13, .sync q), (0x14, .streamFetch q), (0x14, .streamPlays q), (0x15, .openw q),
   (0x16, .opr q), (0x17, .shot q), (0x18, .mrkp q)]

/-- The instruction is an error at the PC (R229, R231): its sticky bit, the PC of the error, a soft stop. -/
def IsError (q : SeqNo) (b : Blk) (stack : Bool) (b' : Blk) : Prop :=
  b'.rd F.SEQ_STATUS_STACK q = (if stack then 1 else b.rd F.SEQ_STATUS_STACK q) ∧
    b'.rd F.SEQ_STATUS_ILLEGAL q = (if stack then b.rd F.SEQ_STATUS_ILLEGAL q else 1) ∧
    b'.rd F.SEQ_STATUS_ERR_PC q = (b.seq q).pc % 2 ^ F.SEQ_STATUS_ERR_PC.wid ∧ (b'.seq q).fe = .halted ∧
    (b'.seq q).stopAt.isSome = true ∧ (b'.seq q).next = (b.seq q).next

/-- The routine `r` of sequencer `q` is about to issue the microword `w`, of the row `code`; the word is not
poisoned. -/
def AtUop (s : State) (q : SeqNo) (code w : Nat) (r : Rt) : Prop :=
  (s.blk.seq q).rt = some r ∧ s.blk.seqState q = 2 ∧ ucsWord s.blk (q.val / 8) r.upc = w ∧ uRow w = code ∧
    s.mem.poisoned (ucsPoisonBase (q.val / 8) + 4 * r.upc) = false

/-- The micro-op is done and is not the LAST: the routine of `q` goes on as `r`, the sequencer is `x` otherwise. -/
def NextUop (q : SeqNo) (b : Blk) (x : SeqSt) (r : Rt) (b' : Blk) : Prop :=
  b'.seq q = { x with rt := some r, disp := b.now, fe := .run } ∧ OnlySeq q b b'

/-- The routine past the microword it issues. -/
def pastUop (r : Rt) : Rt := { r with upc := (r.upc + 1) % 8192 }

/-- Core `n` is about to issue the word `w` at its PC with nothing under way: no load, no repetition, no delay slot,
no halt asked for; the word is not poisoned and obeys R276 to R280. -/
def AtCore (s : State) (n : CoreNo) (w : Nat) : Prop :=
  let o := s.blk.odr n
  coreWord s.mem s.blk n = w ∧ s.blk.coreState n = 1 ∧ o.held = none ∧ o.wait = none ∧ o.loads = [] ∧
    o.rep = none ∧ o.jump = none ∧ o.halt = false ∧ s.mem.poisoned (odrPmem n + 4 * (o.pc % 65536)) = false ∧
    fieldsOk w = true

/-- The word holds no parallel move. -/
def noMoves (w : Nat) : Bool := (moves w).all (fun x => x.kind == 0)

/-- Core `n` goes on at the next word with the core state `x` otherwise; only the registers `ks` change. -/
def CoreTo (n : CoreNo) (b : Blk) (x : OdrSt) (ks : List Key) (b' : Blk) : Prop :=
  b'.odr n = { x with pc := (x.pc + 1) % 65536 } ∧ Keeps ks b b' ∧ ∀ k, k ≠ n.val → b'.odr k = b.odr k

/-- The core faults at its PC (R308, R309). -/
def CoreFaults (n : CoreNo) (b : Blk) (cause : Nat) (b' : Blk) : Prop :=
  b'.coreState n = 3 ∧ b'.rd F.ODR_STATUS_FAULT_CAUSE n = cause ∧
    b'.rd F.ODR_STATUS_FAULT_PC n = (b.odr n).pc % 2 ^ F.ODR_STATUS_FAULT_PC.wid ∧
    Follows b' 0 (.faultDetected 7 n)

/-- Where register g[i] of the active bank lies. -/
def gKey (b : Blk) (n i : Nat) : Key :=
  if shadowOn b n then F.ODR_SHADOW_G_VAL.key n i else F.ODR_MAIN_G_VAL.key n i

/-- Where address register a[i] of the active bank lies. -/
def aKey (b : Blk) (n i : Nat) : Key :=
  if shadowOn b n then F.ODR_SHADOW_A_VAL.key n i else F.ODR_MAIN_A_VAL.key n i

/-- Where the parts of accumulator c[i] of the active bank lie, and OVF. -/
def cKeys (b : Blk) (n i : Nat) : List Key :=
  F.ODR_STATUS_OVF.key n 0 ::
    if shadowOn b n then [F.ODR_SHADOW_CRE_VAL.key n i, F.ODR_SHADOW_CIM_VAL.key n i]
    else [F.ODR_MAIN_CRE_VAL.key n i, F.ODR_MAIN_CIM_VAL.key n i]

/-- Descriptor `idx` of function `f`, with opcode `op`, may start now (R460): the interface serves `f`, no reserved
bit is set, no outcome of an earlier message is still to be taken. -/
def AtCmd (b : Blk) (f : Func) (idx op : Nat) (c : Cmd) : Prop :=
  serving b f = true ∧ cmdAt b f idx = some c ∧ c.opc = op ∧
    (startable (cmdsOf b f)).any (fun x => x.idx == idx) = true ∧ c.clean = true ∧ b.verdicts = []

/-- The descriptor has completed with a status and a detail; SILENT suppresses the entry of an OK (R459, R462). -/
def CmdEnds (f : Func) (idx : Nat) (c : Cmd) (st detail : Nat) (b : Blk) : Prop :=
  cmdAt b f idx = none ∧ (st ≠ 0 ∨ bit (c.le 1 1) 0 = false → compBytes c st detail ∈ b.hif.comps.get [] f)

/-- The descriptor has started and waits. -/
def CmdWaits (f : Func) (idx : Nat) (c : Cmd) (b : Blk) : Prop := cmdAt b f idx = some { c with started := true }

/-- The stores are in canonical form (R448, R477). -/
def Inv (s : State) : Prop := s.mem.wf = true

/-- What a store byte reads as. -/
def SameBytes (m m' : Mem) : Prop := ∀ a, m'.byte a = m.byte a

end Sys2Proof.Machine
end

