-- ==== Sys2Proof/WellFormed.lean ====
section
/-!
DEFINITION. Which commands are well formed: what the operand types do not already bound.  A command's
meaning does not ask for it: registers mask what they take, and a bus request longer than the map reaches
what R596 says lies there.
-/

namespace Sys2Proof

open Machine

/-- End of what a function reaches with a register request: 4 MiB of BAR0 and, behind it, the 4 KiB page of
BAR4 (R447). -/
abbrev barEnd : Nat := 0x401000

/-- `n` bytes, at least one, from `a` within `hi`. -/
def spans (a n hi : Nat) : Bool := decide (1 ≤ n) && decide (a + n ≤ hi)

/-- Byte enables of `n` bytes. -/
def enables (n be : Nat) : Bool := decide (be < 2 ^ n)

/-- Data of `n` bytes. -/
def holds (n v : Nat) : Bool := decide (v < 2 ^ (8 * n))

/-- Tone slots of a DAC port (R84, R127). -/
def portSlots (p : DacPort) : Nat := if p.val < 32 then 16 else 32

/-- A message's target names something that is there. -/
def targetWf (t : DlTarget) : Bool :=
  match t with
  | .host _ wid => decide (1 ≤ wid) && decide (wid ≤ 64)
  | .param _ wid v => decide (1 ≤ wid) && decide (wid ≤ 64) && decide (v < 2 ^ wid)
  | .start _ pc shot => decide (pc < 4096) && decide (shot < 2 ^ 32)
  | .branch _ target => decide (target < 4096)
  | .sreg _ i v => decide (i < 16) && decide (v < 2 ^ 32)
  | .phrst p slot => decide (slot < portSlots p)
  | .fire _ ch => decide (ch < 256)
  | .snap => true

/-- A deadline of 48 bits, a class of R62 or none, one of the three islands, a target that is there. -/
def dlMsgWf (m : DlMsg) : Bool :=
  decide (m.deadline.getD 0 < 2 ^ 48) && decide (m.cls ≤ 6) && decide (m.isl < 3) && targetWf m.target

/-- A command is well formed. -/
def Instr.wf (c : Instr) : Bool :=
  match c with
  | .registerWrite _ addr nbytes be data => spans addr nbytes barEnd && enables nbytes be && holds nbytes data
  | .readClear _ addr nbytes => spans addr nbytes barEnd
  | .viewDataAccess _ _ half nbytes data => decide (half < 2) && decide (1 ≤ nbytes) && decide (nbytes + 4 * half ≤ 8) && holds nbytes data
  | .apertureAccess _ _ off nbytes be data => spans off nbytes 0x8000 && enables nbytes be && holds nbytes data
  | .bar2Access _ _ addr nbytes be data => spans addr nbytes (2 ^ 36) && enables nbytes be && holds nbytes data
  | .chmapCheckDone _ => true
  | .deadlineMsgArrive m => dlMsgWf m
  | .deadlineQueueAdmit _ => true
  | .deadlineApply _ => true
  | .msyncEdge _ _ => true
  | .phrst p slot => decide (slot.val < portSlots p)
  | .modeSwitchDone _ => true
  | .portEnSet _ => true
  | .portEnClear _ => true
  | .rampEnd _ => true
  | .levelStage _ => true
  | .levelAdopt _ => true
  | .holdEnd _ => true
  | .streamUnderrun _ => true
  | .earlyToneStop p _ d => decide (32 ≤ p.val) && decide (d < 2 ^ 64)
  | .acqEnSet _ => true
  | .adcReady _ => true
  | .gainSettled _ => true
  | .acqCfgCheckDone _ => true
  | .lateDecision _ _ => true
  | .trkEnSet _ _ => true
  | .crevasseBegin _ => true
  | .crevasseEnd _ => true
  | .dvOwnTileUpdate _ _ _ _ d => decide (d < 2 ^ 64)
  | .dvOtherTileUpdate _ _ _ _ d => decide (d < 2 ^ 64)
  | .exportLatchSet _ _ _ _ d => decide (d < 2 ^ 64)
  | .importUpdate _ _ _ _ _ _ _ => true
  | .resultRecordWrite _ => true
  | .lossMarkerWrite _ => true
  | .shotSummary _ shot_ => decide (shot_ < 2 ^ 32)
  | .seqEnSet _ => true
  | .seqEnClear _ => true
  | .startTrigger _ birth => decide (birth < 2 ^ 64)
  | .seqStart _ => true
  | .entryCommit _ => true
  | .entryStart _ => true
  | .haltRetire _ => true
  | .nop _ => true
  | .halt _ => true
  | .play _ => true
  | .wait _ => true
  | .waitev _ => true
  | .waitd _ => true
  | .brd _ => true
  | .jmp _ => true
  | .brs _ => true
  | .call _ => true
  | .ret _ => true
  | .loop _ => true
  | .endl _ => true
  | .setf _ => true
  | .setp _ => true
  | .shiftp _ => true
  | .seta _ => true
  | .emit _ => true
  | .capt _ => true
  | .sync _ => true
  | .streamFetch _ => true
  | .streamPlays _ => true
  | .openw _ => true
  | .opr _ => true
  | .shot _ => true
  | .mrkp _ => true
  | .customerOpcode _ => true
  | .reservedOpcode _ => true
  | .waitdSatisfied _ => true
  | .waitdTimeout _ => true
  | .waitevEvent _ _ => true
  | .waitevTimeout _ => true
  | .seqJreq _ _ => true
  | .branchRequest _ _ => true
  | .softStopBegin _ => true
  | .softStopComplete _ => true
  | .sreg _ _ v => decide (v < 2 ^ 32)
  | .uopUndef _ => true
  | .uopNop _ => true
  | .uopCommit _ => true
  | .uopMxt _ => true
  | .uopLdi _ => true
  | .uopAlu _ => true
  | .uopAlui _ => true
  | .uopSrd _ => true
  | .uopSwr _ => true
  | .uopUjmp _ => true
  | .uopUbr _ => true
  | .uopSetnpc _ => true
  | .uopPushc _ => true
  | .uopPopc _ => true
  | .uopLpush _ => true
  | .uopLstep _ => true
  | .uopLtop _ => true
  | .uopDvrd _ => true
  | .uopEkind _ => true
  | .uopElen _ => true
  | .uopEplay _ => true
  | .uopEplaym _ => true
  | .uopEstrm _ => true
  | .uopEclose _ => true
  | .uopEparm _ => true
  | .uopEatt _ => true
  | .uopEaux _ => true
  | .uopBrdarm _ => true
  | .uopSfetch _ => true
  | .uopFault _ => true
  | .uopVchk _ => true
  | .verifyDone _ => true
  | .odrNop _ => true
  | .add _ => true
  | .sub _ => true
  | .and _ => true
  | .or _ => true
  | .xor _ => true
  | .shl _ => true
  | .shr _ => true
  | .sar _ => true
  | .mov _ => true
  | .neg _ => true
  | .abs _ => true
  | .min _ => true
  | .max _ => true
  | .parm _ => true
  | .popc _ => true
  | .selnz _ => true
  | .selz _ => true
  | .mul _ => true
  | .mulh _ => true
  | .adds _ => true
  | .subs _ => true
  | .cmplt _ => true
  | .cmpeq _ => true
  | .extb _ => true
  | .mta _ => true
  | .mtm _ => true
  | .mfa _ => true
  | .mfm _ => true
  | .cmul _ => true
  | .cmac _ => true
  | .cmsu _ => true
  | .cmulj _ => true
  | .cmacj _ => true
  | .cmsuj _ => true
  | .cclr _ => true
  | .cadd _ => true
  | .sacc16 _ => true
  | .sacc32 _ => true
  | .sacc32r _ => true
  | .lacc _ => true
  | .lacc32 _ => true
  | .hsr _ => true
  | .hpar _ => true
  | .hbr _ => true
  | .evfire _ => true
  | .odrReservedOp _ => true
  | .lsLoad _ => true
  | .lsStore _ => true
  | .ldi _ => true
  | .nopc _ => true
  | .br _ => true
  | .odrCall _ => true
  | .odrRet _ => true
  | .rti _ => true
  | .rep _ => true
  | .repr _ => true
  | .waiti _ => true
  | .odrHalt _ => true
  | .ei _ => true
  | .di _ => true
  | .interruptTake _ => true
  | .coreTimerZero _ => true
  | .handoffQueueAdmit _ => true
  | .mailboxNotice _ _ _ _ _ _ d => decide (d < 2 ^ 64)
  | .groupFire _ _ => true
  | .vetoNotice _ => true
  | .binBoundary _ => true
  | .lastResortCrossing _ _ => true
  | .muteRampRelease _ => true
  | .peerTallyStale _ _ _ => true
  | .biasUpdateSlot apart far limit => decide (apart < 2 ^ 64) && decide (far < 2 ^ 64) && decide (limit < 2 ^ 64)
  | .presetDone _ _ => true
  | .wake src index => decide (1 ≤ src.val) && decide (index < 128)
  | .toneTriggerFire _ => true
  | .toneTriggerArrive _ _ _ => true
  | .trgTcfgWrite _ => true
  | .generalUnitFire _ _ => true
  | .generalUnitTimeout _ _ => true
  | .captureTrigger _ stamp _ => decide (stamp < 2 ^ 68)
  | .segmentClose _ _ => true
  | .captureFlush _ => true
  | .markerPatternStart _ _ by_ => decide (by_ ≤ 64)
  | .eventPublish _ birth detail ftime => decide (birth < 2 ^ 64) && decide (detail < 2 ^ 64) && decide (ftime < 2 ^ 48)
  | .relayDue _ => true
  | .evfFire _ _ => true
  | .channelDisable _ => true
  | .channelEnable _ => true
  | .logRecordWrite _ => true
  | .moderationExpire _ _ => true
  | .cmdNop _ idx => decide (idx < 2 ^ 32)
  | .load _ idx => decide (idx < 2 ^ 32)
  | .loadAcqConfig _ idx _ => decide (idx < 2 ^ 32)
  | .readback _ idx => decide (idx < 2 ^ 32)
  | .run _ idx => decide (idx < 2 ^ 32)
  | .setparam _ idx => decide (idx < 2 ^ 32)
  | .fence _ idx => decide (idx < 2 ^ 32)
  | .fenceComplete _ idx => decide (idx < 2 ^ 32)
  | .descCaptureArm _ idx => decide (idx < 2 ^ 32)
  | .biasset _ idx => decide (idx < 2 ^ 32)
  | .stop _ idx => decide (idx < 2 ^ 32)
  | .completionWrite _ => true
  | .flushComplete _ => true
  | .functionLevelReset _ => true
  | .trainRunDone _ => true
  | .dramSweepComplete id fails => decide (id < 256) && decide (fails < 256)
  | .dramRefresh _ => true
  | .lockedEntry _ => true
  | .tallySend _ => true
  | .exchangeStart _ t1 => decide (t1 < 2 ^ 68)
  | .exchangeTimeout _ => true
  | .packetSend _ => true
  | .parameterPacket _ d0 d1 => decide (d0 < 2 ^ 64) && decide (d1 < 2 ^ 64)
  | .fomUpdate _ _ v => decide (v < 2 ^ 8)
  | .netFrameTransmit _ => true
  | .selfcalDone _ => true
  | .matchDone _ => true
  | .calDone _ => true
  | .adcCalComplete _ => true
  | .fmodCal _ => true
  | .biasTrimMeasure _ _ => true
  | .faultDetected cause _ => decide (1 ≤ cause) && decide (cause ≤ 14)
  | .regionRecoveryDone _ => true
  | .regionRelease _ => true
  | .resume _ => true
  | .islandRecoveryDone _ _ => true
  | .resetRelease _ => true
  | .relockTimeout _ => true
  | .toneTriggerRearm _ => true
  | .scratchLoadData _ => true
  | .dmaComplete _ idx _ _ => decide (idx < 2 ^ 32)
  | .apply _ => true
  | .refIdentified _ => true
  | .refMatchRestored _ => true
  | .refCfgWrite v => decide (v < 2 ^ 32)
  | .msyncArm _ => true
  | .outModeWrite _ => true
  | .drvModeWrite _ _ => true
  | .acqCfgApply _ => true
  | .binStepTest _ _ _ _ => true
  | .decisionBlockSend _ => true
  | .decisionBlockReceive _ _ block _ => decide (block < 2 ^ 64)
  | .colqWrite _ v => decide (v < 2 ^ 32)
  | .seqCmdStart _ => true
  | .seqCmdStop _ => true
  | .verify _ => true
  | .lock _ => true
  | .ucsCustomerWrite _ _ idx v => decide (idx < 8192) && decide (v < 2 ^ 32)
  | .odrRun _ => true
  | .odrRunClear _ => true
  | .mbpop1 _ => true
  | .groupArm _ _ => true
  | .govWinWrite v => decide (v < 2 ^ 64)
  | .govLcfgWrite _ _ v => decide (v < 2 ^ 32)
  | .biaCodeWrite _ v => decide (v < 2 ^ 32)
  | .biaTrimWrite _ v => decide (v < 2 ^ 32)
  | .rangeChange _ _ => true
  | .saveNext _ => true
  | .saveA _ => true
  | .saveB _ => true
  | .eraseA _ => true
  | .eraseB _ => true
  | .reload _ => true
  | .frnSeqWrite _ v => decide (v < 2 ^ 64)
  | .frnEntryComplete _ _ _ _ _ => true
  | .frnResRead _ => true
  | .comparatorEdge _ _ => true
  | .comparatorSettle _ _ => true
  | .frnCmpWrite _ v => decide (v < 2 ^ 32)
  | .release _ => true
  | .smbSetPointer v => decide (v < 2 ^ 16)
  | .trgGcfgWrite _ _ v => decide (v < 2 ^ 64)
  | .trigInEdge _ _ _ _ => true
  | .captureArm _ => true
  | .captureSoft _ => true
  | .captureStop _ _ => true
  | .captureOverflow _ _ => true
  | .evfChcfgWrite _ _ v => decide (v < 2 ^ 32)
  | .evfSrcmapWrite _ _ v => decide (v < 2 ^ 32)
  | .evfLogqWrite _ v => decide (v < 2 ^ 32)
  | .cntCfgWrite _ _ v => decide (v < 2 ^ 32)
  | .pcieLinkUp width speed => [4, 8, 16].contains width && decide (1 ≤ speed) && decide (speed ≤ 5)
  | .dbCmdWrite _ v => decide (v < 2 ^ 32)
  | .dbRingConsWrite _ _ v => decide (v < 2 ^ 32)
  | .ringArm _ _ => true
  | .ringEnable _ _ v => decide (v < 2 ^ 32)
  | .descriptorFetch _ bytes => decide (bytes.length = 64)
  | .hifOwnWrite _ v => decide (v < 2 ^ 64)
  | .partitionWrite _ _ v => decide (v < 2 ^ 64)
  | .functionDisable _ _ => true
  | .functionEnable _ _ => true
  | .scrubWord a found => decide (a % 8 = 0) && decide (found ≤ 2)
  | .memTrainRun v => decide (v < 2 ^ 32)
  | .dramRetrain _ eye => decide (eye.length = 8)
  | .panicEnter _ => true
  | .selfRefreshExit _ => true
  | .haborPortEnable _ => true
  | .trainingDone _ => true
  | .laneLost _ _ => true
  | .tallyReceive _ _ block _ => decide (block < 2 ^ 64)
  | .alignSend _ _ => true
  | .alignReceive _ _ block _ parity => decide (block < 2 ^ 64) && decide (parity < 256)
  | .exchangeRequestReceive _ _ block _ t2 t3 => decide (block < 2 ^ 64) && decide (t2 < 2 ^ 68) && decide (t3 < 2 ^ 68)
  | .exchangeAnswerReceive _ _ block _ t4 => decide (block < 2 ^ 64) && decide (t4 < 2 ^ 68)
  | .packetReceive _ sid data _ => decide (data.length % 8 = 0) && decide (8 ≤ data.length) && decide (data.length ≤ 32768) && decide (sid < 256)
  | .slip _ _ => true
  | .netLinkChange _ => true
  | .netFrameReceive _ _ _ => true
  | .incrWrite v => decide (v < 2 ^ 64)
  | .adjWrite v => decide (v < 2 ^ 64)
  | .portCycleStart _ => true
  | .handover _ => true
  | .forcedHandover _ => true
  | .adcCalStep _ => true
  | .astarved _ => true
  | .fstarved _ => true
  | .tileRelock _ => true
  | .rcvRelease _ => true
  | .resetAssert _ => true
  | .brstDrivePort _ => true
  | .brstProbePort _ => true
  | .brstAcqPort _ => true
  | .brstOdricCore _ => true
  | .brstCaptureEngine _ => true
  | .brstDiscriminators _ => true
  | .brstHaborPort _ => true
  | .lcTransition _ _ => true
  | .selfRefreshEntry _ => true
  | .blockLock _ _ => true
  | .prbsError _ _ => true
  | .refMismatch => true
  | .refLost => true
  | .cleanupPllLock => true
  | .sclkLock => true
  | .counterStart => true
  | .relockStart => true
  | .msyncLoad => true
  | .soft => true
  | .msyncOutPulse => true
  | .collectorIntake => true
  | .vimgReady => true
  | .govLock => true
  | .trimGrade => true
  | .presetCheck => true
  | .clearNAct => true
  | .clearNRelease => true
  | .firnTimePairing => true
  | .firnEventDeliver => true
  | .frnTrigger => true
  | .softTrig => true
  | .trigSequenceEnd => true
  | .latchPeriodClear => true
  | .rulePass => true
  | .wakeN => true
  | .smbReadStatus => true
  | .smbBlockRead => true
  | .eventDeliver => true
  | .eventLogIntake => true
  | .counterSnapshot => true
  | .snap => true
  | .trained => true
  | .sramSweepComplete => true
  | .refillTransfer => true
  | .netDbTx => true
  | .netDbRx => true
  | .netTxts1Read => true
  | .ptpSecondBoundary => true
  | .accept => true
  | .pair => true
  | .pairing => true
  | .calReload => true
  | .heartbeatTimeout => true
  | .undervoltageTrip => true
  | .vinRise => true
  | .vinLoss => true
  | .brownOut => true
  | .brstNetPort => true
  | .brstDone => true
  | .reqActive => true
  | .reqIdle => true
  | .reqHibernate => true
  | .idleExit => true
  | .hibernatePowerOff => true
  | .hibernateWake => true
  | .lcSweepDone => true

end Sys2Proof
end

