-- ==== Sys2Proof/Certificates/Slice0/Obligations.lean ====
section
/-!
DEFINITION. The statements for the provers.  A statement about a command gives, for each form, the state it
asks for and the next state it answers (`Completes`, `CompletesMem`); what it leaves as it was is said by
`Keeps` and `OnlyRegs` over registers, by `SameBytes` over the stores.
-/

open Sys2Proof Sys2Proof.Machine

/-! ### Channel map, reference, counter, MSYNC, deadline queues (R27 to R83, R633, R634) -/

/-- R28 to R30: a map must be a permutation; APPLY on an idle region starts a check that takes at most 64 ns, on a region that is not idle it is
refused with STATUS 4; a map without a duplicate comes in force for all 64 channels, and the first duplicate
is reported by STATUS 2 or 3. -/
def Obligations.ChannelMapIsCheckedAndApplied : Prop :=
  ∀ (r : Region) (s : State),
    (chmapBusy s.blk r = false → s.blk.regionIdle r = true →
      Completes (.apply r) s fun b => b.rd F.GLB_CHMAP_CTRL_STATUS r = 1 ∧ (∃ d, d ≤ 51 ∧ Follows b d (.chmapCheckDone r)) ∧
        OnlyRegs [F.GLB_CHMAP_CTRL_STATUS.key r 0, F.GLB_CHMAP_CTRL_DUP_ENTRY.key r 0] s.blk b) ∧
    (chmapBusy s.blk r = false → s.blk.regionIdle r = false →
      Completes (.apply r) s fun b => b.rd F.GLB_CHMAP_CTRL_STATUS r = 4 ∧
        OnlyRegs [F.GLB_CHMAP_CTRL_STATUS.key r 0, F.GLB_CHMAP_CTRL_DUP_ENTRY.key r 0] s.blk b) ∧
    (chmapBusy s.blk r = true → chmapDup s.blk F.GLB_CHMAP_STAGE_DRV_IDX r = none →
      chmapDup s.blk F.GLB_CHMAP_STAGE_RD_IDX r = none →
      Completes (.chmapCheckDone r) s fun b => b.rd F.GLB_CHMAP_CTRL_STATUS r = 0 ∧
        b.rd F.GLB_CHMAP_CTRL_APPLY_COUNT r =
          (s.blk.rd F.GLB_CHMAP_CTRL_APPLY_COUNT r + 1) % 2 ^ F.GLB_CHMAP_CTRL_APPLY_COUNT.wid ∧
        ∀ i < 64, b.rd F.GLB_CHMAP_ACT_DRV_IDX r i = s.blk.rd F.GLB_CHMAP_STAGE_DRV_IDX r i ∧
          b.rd F.GLB_CHMAP_ACT_RD_IDX r i = s.blk.rd F.GLB_CHMAP_STAGE_RD_IDX r i) ∧
    (∀ i, chmapBusy s.blk r = true → chmapDup s.blk F.GLB_CHMAP_STAGE_DRV_IDX r = some i →
      Completes (.chmapCheckDone r) s fun b => b.rd F.GLB_CHMAP_CTRL_STATUS r = 2 ∧
        b.rd F.GLB_CHMAP_CTRL_DUP_ENTRY r = i ∧
        Keeps [F.GLB_CHMAP_CTRL_STATUS.key r 0, F.GLB_CHMAP_CTRL_DUP_ENTRY.key r 0] s.blk b) ∧
    (∀ i, chmapBusy s.blk r = true → chmapDup s.blk F.GLB_CHMAP_STAGE_DRV_IDX r = none →
      chmapDup s.blk F.GLB_CHMAP_STAGE_RD_IDX r = some i →
      Completes (.chmapCheckDone r) s fun b => b.rd F.GLB_CHMAP_CTRL_STATUS r = 3 ∧
        b.rd F.GLB_CHMAP_CTRL_DUP_ENTRY r = i ∧
        Keeps [F.GLB_CHMAP_CTRL_STATUS.key r 0, F.GLB_CHMAP_CTRL_DUP_ENTRY.key r 0] s.blk b)

/-- R47 to R49, R634 (readings: log 13): what counting REF_IN finds is shown and decides the match; a reference that is lost, or that
stops matching while locked, begins the holdover and clears ALIGNED; locks are reported; a relock stops the
counter and mutes every port; REF_SEL 3 and a change of reference with a sequencer enabled are ignored. -/
def Obligations.ReferenceIsFollowed : Prop :=
  ∀ (freq : RefFreq) (v : Nat) (s : State),
    (refMatches s.blk freq = true →
      (Completes (.refIdentified freq) s fun b => b.rd F.TIM_STATUS_REF_PRESENT = 1 ∧
        b.rd F.TIM_STATUS_REF_MISMATCH = 0 ∧ b.on F.TIM_STATUS_REF_IS_10M = (freq == .m10) ∧
        Keeps [F.TIM_STATUS_REF_PRESENT.key 0 0, F.TIM_STATUS_REF_MISMATCH.key 0 0,
          F.TIM_STATUS_REF_IS_10M.key 0 0] s.blk b) ∧
      (Completes (.refMatchRestored freq) s fun b => b.rd F.TIM_STATUS_REF_MISMATCH = 0 ∧
        b.tim.matchSince = some (s.blk.tim.matchSince.getD s.blk.elapsed) ∧
        Keeps [F.TIM_STATUS_REF_PRESENT.key 0 0, F.TIM_STATUS_REF_MISMATCH.key 0 0,
          F.TIM_STATUS_REF_IS_10M.key 0 0] s.blk b)) ∧
    (refMatches s.blk freq = false →
      Completes (.refIdentified freq) s fun b => b.rd F.TIM_STATUS_REF_MISMATCH = 1 ∧ b.tim.matchSince = none) ∧
    (Completes .refMismatch s fun b => b.rd F.TIM_STATUS_REF_MISMATCH = 1 ∧ b.tim.matchSince = none ∧
      (s.blk.on F.TIM_STATUS_SCLK_LOCK = true →
        b.rd F.TIM_STATUS_REF_LOST = 1 ∧ b.rd F.TIM_STATUS_HOLDOVER = 1 ∧ b.rd F.TIM_STATUS_ALIGNED = 0)) ∧
    (Completes .refLost s fun b => b.rd F.TIM_STATUS_REF_PRESENT = 0 ∧ b.rd F.TIM_STATUS_REF_LOST = 1 ∧
      b.rd F.TIM_STATUS_HOLDOVER = 1 ∧ b.rd F.TIM_STATUS_ALIGNED = 0 ∧
      Follows b 0 (.eventPublish (Fin.ofNat 1024 1017) s.blk.now 0 0) ∧
      Keeps [F.TIM_STATUS_REF_PRESENT.key 0 0, F.TIM_STATUS_REF_LOST.key 0 0, F.TIM_STATUS_HOLDOVER.key 0 0,
        F.TIM_STATUS_ALIGNED.key 0 0] s.blk b) ∧
    (s.blk.tim.matchSince.isSome = true → s.blk.on F.TIM_STATUS_REF_IS_10M = true →
      Completes .cleanupPllLock s fun b => b.rd F.TIM_STATUS_CLEAN_LOCK = 1 ∧
        OnlyRegs [F.TIM_STATUS_CLEAN_LOCK.key 0 0] s.blk b) ∧
    (s.blk.tim.matchSince.isSome = true →
      Completes .sclkLock s fun b => b.rd F.TIM_STATUS_SCLK_LOCK = 1 ∧ pinLock b = (pinPgood b && !b.pwr.off) ∧
        OnlyRegs [F.TIM_STATUS_SCLK_LOCK.key 0 0] s.blk b) ∧
    (∀ t, s.blk.tim.matchSince = some t → s.blk.on F.TIM_STATUS_HOLDOVER = true → s.blk.allDisabled = true →
      t + 800000 ≤ s.blk.elapsed →
      Completes .relockStart s fun b => b.rd F.TIM_STATUS_SCLK_LOCK = 0 ∧ b.tim.running = false ∧
        b.tim.relocking = true) ∧
    ((field v 0 2 = 3 ∨ ((field v 0 2 ≠ s.blk.rd F.TIM_REF_CFG_REF_SEL ∨
        field v 5 1 ≠ s.blk.rd F.TIM_REF_CFG_CLEAN_100) ∧ s.blk.allDisabled = false)) →
      Completes (.refCfgWrite v) s fun b => b = s.blk) ∧
    (field v 0 2 ≠ 3 → field v 0 2 = s.blk.rd F.TIM_REF_CFG_REF_SEL →
      field v 5 1 = s.blk.rd F.TIM_REF_CFG_CLEAN_100 →
      Completes (.refCfgWrite v) s fun b => b.rd F.TIM_REF_CFG_REFOUT_EN = field v 6 1 ∧
        b.rd F.TIM_REF_CFG_REF_SEL = field v 0 2 ∧
        Keeps [F.TIM_REF_CFG_REFOUT_EN.key 0 0, F.TIM_REF_CFG_CLEAN_100.key 0 0, F.TIM_REF_CFG_REF_SEL.key 0 0]
          s.blk b)

/-- R50, R66 to R71, R80 (readings: log 14): the counter starts from 0 once locked; an edge that stays high for two ticks is captured
with its fraction and margin; ONESHOT fixes the load tick, at which the counter takes the load value if every
sequencer is DISABLED and the value is a multiple of REFP, and is refused otherwise; MSYNC_OUT follows its mode. -/
def Obligations.CounterAndMsync : Prop :=
  ∀ (frac : Fin 16) (high l : Nat) (v : Fin 4) (s : State),
    (s.blk.tim.running = false → s.blk.on F.TIM_STATUS_SCLK_LOCK = true →
      Completes .counterStart s fun b => b.now = 0 ∧ b.tim.running = true ∧ b.tim.relocking = false) ∧
    (v.val ≠ 3 → Completes (.msyncArm v) s fun b => b.rd F.TIM_MSYNC_CTRL_ARM = v ∧
      OnlyRegs [F.TIM_MSYNC_CTRL_ARM.key 0 0] s.blk b) ∧
    (Completes .soft s fun b => Follows b 1 (.msyncEdge 0 2) ∧ OnlyRegs [] s.blk b) ∧
    (2 ≤ high → s.blk.rd F.TIM_MSYNC_CTRL_ARM = 2 →
      Completes (.msyncEdge frac high) s fun b =>
        b.rd F.TIM_MSYNC_CAPT_CAP_TICK = s.blk.now % 2 ^ F.TIM_MSYNC_CAPT_CAP_TICK.wid ∧
        b.rd F.TIM_MSYNC_CAPI_FRAC = frac ∧ b.rd F.TIM_MSYNC_CAPI_VALID = 1 ∧ b.rd F.TIM_MSYNC_CAPI_LOADED = 0 ∧
        b.rd F.TIM_MSYNC_CAPI_MARGIN =
          msyncMargin s.blk (16 * s.blk.now + frac - s.blk.rdS F.TIM_MSYNC_CTRL_COMP) ∧
        b.tim.loadAt = s.blk.tim.loadAt ∧ b.now = s.blk.now) ∧
    (2 ≤ high → s.blk.rd F.TIM_MSYNC_CTRL_ARM = 1 →
      (s.blk.now : Int) < loadTick s.blk (16 * s.blk.now + frac - s.blk.rdS F.TIM_MSYNC_CTRL_COMP) →
      Completes (.msyncEdge frac high) s fun b => b.rd F.TIM_MSYNC_CTRL_ARM = 0 ∧
        b.rd F.TIM_MSYNC_CAPI_VALID = 1 ∧
        b.tim.loadAt =
          some (loadTick s.blk (16 * s.blk.now + frac - s.blk.rdS F.TIM_MSYNC_CTRL_COMP)).toNat) ∧
    (s.blk.tim.loadAt = some l → l ≤ s.blk.now → s.blk.allDisabled = true →
      s.blk.rd F.TIM_MSYNC_LOAD_LOAD % refp s.blk = 0 →
      Completes .msyncLoad s fun b => b.now = s.blk.rd F.TIM_MSYNC_LOAD_LOAD ∧ b.rd F.TIM_STATUS_ALIGNED = 1 ∧
        b.rd F.TIM_MSYNC_CAPI_LOADED = 1) ∧
    (s.blk.tim.loadAt = some l → l ≤ s.blk.now →
      (s.blk.allDisabled = false ∨ s.blk.rd F.TIM_MSYNC_LOAD_LOAD % refp s.blk ≠ 0) →
      Completes .msyncLoad s fun b => b.rd F.TIM_STATUS_LOAD_REFUSED = 1 ∧ b.now = s.blk.now ∧
        b.rd F.TIM_STATUS_ALIGNED = s.blk.rd F.TIM_STATUS_ALIGNED ∧
        Keeps [F.TIM_STATUS_LOAD_REFUSED.key 0 0] s.blk b) ∧
    (s.blk.now < s.blk.rd F.TIM_MSYNC_OUT_AT_OUT_AT → v.val ≠ 3 →
      Completes (.outModeWrite v) s fun b => b.rd F.TIM_MSYNC_CTRL_OUT_MODE = v ∧
        Keeps [F.TIM_MSYNC_CTRL_OUT_MODE.key 0 0] s.blk b) ∧
    (s.blk.rd F.TIM_MSYNC_OUT_AT_OUT_AT < s.blk.now →
      Completes (.outModeWrite 1) s fun b => b.rd F.TIM_MSYNC_CTRL_OUT_MODE = 0) ∧
    (s.blk.tim.outFall = none → s.blk.rd F.TIM_MSYNC_CTRL_OUT_MODE = 1 →
      s.blk.now = s.blk.rd F.TIM_MSYNC_OUT_AT_OUT_AT →
      Completes .msyncOutPulse s fun b => b.out = .msync s.blk.now true :: s.blk.out ∧
        b.tim.outFall = some (s.blk.elapsed + 16) ∧ Follows b 16 .msyncOutPulse ∧ Keeps [] s.blk b) ∧
    (∀ t, s.blk.tim.outFall = some t → t ≤ s.blk.elapsed →
      Completes .msyncOutPulse s fun b => b.out = .msync s.blk.now false :: s.blk.out ∧
        b.rd F.TIM_MSYNC_CTRL_OUT_MODE = 0 ∧ b.tim.outFall = none ∧
        Keeps [F.TIM_MSYNC_CTRL_OUT_MODE.key 0 0] s.blk b)

/-- R56 to R63: a message in time is queued at its deadline's first legal instant; a miss is counted and, by its
class's policy, is queued for the first legal instant at or after A + 2, dropped, or reported as a fault of its
region; a deadline further than 2³⁰ ticks off is refused and counted; a full queue holds the message, which is
admitted when an entry frees, and what is due takes effect. -/
def Obligations.DeadlineMessagesAreJudged : Prop :=
  ∀ (m : DlMsg) (v : Nat) (s : State),
    ((s.blk.queueOf m.isl).length < dlCap m.isl → m.deadline = some v →
      (s.blk.now : Int) + 2 ≤ fullTick s.blk.now v → fullTick s.blk.now v ≤ (s.blk.now : Int) + 2 ^ 30 →
      Completes (.deadlineMsgArrive m) s fun b => b.queueOf m.isl =
        s.blk.queueOf m.isl ++ [⟨m, legalFrom m.eff (fullTick s.blk.now v).toNat, s.blk.dlOrd⟩]) ∧
    ((s.blk.queueOf m.isl).length < dlCap m.isl → m.deadline = some v →
      fullTick s.blk.now v < (s.blk.now : Int) + 2 → dlPolicy s.blk m.cls = 0 →
      Completes (.deadlineMsgArrive m) s fun b =>
        b.queueOf m.isl = s.blk.queueOf m.isl ++ [⟨m, legalFrom m.eff (s.blk.now + 2), s.blk.dlOrd⟩] ∧
        b.rd F.TIM_DL_MISS_MISS_COUNT m.cls =
          satAdd F.TIM_DL_MISS_MISS_COUNT.wid (s.blk.rd F.TIM_DL_MISS_MISS_COUNT m.cls) 1) ∧
    ((s.blk.queueOf m.isl).length < dlCap m.isl → m.deadline = some v →
      fullTick s.blk.now v < (s.blk.now : Int) + 2 → dlPolicy s.blk m.cls = 1 →
      Completes (.deadlineMsgArrive m) s fun b => b.queueOf m.isl = s.blk.queueOf m.isl ∧
        b.rd F.TIM_DL_MISS_MISS_COUNT m.cls =
          satAdd F.TIM_DL_MISS_MISS_COUNT.wid (s.blk.rd F.TIM_DL_MISS_MISS_COUNT m.cls) 1) ∧
    (∀ x, (s.blk.queueOf m.isl).length < dlCap m.isl → m.deadline = some v →
      fullTick s.blk.now v < (s.blk.now : Int) + 2 → 2 ≤ dlPolicy s.blk m.cls →
      targetRes s.blk m.target = some x →
      Completes (.deadlineMsgArrive m) s fun b => b.queueOf m.isl = s.blk.queueOf m.isl ∧
        Follows b 0 (.faultDetected 2 (resRegion x))) ∧
    ((s.blk.queueOf m.isl).length < dlCap m.isl → m.deadline = some v →
      (s.blk.now : Int) + 2 ^ 30 < fullTick s.blk.now v →
      Completes (.deadlineMsgArrive m) s fun b => b.queueOf m.isl = s.blk.queueOf m.isl ∧
        b.rd F.TIM_DL_MISS_RANGE_COUNT m.cls =
          satAdd F.TIM_DL_MISS_RANGE_COUNT.wid (s.blk.rd F.TIM_DL_MISS_RANGE_COUNT m.cls) 1) ∧
    (dlCap m.isl ≤ (s.blk.queueOf m.isl).length →
      Completes (.deadlineMsgArrive m) s fun b => b = { s.blk with dlHeld := s.blk.dlHeld ++ [m] }) ∧
    (∀ (isl : Fin 3) t, (s.blk.queueOf isl).length < dlCap isl → takeHeld isl s.blk.dlHeld = some (m, t) →
      m.isl = isl → m.deadline = none → (∀ q pc shot, m.target ≠ .start q pc shot) →
      Completes (.deadlineQueueAdmit isl) s fun b => b.dlHeld = t ∧
        b.queueOf isl = s.blk.queueOf isl ++ [⟨m, legalFrom m.eff (s.blk.now + 1), s.blk.dlOrd⟩]) ∧
    (∀ (isl : Fin 3) e q x, s.blk.queueOf isl = [e] → dlDue s.blk e = true → e.msg.target = .branch q x →
      e.msg.poison = false →
      Completes (.deadlineApply isl) s fun b => b.queueOf isl = [] ∧
        Follows b 0 (.branchRequest q (Fin.ofNat 4096 x)) ∧ Keeps [] s.blk b)

/-! ### DAC ports (R84 to R134, R334) -/

/-- R112, R113: where EN takes hold as 1, a MUTED port begins RAMP_UP and a port in RAMP_DOWN ramps up from the
gain it has reached; where EN takes hold as 0, ON begins RAMP_DOWN, RAMP_UP ramps down over the ticks it had
run, HOLD goes to MUTED at once; a ramp that has run its ticks ends in ON or MUTED.  Only OSTATE changes among
the registers. -/
def Obligations.DacRampsFollowEnable : Prop :=
  ∀ (p : DacPort) (s : State),
    (s.blk.actOn F.DRV_CTRL_EN p = true → s.blk.rd F.GLB_LC_STATE ≠ 3 → s.blk.on F.TIM_STATUS_SCLK_LOCK = true →
      s.blk.ostate p = oMuted →
      Completes (.portEnSet p) s fun b => b.ostate p = oRampUp ∧ (b.port p).rampEnd = s.blk.now + 800 ∧
        Follows b 800 (.rampEnd p) ∧ Keeps [F.DRV_STATUS_OSTATE.key p 0] s.blk b) ∧
    (s.blk.actOn F.DRV_CTRL_EN p = true → s.blk.rd F.GLB_LC_STATE ≠ 3 → s.blk.on F.TIM_STATUS_SCLK_LOCK = true →
      s.blk.ostate p = oRampDown →
      Completes (.portEnSet p) s fun b => b.ostate p = oRampUp ∧
        (b.port p).rampEnd = s.blk.now + (800 - min 800 ((s.blk.port p).rampEnd - s.blk.now)) ∧
        Keeps [F.DRV_STATUS_OSTATE.key p 0] s.blk b) ∧
    (s.blk.actOn F.DRV_CTRL_EN p = false → s.blk.ostate p = oOn →
      Completes (.portEnClear p) s fun b => b.ostate p = oRampDown ∧ (b.port p).rampEnd = s.blk.now + 800 ∧
        Follows b 800 (.rampEnd p) ∧ Keeps [F.DRV_STATUS_OSTATE.key p 0] s.blk b) ∧
    (s.blk.actOn F.DRV_CTRL_EN p = false → s.blk.ostate p = oRampUp →
      Completes (.portEnClear p) s fun b => b.ostate p = oRampDown ∧
        (b.port p).rampEnd = s.blk.now + (800 - min 800 ((s.blk.port p).rampEnd - s.blk.now)) ∧
        Keeps [F.DRV_STATUS_OSTATE.key p 0] s.blk b) ∧
    (s.blk.actOn F.DRV_CTRL_EN p = false → s.blk.ostate p = oHold → s.blk.on F.DRV_STATUS_LEVEL_PEND p = false →
      Completes (.portEnClear p) s fun b => b.ostate p = oMuted ∧ (b.port p).holdEnd = none ∧
        Keeps [F.DRV_STATUS_OSTATE.key p 0] s.blk b) ∧
    ((s.blk.port p).rampEnd ≤ s.blk.now → s.blk.ostate p = oRampUp →
      Completes (.rampEnd p) s fun b => b.ostate p = oOn ∧ OnlyRegs [F.DRV_STATUS_OSTATE.key p 0] s.blk b) ∧
    ((s.blk.port p).rampEnd ≤ s.blk.now → s.blk.ostate p = oRampDown →
      Completes (.rampEnd p) s fun b => b.ostate p = oMuted ∧ OnlyRegs [F.DRV_STATUS_OSTATE.key p 0] s.blk b)

/-- R108, R110: a staged level equal to the one in force needs no change; a MUTED or HARD_MUTE port adopts a
different one where it takes hold in the stage; otherwise LEVEL_PEND reads 1 until the port, ON and silent at a
granule boundary, adopts it in a HOLD of 120 ticks, 160 where FSCODE changes; the HOLD ends in ON. -/
def Obligations.DacLevelsAreStagedAndAdopted : Prop :=
  ∀ (p : DacPort) (s : State),
    (s.blk.act F.DRV_LEVEL_FSCODE p = s.blk.rd F.DRV_LEVEL_ACT_FSCODE p →
      s.blk.act F.DRV_LEVEL_ATT p = s.blk.rd F.DRV_LEVEL_ACT_ATT p →
      Completes (.levelStage p) s fun b => b.rd F.DRV_STATUS_LEVEL_PEND p = 0 ∧
        OnlyRegs [F.DRV_STATUS_LEVEL_PEND.key p 0] s.blk b) ∧
    (levelSame s.blk p = false → (s.blk.ostate p = oMuted ∨ s.blk.ostate p = oHard) →
      Completes (.levelStage p) s fun b =>
        b.rd F.DRV_LEVEL_ACT_FSCODE p = s.blk.act F.DRV_LEVEL_FSCODE p ∧
        b.rd F.DRV_LEVEL_ACT_ATT p = s.blk.act F.DRV_LEVEL_ATT p ∧ b.rd F.DRV_STATUS_LEVEL_PEND p = 0 ∧
        OnlyRegs [F.DRV_LEVEL_ACT_FSCODE.key p 0, F.DRV_LEVEL_ACT_ATT.key p 0, F.DRV_STATUS_LEVEL_PEND.key p 0]
          s.blk b) ∧
    (levelSame s.blk p = false → s.blk.ostate p ≠ oMuted → s.blk.ostate p ≠ oHard →
      Completes (.levelStage p) s fun b => b.rd F.DRV_STATUS_LEVEL_PEND p = 1 ∧
        OnlyRegs [F.DRV_STATUS_LEVEL_PEND.key p 0] s.blk b) ∧
    (s.blk.on F.DRV_STATUS_LEVEL_PEND p = true → s.blk.ostate p = oOn → s.blk.now % 4 = 0 →
      portSilent s.blk p = true →
      Completes (.levelAdopt p) s fun b => b.ostate p = oHold ∧
        b.rd F.DRV_LEVEL_ACT_FSCODE p = s.blk.act F.DRV_LEVEL_FSCODE p ∧
        b.rd F.DRV_LEVEL_ACT_ATT p = s.blk.act F.DRV_LEVEL_ATT p ∧ b.rd F.DRV_STATUS_LEVEL_PEND p = 0 ∧
        (b.port p).holdEnd = some (s.blk.now +
          if s.blk.act F.DRV_LEVEL_FSCODE p = s.blk.rd F.DRV_LEVEL_ACT_FSCODE p then 120 else 160) ∧
        Keeps [F.DRV_LEVEL_ACT_FSCODE.key p 0, F.DRV_LEVEL_ACT_ATT.key p 0, F.DRV_STATUS_LEVEL_PEND.key p 0,
          F.DRV_STATUS_OSTATE.key p 0] s.blk b) ∧
    (s.blk.ostate p = oHold → s.blk.on F.DRV_STATUS_LEVEL_PEND p = false →
      Completes (.holdEnd p) s fun b => b.ostate p = oOn ∧ (b.port p).holdEnd = none ∧
        Keeps [F.DRV_STATUS_LEVEL_PEND.key p 0, F.DRV_STATUS_OSTATE.key p 0] s.blk b)

/-- R102, R87: a change of MODE is refused while the port's sequencer is enabled; otherwise MODE and MODE_ACT take
it at once, MODE_BUSY reads 1 and the switch is over within 160 ticks, in a HOLD where the port is ON; PHRST makes
the accumulator 0 for j = 0 of its tick. -/
def Obligations.DacModeSwitchAndPhaseReset : Prop :=
  ∀ (p : DacPort) (v : Fin 4) (k : Fin 32) (s : State),
    (v.val ≠ 3 → ¬ (v.val = 2 ∧ 32 ≤ p.val) → v.val ≠ s.blk.rd F.DRV_CTRL_MODE p →
      s.blk.seqState (portSeq p) ≠ sDisabled →
      Completes (.drvModeWrite p v) s fun b => b.on F.DRV_STATUS_MODE_REFUSED p = true ∧
        OnlyRegs [F.DRV_STATUS_MODE_REFUSED.key p 0] s.blk b) ∧
    (v.val ≠ 3 → ¬ (v.val = 2 ∧ 32 ≤ p.val) → v.val ≠ s.blk.rd F.DRV_CTRL_MODE p →
      s.blk.seqState (portSeq p) = sDisabled →
      Completes (.drvModeWrite p v) s fun b => b.rd F.DRV_CTRL_MODE p = v ∧ b.rd F.DRV_STATUS_MODE_ACT p = v ∧
        b.on F.DRV_STATUS_MODE_BUSY p = true ∧ Follows b 160 (.modeSwitchDone p) ∧
        b.ostate p = (if s.blk.ostate p = oOn then oHold else s.blk.ostate p) ∧
        Keeps [F.DRV_CTRL_MODE.key p 0, F.DRV_STATUS_MODE_ACT.key p 0, F.DRV_STATUS_MODE_BUSY.key p 0,
          F.DRV_STATUS_OSTATE.key p 0] s.blk b) ∧
    (∀ t, (s.blk.port p).busyEnd = some t → t ≤ s.blk.now →
      Completes (.modeSwitchDone p) s fun b => b.rd F.DRV_STATUS_MODE_BUSY p = 0 ∧
        Keeps [F.DRV_STATUS_MODE_BUSY.key p 0] s.blk b) ∧
    (k.val < nSlots p → s.blk.act F.DRV_SCTRL_PMODE p k ≠ 1 →
      Completes (.phrst p k) s fun b => accOf b p k 0 = 0 ∧ Keeps [] s.blk b)

/-- R228, R120: a granule of a stream that is incomplete at its boundary zeroes the stream, sets UNDERRUN, and under
BLANK counts in UNDERRUN_GRAN; R132 to R134: an early decision in the flat part of a FLATTOP segment with ESTOP
sets the stop granule, at or after D + 2, once, and is counted; R334: a port muted by the governor ramps up at
the first boundary with its tallies below 7/8. -/
def Obligations.DacStreamsAndStops : Prop :=
  ∀ (p : DacPort) (k : Fin 32) (d : Nat) (s : State),
    (underruns s.blk p = true → (∀ c l, (s.blk.seq (portSeq p)).line = c :: l → c.upol = 0) →
      Completes (.streamUnderrun p) s fun b => (b.port p).blank = true ∧
        b.on F.SEQ_STATUS_UNDERRUN (portSeq p) = true ∧
        b.rd F.SEQ_CNT2_UNDERRUN_GRAN (portSeq p) =
          satAdd F.SEQ_CNT2_UNDERRUN_GRAN.wid (s.blk.rd F.SEQ_CNT2_UNDERRUN_GRAN (portSeq p)) 1) ∧
    (∀ g, (s.blk.slot p k).seg = some g → g.flat = true → g.estop = true → g.start ≤ d → g.stop = none →
      granule (d + 2) < g.start + g.len → (granule (d + 2) - g.start) / 4 < g.len / 4 - min g.ramp (g.len / 8) →
      Completes (.earlyToneStop p k d) s fun b =>
        (b.slot p k).seg = some { g with stop := some (granule (d + 2)) } ∧
        b.rd F.PRB_ESTOPCNT_COUNT p = satAdd F.PRB_ESTOPCNT_COUNT.wid (s.blk.rd F.PRB_ESTOPCNT_COUNT p) 1 ∧
        Keeps [F.PRB_ESTOPCNT_COUNT.key p 0] s.blk b) ∧
    (s.blk.ostate p = oHard → (s.blk.port p).mute = some .gov → (s.blk.port p).enSeen = true →
      s.blk.actOn F.DRV_CTRL_EN p = true → tallyLow s.blk p = true → s.blk.now % 4 = 0 →
      Completes (.muteRampRelease p) s fun b => b.ostate p = oRampUp ∧ (b.port p).rampEnd = s.blk.now + 800 ∧
        (b.port p).mute = none)

/-! ### Acquisition ports (R135 to R161) -/

/-- R137, R139, R151, R152, R160: EN powers the ADC up and makes it ready, EN 0 makes its samples zero at once;
GAIN_BUSY clears when the gain stage has settled; APPLY starts a check of the staged slots, which leaves them
pending with STATUS 2 or refuses them with the first failing check; TRK_EN sets home and clears offset and
averager. -/
def Obligations.AcqPortIsConfigured : Prop :=
  ∀ (k : AcqPort) (slot : Fin 32) (s : State),
    (s.blk.actOn F.ACQ_CTRL_EN k = true →
      (Completes (.acqEnSet k) s fun b => (∃ d, d ≤ 8000 ∧ Follows b d (.adcReady k)) ∧ OnlyRegs [] s.blk b) ∧
      (Completes (.adcReady k) s fun b => b.on F.ACQ_STATUS_READY k = true ∧ liveAt (b.acq k).live s.blk.now = true ∧
        Keeps [F.ACQ_STATUS_READY.key k 0] s.blk b)) ∧
    (s.blk.actOn F.ACQ_CTRL_EN k = false →
      Completes (.acqEnSet k) s fun b => b.on F.ACQ_STATUS_READY k = false ∧
        liveAt (b.acq k).live s.blk.now = false ∧ Keeps [F.ACQ_STATUS_READY.key k 0] s.blk b) ∧
    (∀ t, (s.blk.acq k).gainEnd = some t → t ≤ s.blk.now →
      Completes (.gainSettled k) s fun b => b.on F.ACQ_STATUS_GAIN_BUSY k = false ∧
        OnlyRegs [F.ACQ_STATUS_GAIN_BUSY.key k 0] s.blk b) ∧
    (s.blk.rd F.ACQ_CFG_CTRL_STATUS k ≠ 1 →
      Completes (.acqCfgApply k) s fun b => b.rd F.ACQ_CFG_CTRL_STATUS k = 1 ∧ (b.acq k).cfgPend = none ∧
        (b.acq k).cfgStage = (List.range 32).map (stagedSlot s.blk k) ∧
        Keeps [F.ACQ_CFG_CTRL_STATUS.key k 0] s.blk b) ∧
    (s.blk.rd F.ACQ_CFG_CTRL_STATUS k = 1 →
      Completes (.acqCfgCheckDone k) s fun b =>
        b.rd F.ACQ_CFG_CTRL_STATUS k = (cfgVerdict (s.blk.acq k).cfgStage).1 ∧
        (b.acq k).cfgPend =
          (if (cfgVerdict (s.blk.acq k).cfgStage).1 = 2 then some (s.blk.acq k).cfgStage else none) ∧
        Keeps [F.ACQ_CFG_CTRL_STATUS.key k 0, F.ACQ_CFG_CTRL_FAULT_SLOT.key k 0,
          F.ACQ_CFG_CTRL_LOAD_COST.key k 0] s.blk b) ∧
    (s.blk.actOn F.ACQ_DTRK_TRK_EN k slot = true →
      Completes (.trkEnSet k slot) s fun b =>
        (b.demod k slot).trk.home = toS 32 (s.blk.rd F.ACQ_DSLOT_ACT_FNW k slot) ∧
        (b.demod k slot).trk.count = 0 ∧ b.rd F.ACQ_DTRKS_OFFSET k slot = 0 ∧
        Keeps [F.ACQ_DTRKS_OFFSET.key k slot] s.blk b)

/-- R148, R170 to R174, R156: a bin step that is tested either lets the window go on with one step more, due for
its late decision at its full length, or decides it early at the tick of R140; a window that is due decides
late by its last scores: the decision's tick is reported, the vector's entry follows one tick later, a
record enters the collector; a crevasse begins with no window open and at least 1,600 ticks to the next, and
ends with them. -/
def Obligations.WindowsDecideAndCrevassesRun : Prop :=
  ∀ (k : AcqPort) (slot : Fin 32) (s : State),
    (∀ samples ovr w rest, (s.blk.demod k slot).wins = w :: rest → w.due = false → w.n < w.klen →
      Completes (.binStepTest k slot samples ovr) s fun b =>
        (∃ w', (b.demod k slot).wins = w' :: rest ∧ w'.n = w.n + 1 ∧ w'.n0 = w.n0 ∧ w'.klen = w.klen ∧
          w'.chan = w.chan ∧ w'.due = decide (w.n + 1 = w.klen)) ∨
        ((b.demod k slot).wins = rest ∧
          b.rd F.DSC_STAT_DTICK w.chan = testTick w.n0 (w.n + 1) % 2 ^ F.DSC_STAT_DTICK.wid)) ∧
    (∀ w rest, (s.blk.demod k slot).wins = w :: rest → w.due = true →
      Completes (.lateDecision k slot) s fun b => (b.demod k slot).wins = rest ∧
        b.rd F.DSC_STAT_DTICK w.chan = testTick w.n0 w.n % 2 ^ F.DSC_STAT_DTICK.wid ∧
        Follows b 1 (.dvOwnTileUpdate (Fin.ofNat 768 w.chan) 2
          (Fin.ofNat 4 (lateTest w.cfg w.repI w.repQ w.n).1) false (testTick w.n0 w.n)) ∧
        ∃ r ∈ b.dsc.arriving, r.chan = w.chan ∧ r.shot = w.shot ∧ r.len = w.n ∧
          r.code = (lateTest w.cfg w.repI w.repQ w.n).1 ∧ r.i = w.repI ∧ r.q = w.repQ) ∧
    (∀ g, (s.blk.acq k).crev = none → anyWindow s.blk k = false → crevGap s.blk k = some g → 1600 ≤ g →
      Completes (.crevasseBegin k) s fun b => b.on F.ACQ_STATUS_CREV k = true ∧
        (b.acq k).crev = some (some (s.blk.now + g)) ∧ Follows b g (.crevasseEnd k) ∧
        Keeps [F.ACQ_STATUS_CREV.key k 0, F.ACQ_CREV_CREV_COUNT.key k 0] s.blk b) ∧
    (∀ t, (s.blk.acq k).crev = some (some t) → t ≤ s.blk.now →
      Completes (.crevasseEnd k) s fun b => b.on F.ACQ_STATUS_CREV k = false ∧ (b.acq k).crev = none ∧
        Keeps [F.ACQ_STATUS_CREV.key k 0] s.blk b)

/-! ### Decisions, exports, the collector (R175 to R193, R42, R464, R465) -/

/-- R42, R175, R176: a decision, an opening or a containment enters the channel's own tile's copy of the decision
vector, then the other tile's; an opening keeps the code of the previous decision; the other copy does not
change. -/
def Obligations.DecisionVectorCopiesFollow : Prop :=
  ∀ (e : Fin 768) (st code : Fin 4) (early : Bool) (d : Nat) (s : State), e.val < 512 →
    (st.val ≠ 1 →
      (Completes (.dvOwnTileUpdate e st code early d) s fun b =>
        b.dvEnt (e / 256) e = ⟨s.blk.now, code, st, early, false, d⟩ ∧
        b.dvEnt (1 - e / 256) e = s.blk.dvEnt (1 - e / 256) e ∧ Keeps [] s.blk b) ∧
      (Completes (.dvOtherTileUpdate e st code early d) s fun b =>
        b.dvEnt (1 - e / 256) e = ⟨s.blk.now, code, st, early, false, d⟩ ∧
        b.dvEnt (e / 256) e = s.blk.dvEnt (e / 256) e ∧ Keeps [] s.blk b)) ∧
    (st.val = 1 →
      (Completes (.dvOwnTileUpdate e st code early d) s fun b =>
        b.dvEnt (e / 256) e = { s.blk.dvEnt (e / 256) e with st := 1, at_ := s.blk.now } ∧ Keeps [] s.blk b) ∧
      (Completes (.dvOtherTileUpdate e st code early d) s fun b =>
        b.dvEnt (1 - e / 256) e = { s.blk.dvEnt (1 - e / 256) e with st := 1, at_ := s.blk.now } ∧
        Keeps [] s.blk b))

/-- R183 to R185, R508: an exported decision is latched for each locked port that exports its channel; the
decision slot sends the oldest latches in one block and counts them; a received block's valid entries update
the import entries bound to them 3 ticks later, in both copies; a block that fails its check is counted. -/
def Obligations.DecisionsCrossModules : Prop :=
  ∀ (p : HabPort) (q : Chan) (s : State),
    (∀ (code : Fin 4) (early unav : Bool) (d : Nat), p.val ∈ exporters s.blk q →
      s.blk.rd F.LNK_PSTAT_STATE p = lnkLocked →
      Completes (.exportLatchSet q code early unav d) s fun b => b.dsc.latch.find (512 * p + q) =
        some ⟨s.blk.now + 2, code, early, unav, (s.blk.dsc.latch.find (512 * p + q)).isSome, d⟩) ∧
    (s.blk.rd F.LNK_PSTAT_STATE p = lnkLocked → forwardRun s.blk.now (s.blk.dsc.fwd.get [] p) = [] →
      readyLatches s.blk p ≠ [] →
      Completes (.decisionBlockSend p) s fun b =>
        b.out = .habor p (decisionLane s.blk) (blockOf (s.blk.rd F.LNK_GCFG_MODNUM)
          ((readyLatches s.blk p).map fun e => blockEntry (e.1 % 512) e.2.code e.2.early e.2.ovr e.2.unav)) ::
          s.blk.out ∧
        b.rd F.DSC_XCNT_SENT p =
          (s.blk.rd F.DSC_XCNT_SENT p + (readyLatches s.blk p).length) % 2 ^ F.DSC_XCNT_SENT.wid ∧
        Keeps [F.DSC_XCNT_SENT.key p 0] s.blk b) ∧
    (∀ (lane : Fin 2) (block : Nat) (i : Fin 3), field block 60 4 = 1 → s.blk.rd F.LNK_PSTAT_STATE p = lnkLocked →
      bit (field block (16 * i) 16) 15 = true →
      Completes (.decisionBlockReceive p lane block true) s fun b =>
        Follows b 3 (.importUpdate p (Fin.ofNat 64 (field block 54 6))
          (Fin.ofNat 512 (field (field block (16 * i) 16) 0 9)) (Fin.ofNat 4 (field (field block (16 * i) 16) 11 2))
          (bit (field block (16 * i) 16) 13) (bit (field block (16 * i) 16) 14)
          (bit (field block (16 * i) 16) 10))) ∧
    (∀ (lane : Fin 2) (block : Nat),
      Completes (.decisionBlockReceive p lane block false) s fun b =>
        b.rd F.LNK_CNT_CHK_ERR p = satAdd F.LNK_CNT_CHK_ERR.wid (s.blk.rd F.LNK_CNT_CHK_ERR p) 1 ∧
        Keeps [F.LNK_CNT_CHK_ERR.key p 0] s.blk b) ∧
    (∀ (origin : Fin 64) (code : Fin 4) (early ovr unav : Bool) (j : Fin 256),
      s.blk.actOn F.DSC_IMPORT_VALID j = true → s.blk.act F.DSC_IMPORT_ORIGIN j = origin →
      s.blk.act F.DSC_IMPORT_CHANNEL j = q →
      Completes (.importUpdate p origin q code early ovr unav) s fun b =>
        ∀ tile < 2, (b.dvEnt tile (512 + j)).st = (if unav then 3 else 2) ∧
          (b.dvEnt tile (512 + j)).code = (if unav then 3 else code.val) ∧
          (b.dvEnt tile (512 + j)).early = early ∧ (b.dvEnt tile (512 + j)).ovr = ovr)

/-- R190 to R193, R464, R465: a record whose time has come passes the intake into its function's buffer while the
quota allows; the oldest record of a function and its loss marker go to the result ring in their order when it
has room; the summary of an ended shot enters the buffer; quotas sum to at most 1,024. -/
def Obligations.CollectorKeepsItsOrder : Prop :=
  ∀ (f : Func) (q : SeqNo) (v : Nat) (s : State),
    (∀ r, s.blk.dsc.arriving = [r] → r.dtick + 3 ≤ s.blk.now → s.blk.dsc.intake = [] →
      fill s.blk (s.blk.chanOwner r.chan) < s.blk.rd F.DSC_COLQ_QUOTA (s.blk.chanOwner r.chan) →
      Completes .collectorIntake s fun b => b.dsc.arriving = [] ∧ b.dsc.intake = [] ∧
        ∃ fl, b.dsc.buffer = s.blk.dsc.buffer ++ [(s.blk.chanOwner r.chan, { r with flags := fl })]) ∧
    (∀ e, ringRoom s.blk f 2 = true → markerDue s.blk f = false →
      s.blk.dsc.buffer.find? (fun x => x.1 == f.val) = some e →
      Completes (.resultRecordWrite f) s fun b => b.dsc.buffer = dropFirst f s.blk.dsc.buffer ∧
        Out.ring f 2 (ringProduced s.blk f 2) (entryAddr s.blk f 2 (ringProduced s.blk f 2))
          (recBytes e.2 ++ leBytes 4 (generation (ringProduced s.blk f 2))) ∈ b.out ∧
        ringProduced b f 2 = (ringProduced s.blk f 2 + 1) % 2 ^ F.DB_RING_PRODUCED.wid) ∧
    (∀ m, ringRoom s.blk f 2 = true → s.blk.dsc.marker.find f.val = some m → m.ahead = 0 →
      Completes (.lossMarkerWrite f) s fun b => b.dsc.marker.find f.val = none ∧
        b.dsc.buffer = s.blk.dsc.buffer ∧
        ∃ bytes, Out.ring f 2 (ringProduced s.blk f 2) (entryAddr s.blk f 2 (ringProduced s.blk f 2)) bytes ∈ b.out) ∧
    (∀ shot sh t, (s.blk.seq q).ended.find? (fun e => e.1.no == shot) = some (sh, t) → seqKind q ≠ .acq →
      s.blk.on F.HIF_FCTRL_SUMMARY_EN (s.blk.seqOwner q) = true →
      fill s.blk (s.blk.seqOwner q) < s.blk.rd F.DSC_COLQ_QUOTA (s.blk.seqOwner q) →
      Completes (.shotSummary q shot) s fun b => (b.seq q).ended = dropShot shot (s.blk.seq q).ended ∧
        ∃ fl, b.dsc.buffer = s.blk.dsc.buffer ++
          [(s.blk.seqOwner q, ⟨0xFFFE, fl, shot, 3, 0, q, sh.taint, sh.gg, t⟩)]) ∧
    (1024 < ((List.range 16).filter (fun g => g ≠ f.val)).foldl (fun n g => n + s.blk.rd F.DSC_COLQ_QUOTA g) 0 +
        v % 2048 →
      Completes (.colqWrite f v) s fun b => b.rd F.DSC_COLSTAT_QUOTA_ERR = 1 ∧
        OnlyRegs [F.DSC_COLSTAT_QUOTA_ERR.key 0 0] s.blk b) ∧
    (((List.range 16).filter (fun g => g ≠ f.val)).foldl (fun n g => n + s.blk.rd F.DSC_COLQ_QUOTA g) 0 +
        v % 2048 ≤ 1024 →
      Completes (.colqWrite f v) s fun b => b.rd F.DSC_COLQ_QUOTA f = v % 2 ^ F.DSC_COLQ_QUOTA.wid ∧
        OnlyRegs [F.DSC_COLQ_QUOTA.key f 0] s.blk b)


/-! ### Sequencers: start, run, stop (R202 to R209, R229 to R234) -/

/-- R205, R206, R208, R252: EN takes hold as 1 when the region is ready, and is kept waiting otherwise; a start
request of an ARMED sequencer has its start tick; at it the sequencer runs at its start PC with the next shot
number, LATE where the trigger came too late. -/
def Obligations.SequencersStart : Prop :=
  ∀ (q : SeqNo) (birth : Nat) (s : State),
    (s.blk.actOn F.SEQ_CTRL_EN q = true → s.blk.seqState q = 0 →
      (s.blk.rd F.GLB_LC_STATE ≠ 2 ∨ s.blk.on F.GOV_CTRL_LOCK = true) →
      (enReady s.blk q = true →
        Completes (.seqEnSet q) s fun b => b.seqState q = 1 ∧ (b.seq q).halted = false ∧ (b.seq q).enWait = false ∧
          (seqKind q ≠ .acq → Keeps [F.SEQ_STATUS_STATE.key q 0] s.blk b)) ∧
      (enReady s.blk q = false →
        Completes (.seqEnSet q) s fun b => (b.seq q).enWait = true ∧ OnlySeq q s.blk b)) ∧
    (s.blk.actOn F.SEQ_CTRL_EN q = true → s.blk.seqState q = 0 → s.blk.rd F.GLB_LC_STATE = 2 →
      s.blk.on F.GOV_CTRL_LOCK = false →
      Completes (.seqEnSet q) s fun b => b.rd F.GLB_PWR_LOCK_NEEDED = 1 ∧
        OnlyRegs [F.GLB_PWR_LOCK_NEEDED.key 0 0] s.blk b) ∧
    (s.blk.seqState q = 1 → (s.blk.seq q).pendStart = none → (s.blk.seq q).stopAt = none →
      regionHeld s.blk (q.val / 8) = false →
      (Completes (.seqCmdStart q) s fun b =>
        (b.seq q).pendStart = some ⟨granule (s.blk.now + 2), none, none, false, none⟩ ∧
        Follows b (granule (s.blk.now + 2) - s.blk.now) (.seqStart q) ∧ b.rd F.RCV_RESUME_VALID q = 0 ∧
        Keeps [F.RCV_RESUME_VALID.key q 0] s.blk b) ∧
      (s.blk.on F.SEQ_CTRL_TRIG_EN q = true → (s.blk.seq q).halted = false →
        Completes (.startTrigger q birth) s fun b =>
          let t := granule (birth + max 8 (s.blk.rd F.SEQ_START_START_DLY q))
          (s.blk.now + 2 ≤ t → (b.seq q).pendStart = some ⟨t, none, none, false, none⟩ ∧
            Follows b (t - s.blk.now) (.seqStart q)) ∧
          (t < s.blk.now + 2 →
            (b.seq q).pendStart = some ⟨granule (s.blk.now + 2), none, none, true, none⟩) ∧
          Keeps [F.RCV_RESUME_VALID.key q 0] s.blk b)) ∧
    (s.blk.seqState q = 0 → (s.blk.on F.RCV_RESUME_VALID q = false ∨ regionHeld s.blk (q.val / 8) = true) →
      Completes (.seqCmdStart q) s fun b =>
        b.rd F.SEQ_CNT_TRIG_DROP q = satAdd F.SEQ_CNT_TRIG_DROP.wid (s.blk.rd F.SEQ_CNT_TRIG_DROP q) 1 ∧
        OnlyRegs [F.SEQ_CNT_TRIG_DROP.key q 0] s.blk b) ∧
    (s.blk.on F.SEQ_CTRL_TRIG_EN q = false → Completes (.startTrigger q birth) s fun b => b = s.blk) ∧
    (∀ r, (s.blk.seq q).pendStart = some r → r.at_ ≤ s.blk.now → s.blk.seqState q = 1 →
      s.blk.actOn F.SEQ_CTRL_EN q = true →
      Completes (.seqStart q) s fun b => b.seqState q = 2 ∧ (b.seq q).pendStart = none ∧ (b.seq q).fe = .run ∧
        (b.seq q).pc = r.pc.getD (s.blk.rd F.SEQ_START_START_PC q) ∧ (b.seq q).shot.live = true ∧
        b.rd F.SEQ_SHOT_SHOTNO q =
          r.shot.getD (s.blk.rd F.SEQ_SHOT_SHOTNO q + 1) % 2 ^ F.SEQ_SHOT_SHOTNO.wid ∧
        (r.saved = none → (b.seq q).loops = [] ∧ (b.seq q).calls = []) ∧
        (r.late = true → b.rd F.SEQ_STATUS_TRIG_LATE q = 1 ∧
          b.rd F.SEQ_CNT2_TRIG_LATE_CNT q =
            satAdd F.SEQ_CNT2_TRIG_LATE_CNT.wid (s.blk.rd F.SEQ_CNT2_TRIG_LATE_CNT q) 1) ∧
        (r.late = false → b.rd F.SEQ_STATUS_TRIG_LATE q = s.blk.rd F.SEQ_STATUS_TRIG_LATE q))

/-- R205, R209, R229, R230, R232: clearing EN or STOP ends a run at the next granule boundary; 8 ticks after it the
soft stop is complete and the sequencer is ARMED or, without EN, DISABLED; HALT retires into ARMED, and a start
held under QUEUE1 follows. -/
def Obligations.SequencersStop : Prop :=
  ∀ (q : SeqNo) (s : State),
    (s.blk.actOn F.SEQ_CTRL_EN q = false → (s.blk.seq q).held = none → (s.blk.seq q).pendStart = none →
      (s.blk.seqState q = 1 →
        Completes (.seqEnClear q) s fun b => b.seqState q = 0 ∧ Keeps [F.SEQ_STATUS_STATE.key q 0] s.blk b) ∧
      (s.blk.seqState q = 2 → (s.blk.seq q).stopAt = none →
        Completes (.seqEnClear q) s fun b => (b.seq q).stopAt = some (granule s.blk.now) ∧
          Follows b (granule s.blk.now - s.blk.now) (.softStopBegin q) ∧ Keeps [] s.blk b)) ∧
    (s.blk.seqState q = 2 → (s.blk.seq q).stopAt = none →
      Completes (.seqCmdStop q) s fun b => (b.seq q).stopAt = some (granule s.blk.now) ∧
        Follows b (granule s.blk.now - s.blk.now) (.softStopBegin q) ∧ Keeps [] s.blk b) ∧
    (s.blk.seqState q ≠ 2 → Completes (.seqCmdStop q) s fun b => b = s.blk) ∧
    (∀ g, s.blk.seqState q = 2 → (s.blk.seq q).stopAt = some g → g ≤ s.blk.now →
      Completes (.softStopBegin q) s fun b => b.seqState q = 3 ∧ (b.seq q).fe = .halted ∧
        (b.seq q).next = none ∧ (b.seq q).stopAt = none ∧ (b.seq q).held = none ∧
        (b.seq q).shot.aborted = true ∧ Follows b 8 (.softStopComplete q)) ∧
    (s.blk.seqState q = 3 → regionHeld s.blk (q.val / 8) = false →
      (seqKind q = .acq → anyWindow s.blk (seqPort q) = false) →
      Completes (.softStopComplete q) s fun b => (b.seq q).line = [] ∧ (b.seq q).halted = true ∧
        (b.seq q).shot.live = false ∧ (b.seq q).restart = none ∧
        (s.blk.actOn F.SEQ_CTRL_EN q = false → b.seqState q = 0) ∧
        (s.blk.actOn F.SEQ_CTRL_EN q = true → b.seqState q = 1 ∧
          ∀ r, (s.blk.seq q).restart = some r →
            Follows b (max (granule s.blk.now) r.at_ - s.blk.now) (.seqStart q))) ∧
    (s.blk.seqState q = 3 → regionHeld s.blk (q.val / 8) = false → seqKind q = .acq →
      anyWindow s.blk (seqPort q) = true →
      Completes (.softStopComplete q) s fun b => Follows b 1 (.softStopComplete q) ∧ OnlyRegs [] s.blk b) ∧
    (∀ c l, (s.blk.seq q).line = c :: l → c.started = true → c.e.kind = .halt → s.blk.seqState q = 2 →
      Completes (.haltRetire q) s fun b => b.seqState q = 1 ∧ (b.seq q).line = [] ∧ (b.seq q).halted = true ∧
        (b.seq q).held = none ∧ (b.seq q).shot.live = false ∧
        ((s.blk.seq q).shot.live = true →
          Follows b (if seqKind q = .acq then 0 else 3) (.shotSummary q (s.blk.seq q).shot.no)) ∧
        (∀ r, (s.blk.seq q).held = some r → b.rd F.SEQ_STATUS_QPEND q = 0 ∧
          Follows b (max (granule s.blk.now) r.at_ - s.blk.now) (.seqStart q)) ∧
        Keeps [F.SEQ_STATUS_STATE.key q 0, F.SEQ_STATUS_QPEND.key q 0] s.blk b)

/-- R211 to R215: at its commit point the entry that waits gets its start tick and joins the line, a gap
between it and the entry before is counted; at its start it is the entry in progress; a member latches its
segment, a HALT retires, a wait with a timeout has its timeout due. -/
def Obligations.EntriesCommitAndStart : Prop :=
  ∀ (q : SeqNo) (s : State),
    (∀ e r, s.blk.seqState q = 2 → (s.blk.seq q).stopAt = none → (s.blk.seq q).next = some (e, r) →
      commitPoint (s.blk.seq q) r ≤ s.blk.now →
      Completes (.entryCommit q) s fun b =>
        let t := startOf s.blk.now (s.blk.seq q).lastEnd e
        (b.seq q).next = none ∧ (b.seq q).lastEnd = stopOf t e ∧
          (∃ gg veto, (b.seq q).line = (s.blk.seq q).line ++
            [⟨e, t, stopOf t e, false, gg, veto, s.blk.rd F.SEQ_CTRL_UPOL q, none⟩]) ∧
          Follows b (t - s.blk.now) (.entryStart q) ∧
          (∀ x, (s.blk.seq q).lastEnd = some x → x < s.blk.now + 12 → (s.blk.seq q).fresh = false →
            (s.blk.seq q).afterWait = false → b.rd F.SEQ_STATUS_GAP q = 1)) ∧
    (∀ c rest, s.blk.seqState q = 2 → lineFrom s.blk.now (s.blk.seq q).line = some (c, rest) →
      Completes (.entryStart q) s fun b =>
        (b.seq q).line = { c with started := true } :: rest ∧ (b.seq q).req = none ∧
        (∀ t, (s.blk.seq q).req = some t → Follows b 0 (.branchRequest q (Fin.ofNat 4096 t))) ∧
        (c.e.kind = .halt → Follows b 0 (.haltRetire q)) ∧
        (c.e.kind = .waitd → c.e.tmo ≠ 0 → Follows b (c.e.tmo + 1) (.waitdTimeout q)) ∧
        (c.e.kind = .waitev → c.e.tmo ≠ 0 → Follows b (c.e.tmo + 1) (.waitevTimeout q)) ∧
        (c.e.acts = [] → c.e.kind = .wait ∨ c.e.kind = .sync → Keeps [] s.blk b)) ∧
    (∀ c rest x, s.blk.seqState q = 2 → lineFrom s.blk.now (s.blk.seq q).line = some (c, rest) →
      c.e.acts = [] → c.e.kind = .seg → seqKind q ≠ .acq → c.veto = false → c.e.members = [x] →
      x.denied = false → c.e.stream = false → s.blk.rd F.DRV_STATUS_MODE_ACT (seqPort q) ≠ 2 →
      Completes (.entryStart q) s fun b => b.rd F.GOV_LCNT_GG (seqPort q) = c.gg % 2 ^ F.GOV_LCNT_GG.wid ∧
        (b.slot (seqPort q) x.slot).seg = some (segOf s.blk (seqPort q) c.e x))

/-- R180, R181, R220 to R222: a satisfied WAITD goes on where the reflex table says, FALLBACK where a selected
entry is UNAVAIL; its timeout goes on at FB, a WAITEV's at its target, an event after the WAITEV.  The clauses
on the PC are for targets that are no head instruction, whose entry a lookup makes in the same tick. -/
def Obligations.WaitsEnd : Prop :=
  ∀ (q : SeqNo) (c : CEntry) (s : State), s.blk.seqState q = 2 →
    (openOf (s.blk.seq q) .waitd = some c → (s.blk.seq q).satU.isSome = true →
      Completes (.waitdSatisfied q) s fun b =>
        let l := reflexLookup s.blk q c.e.fb (s.blk.seq q).pc
        (b.seq q).waitSel = [] ∧
        (l.2 = true → b.rd F.SEQ_STATUS_FALLBACK q = 1) ∧
        (l.2 = false → b.rd F.SEQ_STATUS_FALLBACK q = s.blk.rd F.SEQ_STATUS_FALLBACK q) ∧
        (isHead s.blk q (progWord s.mem q l.1) = false →
          (b.seq q).pc = l.1 % 4096 ∧ (b.seq q).fe = .run ∧ (b.seq q).lastEnd = some (s.blk.now + 1))) ∧
    (openOf (s.blk.seq q) .waitd = some c → (s.blk.seq q).satU = none → c.e.tmo ≠ 0 →
      c.start + c.e.tmo ≤ s.blk.now →
      Completes (.waitdTimeout q) s fun b => b.rd F.SEQ_STATUS_WAITD_TMO q = 1 ∧
        b.rd F.SEQ_STATUS_FALLBACK q = 1 ∧
        b.rd F.SEQ_CNT2_FALLBACKS q =
          satAdd F.SEQ_CNT2_FALLBACKS.wid (s.blk.rd F.SEQ_CNT2_FALLBACKS q) 1 ∧
        (isHead s.blk q (progWord s.mem q c.e.fb) = false →
          (b.seq q).pc = c.e.fb % 4096 ∧ (b.seq q).fe = .run ∧ (b.seq q).lastEnd = some (s.blk.now + 1))) ∧
    (openOf (s.blk.seq q) .waitev = some c → ∀ ch : Fin 256,
      (c.e.ch = ch → isHead s.blk q (progWord s.mem q (s.blk.seq q).pc) = false →
        Completes (.waitevEvent q ch) s fun b => (b.seq q).pc = (s.blk.seq q).pc % 4096 ∧ (b.seq q).fe = .run ∧
          (b.seq q).lastEnd = some (s.blk.now + 2) ∧ Keeps [] s.blk b) ∧
      (c.e.ch ≠ ch → Completes (.waitevEvent q ch) s fun b => b = s.blk)) ∧
    (openOf (s.blk.seq q) .waitev = some c → c.e.tmo ≠ 0 → c.start + c.e.tmo ≤ s.blk.now →
      Completes (.waitevTimeout q) s fun b => b.rd F.SEQ_STATUS_WAITEV_TMO q = 1 ∧
        (isHead s.blk q (progWord s.mem q c.e.ttgt) = false →
          (b.seq q).pc = c.e.ttgt % 4096 ∧ (b.seq q).lastEnd = some (s.blk.now + 1) ∧
          Keeps [F.SEQ_STATUS_WAITEV_TMO.key q 0] s.blk b))

/-- R203, R222, R232, R240, R258: a host branch request is presented in the next tick; a request that meets an entry
with more than 12 ticks left goes on at its end, one that meets less is held; a sequencer register takes its
value, and a routine that had read it starts again; a VETO notice is a trap. -/
def Obligations.RequestsAndRegisters : Prop :=
  ∀ (q : SeqNo) (target : Fin 4096) (i : Fin 16) (v : Nat) (s : State),
    (Completes (.seqJreq q target) s fun b => Follows b 1 (.branchRequest q target) ∧ OnlyRegs [] s.blk b) ∧
    (s.blk.seqState q ≠ 2 →
      Completes (.branchRequest q target) s fun b =>
        b.rd F.SEQ_CNT_REQ_DISCARD q = satAdd F.SEQ_CNT_REQ_DISCARD.wid (s.blk.rd F.SEQ_CNT_REQ_DISCARD q) 1 ∧
        OnlyRegs [F.SEQ_CNT_REQ_DISCARD.key q 0] s.blk b) ∧
    (∀ e, s.blk.seqState q = 2 → regionHeld s.blk (q.val / 8) = false →
      inProgress s.blk (s.blk.seq q) = .ends e →
      (e ≤ s.blk.now + 12 →
        Completes (.branchRequest q target) s fun b => (b.seq q).req = some target.val ∧
          ((s.blk.seq q).req.isSome = true → b.rd F.SEQ_STATUS_REQ_REPLACED q = 1) ∧
          Keeps [F.SEQ_STATUS_REQ_REPLACED.key q 0] s.blk b) ∧
      (s.blk.now + 12 < e → isHead s.blk q (progWord s.mem q target) = false →
        Completes (.branchRequest q target) s fun b => (b.seq q).pc = target ∧ (b.seq q).lastEnd = some e ∧
          (b.seq q).next = none ∧ (b.seq q).brd = none ∧ (b.seq q).rt = none ∧
          (b.seq q).line = (s.blk.seq q).line.filter (fun c => c.started))) ∧
    ((s.blk.seqState q ≠ 2 ∨ hasRead s.mem s.blk q i = false) →
      Completes (.sreg q i v) s fun b => b.act F.SEQ_SREG_VALUE q i = v % 2 ^ 32 ∧
        Keeps [F.SEQ_SREG_VALUE.key q i] s.blk b) ∧
    (∀ r, s.blk.seqState q = 2 → (s.blk.seq q).rt = some r → r.committed = false →
      hasRead s.mem s.blk q i = true →
      Completes (.sreg q i v) s fun b => b.act F.SEQ_SREG_VALUE q i = v % 2 ^ 32 ∧
        (b.seq q).rt = some (r.fresh (s.blk.seq q).pc) ∧ (b.seq q).build = r.mark ∧
        b.rd F.UCS_SCNT_LAST_CAUSE (q.val / 8) (q.val % 8) = 1) ∧
    (s.blk.seqState q = 2 →
      Completes (.vetoNotice q) s fun b => (b.seq q).trap = some s.blk.now ∧
        b.rd F.UCS_SCNT_TRAPS (q.val / 8) (q.val % 8) =
          satAdd F.UCS_SCNT_TRAPS.wid (s.blk.rd F.UCS_SCNT_TRAPS (q.val / 8) (q.val % 8)) 1 ∧
        ∀ r, (s.blk.seq q).rt = some r → r.committed = false →
          (b.seq q).rt = some (r.fresh (s.blk.seq q).pc) ∧ b.rd F.UCS_SCNT_LAST_CAUSE (q.val / 8) (q.val % 8) = 2)

/-! ### The sequencer instructions (R210 to R228) -/

/-- R223: NOP, the jumps, calls and loops move the PC as their rows say and leave all else as it was; a full or
empty call or loop stack is a STACK error; OPR writes one sequencer register. -/
def Obligations.ProgramFlowInstructions : Prop :=
  ∀ (q : SeqNo) (w : Nat) (s : State), let x := s.blk.seq q
    (AtWord s q 0x00 w → Completes (.nop q) s (GoesOn q s.blk x (x.pc + 1))) ∧
    (AtWord s q 0x07 w → Completes (.jmp q) s (GoesOn q s.blk x (field w 0 12))) ∧
    (AtWord s q 0x08 w →
      Completes (.brs q) s (GoesOn q s.blk x
        (if condHolds (field w 49 3) (operandReg s.blk q (field w 52 4)) then field w 0 12 else x.pc + 1))) ∧
    (AtWord s q 0x09 w →
      (x.calls.length < 8 →
        Completes (.call q) s (GoesOn q s.blk { x with calls := nextPc s.blk q :: x.calls } (field w 0 12))) ∧
      (8 ≤ x.calls.length → Completes (.call q) s (IsError q s.blk true))) ∧
    (AtWord s q 0x0A w →
      (∀ a l, x.calls = a :: l → Completes (.ret q) s (GoesOn q s.blk { x with calls := l } a)) ∧
      (x.calls = [] → Completes (.ret q) s (IsError q s.blk true))) ∧
    (AtWord s q 0x0B w →
      let n := (if bit w 56 then operandReg s.blk q (field w 0 4) else field w 0 24) % 2 ^ 24
      (n = 0 → Completes (.loop q) s (GoesOn q s.blk x (field w 44 12 + 1))) ∧
      (n ≠ 0 → x.loops.length < 4 →
        Completes (.loop q) s (GoesOn q s.blk { x with loops := (n, nextPc s.blk q) :: x.loops } (x.pc + 1))) ∧
      (n ≠ 0 → 4 ≤ x.loops.length → Completes (.loop q) s (IsError q s.blk true))) ∧
    (AtWord s q 0x0C w →
      (∀ n a l, x.loops = (n, a) :: l →
        (n % 2 ^ 24 ≠ 1 →
          Completes (.endl q) s (GoesOn q s.blk { x with loops := ((n + 2 ^ 24 - 1) % 2 ^ 24, a) :: l } a)) ∧
        (n % 2 ^ 24 = 1 → Completes (.endl q) s (GoesOn q s.blk { x with loops := l } (x.pc + 1)))) ∧
      (x.loops = [] → Completes (.endl q) s (IsError q s.blk true))) ∧
    (AtWord s q 0x16 w →
      Completes (.opr q) s fun b =>
        b.act F.SEQ_SREG_VALUE q (field w 52 4) =
          opResult (field w 40 4) (s.blk.act F.SEQ_SREG_VALUE q (field w 48 4))
            (if bit w 39 then field w 0 32 else s.blk.act F.SEQ_SREG_VALUE q (field w 44 4)) % 2 ^ 32 ∧
        (b.seq q).pc = nextPc s.blk q ∧ (b.seq q).build = x.build ∧
        Keeps [F.SEQ_SREG_VALUE.key q (field w 52 4)] s.blk b)

/-- R223, R226, R227: the timed instructions and the members of a PLAY group.  A member joins the entry that is under
construction, CHAIN 0 closes it; a timed instruction in an open group, and a member that breaks the group, is
ILLEGAL; a full fetch queue holds STREAM FETCH. -/
def Obligations.EntryInstructions : Prop :=
  ∀ (q : SeqNo) (w : Nat) (s : State), let x := s.blk.seq q
    (AtWord s q 0x01 w → x.build.kind = .none →
      Completes (.halt q) s (ClosesAs q s.blk { x.build with kind := .halt })) ∧
    (AtWord s q 0x01 w → x.build.kind ≠ .none → Completes (.halt q) s (IsError q s.blk false)) ∧
    (AtWord s q 0x02 w → (x.build.kind = .none ∨ x.build.kind = .seg ∧ x.build.len = field w 0 16) →
      x.build.members.any (fun y => y.slot == field w 50 5) = false →
      Completes (.play q) s fun b => ∃ (y : Member) (e : Entry), y.slot = field w 50 5 ∧
        y.addr = 16 * (if bit w 55 then operandReg s.blk q (field w 30 4) % 2 ^ 17 else field w 30 17) ∧
        e = { x.build with kind := .seg, len := field w 0 16, members := x.build.members ++ [y] } ∧
        (bit w 56 = false → ClosesAs q s.blk e b) ∧
        (bit w 56 = true → GoesOn q s.blk { x with build := e } (x.pc + 1) b)) ∧
    (AtWord s q 0x02 w → (x.build.kind = .seg ∧ x.build.len ≠ field w 0 16 ∨
        x.build.members.any (fun y => y.slot == field w 50 5) = true) →
      Completes (.play q) s (IsError q s.blk false)) ∧
    (AtWord s q 0x03 w → x.build.kind ≠ .none → Completes (.wait q) s (IsError q s.blk false)) ∧
    (AtWord s q 0x03 w → x.build.kind = .none →
      let t := if bit w 56 then operandReg s.blk q (field w 0 4) else field w 0 32
      (t = 0 → Completes (.wait q) s (GoesOn q s.blk x (x.pc + 1))) ∧
      (t ≠ 0 → Completes (.wait q) s (ClosesAs q s.blk { x.build with kind := .wait, len := t }))) ∧
    (∀ c ∈ [(0x04, Instr.waitev q), (0x05, .waitd q), (0x06, .brd q), (0x13, .sync q)], AtWord s q c.1 w →
      x.build.kind ≠ .none → Completes c.2 s (IsError q s.blk false)) ∧
    (AtWord s q 0x04 w → x.build.kind = .none →
      Completes (.waitev q) s (ClosesAs q s.blk
        { x.build with kind := .waitev, ch := field w 48 8, ttgt := field w 32 12, tmo := field w 0 32 })) ∧
    (AtWord s q 0x05 w → x.build.kind = .none →
      Completes (.waitd q) s (ClosesAs q s.blk
        { x.build with kind := .waitd, fb := field w 44 12, tmo := field w 0 32 })) ∧
    (AtWord s q 0x06 w → x.build.kind = .none →
      Completes (.brd q) s fun b => OnlySeq q s.blk b ∧
        b.seq q = { x with pc := nextPc s.blk q, fe := .waitLookup, latch := [], brd := some (field w 44 12, s.blk.now) }) ∧
    (AtWord s q 0x13 w → x.build.kind = .none →
      Completes (.sync q) s (ClosesAs q s.blk { x.build with kind := .sync, len := field w 0 5 })) ∧
    (AtWord s q 0x14 w → bit w 56 = false →
      (4 ≤ (queued x).length →
        Completes (.streamFetch q) s fun b => b.seq q = { x with fe := .waitQueue } ∧ OnlySeq q s.blk b) ∧
      ((queued x).length < 4 →
        Completes (.streamFetch q) s fun b =>
          let a := 64 * field w 24 29
          let size := field w 0 16 * fetchRate s.blk (seqPort q)
          let bad := !inDpart s.blk (s.blk.seqOwner q) a size
          (b.seq q).fetchq = x.fetchq ++ [⟨a, field w 0 16, size, 0, false, bad⟩] ∧
          (b.seq q).pc = nextPc s.blk q ∧ (b.seq q).fe = .run ∧
          (bad = true → b.rd F.HIF_FSTAT_DRAM_DENIED (s.blk.seqOwner q) = 1) ∧
          Keeps (if bad then [F.HIF_FSTAT_DRAM_DENIED.key (s.blk.seqOwner q) 0] else []) s.blk b)) ∧
    (AtWord s q 0x14 w → bit w 56 = true → addStream x x.build = none →
      Completes (.streamPlays q) s (IsError q s.blk false)) ∧
    (∀ e, AtWord s q 0x14 w → bit w 56 = true → addStream x x.build = some e → e.kind = .seg ∧ e.stream = true ∧
      (bit w 55 = false → Completes (.streamPlays q) s (ClosesAs q s.blk e)) ∧
      (bit w 55 = true → Completes (.streamPlays q) s (GoesOn q s.blk { x with build := e } (x.pc + 1))))

/-- R210, R223: a zero-time instruction attaches its action to the entry under construction and the front end goes
on; nothing else changes before the entry starts. -/
def Obligations.AttachedActions : Prop :=
  ∀ (q : SeqNo) (w : Nat) (s : State),
    let x := s.blk.seq q
    let att := fun (a : Act) => GoesOn q s.blk { x with build := { x.build with acts := x.build.acts ++ [a] } } (x.pc + 1)
    (AtWord s q 0x0D w → Completes (.setf q) s (att (.ftw (field w 50 5) (field w 0 48)))) ∧
    (AtWord s q 0x0E w → Completes (.setp q) s (att (.poff (field w 50 5) (field w 0 32) (bit w 48)))) ∧
    (AtWord s q 0x0F w → Completes (.shiftp q) s (att (.shiftp (field w 50 5) (field w 0 32)))) ∧
    (AtWord s q 0x10 w →
      Completes (.seta q) s
        (att (if bit w 55 then .pscale (field w 0 16) else .ascl (field w 50 5) (field w 0 16)))) ∧
    (AtWord s q 0x11 w → Completes (.emit q) s (att (.emit (field w 0 2)))) ∧
    (AtWord s q 0x12 w → Completes (.capt q) s (att (.capt (field w 0 4)))) ∧
    (AtWord s q 0x15 w → Completes (.openw q) s (att (.openw (field w 0 32) (field w 32 2)))) ∧
    (AtWord s q 0x17 w → Completes (.shot q) s (att (.shot (bit w 0)))) ∧
    (AtWord s q 0x18 w → Completes (.mrkp q) s (att (.mrkp (field w 8 4) (field w 0 8))))

/-- R224, R225, R229, R481: a vendor word that breaks its format, and one that reads as poisoned, is ILLEGAL;
R239, R247, R249: a customer opcode that the dispatch table holds starts its routine at its entry, any other opcode is
ILLEGAL. -/
def Obligations.OtherWords : Prop :=
  ∀ (q : SeqNo) (s : State), let x := s.blk.seq q
    let w := progWord s.mem q x.pc
    feReady s.blk q = true →
    (∀ c ∈ vendorRows q, opOf w = c.1 →
      (wordPoisoned s.mem s.blk q = false → wordIllegal s.blk q w = true →
        Completes c.2 s (IsError q s.blk false)) ∧
      (wordPoisoned s.mem s.blk q = true →
        Completes c.2 s fun b => IsError q s.blk false b ∧
          b.rd F.MEM_ECC_POISON_COUNT (storeOf s.blk (pgmBase q)).1 =
            satAdd F.MEM_ECC_POISON_COUNT.wid
              (s.blk.rd F.MEM_ECC_POISON_COUNT (storeOf s.blk (pgmBase q)).1) 1)) ∧
    (0x40 ≤ opOf w → wordPoisoned s.mem s.blk q = false →
      (customerOk s.blk q (opOf w) = true →
        Completes (.customerOpcode q) s fun b =>
          (b.seq q).rt = some ⟨dispEntry s.blk (q.val / 8) (opOf w) % 8192, dispEntry s.blk (q.val / 8) (opOf w) % 8192,
            w, [], nextPc s.blk q, [], x.build, [], false, false, none⟩ ∧
          (b.seq q).fe = .run ∧ (b.seq q).build = x.build ∧ OnlySeq q s.blk b)) ∧
    (vendorOp w = false → customerOk s.blk q (opOf w) = false → wordPoisoned s.mem s.blk q = false →
      Completes (.reservedOpcode q) s (IsError q s.blk false))

/-! ### Micro-ops (R239 to R246) -/

/-- R242 to R245: the micro-ops that compute, branch and set the next PC, on a word that is not the LAST: the result
goes to the selected register, a sequencer register through the commit buffer, and nothing else changes;
UNDEF, FAULT, and VCHK on a vendor word with a reserved bit set, are ILLEGAL. -/
def Obligations.ComputingMicroOps : Prop :=
  ∀ (q : SeqNo) (w : Nat) (r : Rt) (s : State),
    let x := s.blk.seq q
    let p := pastUop r
    let rd := uRead s.blk q r
    let dest := fun (xs : List Nat) (d v : Nat) => NextUop q s.blk x (uWrite (uNote s.blk p xs) d v)
    (AtUop s q 0x00 w r → Completes (.uopUndef q) s (IsError q s.blk false)) ∧
    (AtUop s q 0x1D w r → Completes (.uopFault q) s (IsError q s.blk false)) ∧
    (AtUop s q 0x30 w r → vendorOp r.mir = true → reservedSet r.mir = true →
      Completes (.uopVchk q) s (IsError q s.blk false)) ∧
    (uLast w = false →
      (AtUop s q 0x30 w r → (vendorOp r.mir = false ∨ reservedSet r.mir = false) →
        Completes (.uopVchk q) s (NextUop q s.blk x p)) ∧
      (AtUop s q 0x01 w r → Completes (.uopNop q) s (NextUop q s.blk x p)) ∧
      (AtUop s q 0x02 w r → Completes (.uopCommit q) s (NextUop q s.blk x { p with committed := true })) ∧
      (AtUop s q 0x03 w r →
        let v := field r.mir (field w 13 6) (field w 8 5 + 1)
        Completes (.uopMxt q) s
          (NextUop q s.blk x (uWrite p (uD w) (if bit w 19 then ofS 32 (toS (field w 8 5 + 1) v) else v)))) ∧
      (AtUop s q 0x04 w r →
        Completes (.uopLdi q) s (NextUop q s.blk x (uWrite p (uD w) (ofS 32 (toS 20 (field w 0 20)))))) ∧
      (AtUop s q 0x05 w r →
        Completes (.uopAlu q) s (dest [uB w, uC w] (uD w) (opResult (field w 0 4) (rd (uB w)) (rd (uC w))))) ∧
      (AtUop s q 0x06 w r →
        Completes (.uopAlui q) s
          (dest [uB w] (uD w) (opResult (field w 11 4) (rd (uB w)) (ofS 32 (toS 11 (field w 0 11)))))) ∧
      (AtUop s q 0x07 w r →
        Completes (.uopSrd q) s (dest [uB w, rd (uB w) % 16] (uD w) (rtSreg s.blk q r (rd (uB w) % 16)))) ∧
      (AtUop s q 0x08 w r →
        Completes (.uopSwr q) s (dest [uD w, uB w] (rd (uD w) % 16) (rd (uB w)))) ∧
      (AtUop s q 0x09 w r → Completes (.uopUjmp q) s (NextUop q s.blk x { p with upc := field w 0 13 })) ∧
      (AtUop s q 0x0A w r →
        Completes (.uopUbr q) s (NextUop q s.blk x
          (if condHolds (field w 22 3) (rd (field w 17 5))
            then { uNote s.blk p [field w 17 5] with upc := field w 0 13 } else uNote s.blk p [field w 17 5]))) ∧
      (AtUop s q 0x0B w r →
        (field w 0 4 = 0 →
          Completes (.uopSetnpc q) s (NextUop q s.blk x { uNote s.blk p [uD w] with npc := rd (uD w) % 4096 })) ∧
        (field w 0 4 = 1 → Completes (.uopSetnpc q) s (NextUop q s.blk x { p with npc := field r.mir 0 12 })) ∧
        (field w 0 4 = 2 → Completes (.uopSetnpc q) s (NextUop q s.blk x { p with npc := field r.mir 44 12 })) ∧
        (field w 0 4 = 3 → Completes (.uopSetnpc q) s (NextUop q s.blk x { p with npc := field r.mir 32 12 }))) ∧
      (AtUop s q 0x11 w r →
        (rd (uB w) % 1024 < 768 →
          Completes (.uopDvrd q) s
            (dest [uB w] (uD w) (dvByte (s.blk.dvEnt (seqTile q) (rd (uB w) % 1024))))) ∧
        (768 ≤ rd (uB w) % 1024 → Completes (.uopDvrd q) s (IsError q s.blk false))))

/-- R218, R227, R244 to R246: the micro-ops of the stacks and of STREAM FETCH put their effects in the commit
buffer, in issue order; a stack that the buffered effects leave full or empty is a STACK error.  At the LAST
micro-op the effects take hold and the front end goes on at NPC, with the entry the routine closed. -/
def Obligations.StackMicroOpsAndRetirement : Prop :=
  ∀ (q : SeqNo) (w : Nat) (r : Rt) (s : State),
    let x := s.blk.seq q
    let p := pastUop r
    let rd := uRead s.blk q r
    (AtUop s q 0x0C w r → 8 ≤ (rtCalls s.blk q r).length → Completes (.uopPushc q) s (IsError q s.blk true)) ∧
    (AtUop s q 0x0D w r → rtCalls s.blk q r = [] → Completes (.uopPopc q) s (IsError q s.blk true)) ∧
    (AtUop s q 0x0E w r → 4 ≤ (rtLoops s.blk q r).length → Completes (.uopLpush q) s (IsError q s.blk true)) ∧
    (AtUop s q 0x0F w r → rtLoops s.blk q r = [] → Completes (.uopLstep q) s (IsError q s.blk true)) ∧
    (uLast w = false →
      (AtUop s q 0x0C w r → (rtCalls s.blk q r).length < 8 →
        (field w 0 4 = 0 →
          Completes (.uopPushc q) s (NextUop q s.blk x
            { uNote s.blk p [uD w] with cbuf := r.cbuf ++ [.pushc (rd (uD w) % 4096)] })) ∧
        (field w 0 4 ≠ 0 →
          Completes (.uopPushc q) s (NextUop q s.blk x { p with cbuf := r.cbuf ++ [.pushc (nextPc s.blk q)] }))) ∧
      (∀ a l, AtUop s q 0x0D w r → rtCalls s.blk q r = a :: l →
        Completes (.uopPopc q) s (NextUop q s.blk x (uWrite { p with cbuf := r.cbuf ++ [.popc] } (uD w) a))) ∧
      (AtUop s q 0x0E w r → (rtLoops s.blk q r).length < 4 →
        Completes (.uopLpush q) s (NextUop q s.blk x
          { uNote s.blk p [uD w] with cbuf := r.cbuf ++ [.lpush (rd (uD w) % 2 ^ 24) (nextPc s.blk q)] })) ∧
      (∀ n a l, AtUop s q 0x0F w r → rtLoops s.blk q r = (n, a) :: l →
        Completes (.uopLstep q) s (NextUop q s.blk x
          { p with cbuf := r.cbuf ++ [.lstep], npc := if n % 2 ^ 24 = 1 then r.npc else a })) ∧
      (AtUop s q 0x10 w r →
        Completes (.uopLtop q) s (NextUop q s.blk x
          (uWrite p (uD w) (match rtLoops s.blk q r with | (n, _) :: _ => n | [] => 0)))) ∧
      (AtUop s q 0x1C w r → seqKind q ≠ .acq →
        Completes (.uopSfetch q) s (NextUop q s.blk x
          { uNote s.blk p [uD w, uB w] with
            cbuf := r.cbuf ++ [.fetch (rd (uD w) % 2 ^ 29) (rd (uB w) % 65536)] }))) ∧
    (AtUop s q 0x1C w r → seqKind q = .acq → Completes (.uopSfetch q) s (IsError q s.blk false)) ∧
    (AtUop s q 0x01 w r → uLast w = true → r.brd = none → fetches r = 0 →
      (x.build.kind = .none →
        Completes (.uopNop q) s fun b => (b.seq q).pc = r.npc % 4096 ∧ (b.seq q).rt = none ∧ (b.seq q).fe = .run ∧
          (b.seq q).build = x.build ∧
          (r.cbuf = [] → OnlySeq q s.blk b ∧ (b.seq q).calls = x.calls ∧ (b.seq q).loops = x.loops) ∧
          (∀ a, r.cbuf = [.pushc a] → (b.seq q).calls = a :: x.calls) ∧
          (∀ n a, r.cbuf = [.lpush n a] → (b.seq q).loops = (n, a) :: x.loops) ∧
          (∀ i v, r.cbuf = [.sreg i v] → b.act F.SEQ_SREG_VALUE q i = v % 2 ^ 32)) ∧
      (x.build.kind = .wait → x.build.len ≠ 0 → r.closed = true →
        Completes (.uopNop q) s fun b => (b.seq q).next = some (x.build, s.blk.now) ∧
          (b.seq q).fe = .waitCommit ∧ (b.seq q).rt = none ∧ (b.seq q).pc = r.npc % 4096) ∧
      (x.build.kind = .wait → r.closed = false → Completes (.uopNop q) s (IsError q s.blk false)))

/-- R223, R226, R245, R246: the micro-ops that build an entry, on a word that is not the LAST. -/
def Obligations.EntryMicroOps : Prop :=
  ∀ (q : SeqNo) (w : Nat) (r : Rt) (s : State), uLast w = false →
    let x := s.blk.seq q
    let e := x.build
    let p := pastUop r
    let rd := uRead s.blk q r
    let sel := field w 0 4
    let grows := fun (e' : Entry) (p' : Rt) => NextUop q s.blk { x with build := e' } p'
    let acts := fun (a : Act) (xs : List Nat) => grows { e with acts := e.acts ++ [a] } (uNote s.blk p xs)
    let member := fun (slot addr len : Nat) (p' : Rt) (b : Blk) => ∃ y : Member, y.slot = slot ∧ y.addr = 16 * addr ∧
      grows { e with kind := .seg, len := len, members := e.members ++ [y] } p' b
    (∀ k : EKind, AtUop s q 0x12 w r → e.members = [] → e.stream = false → e.len = 0 →
      (sel, k) ∈ [(1, EKind.wait), (2, .waitev), (3, .waitd), (4, .sync), (5, .halt)] →
      (e.kind = .none ∨ e.kind = k → Completes (.uopEkind q) s (grows { e with kind := k } p)) ∧
      (e.kind ≠ .none → e.kind ≠ k → Completes (.uopEkind q) s (IsError q s.blk false))) ∧
    (AtUop s q 0x13 w r → r.mark.kind ≠ .seg →
      (e.kind = .none ∨ lenOk e.kind (rd (uD w)) = true →
        Completes (.uopElen q) s fun b => (b.seq q).build.len = rd (uD w) ∧ (b.seq q).build.kind = e.kind ∧
          (b.seq q).build.members.map (·.slot) = e.members.map (·.slot) ∧
          (b.seq q).rt = some (uNote s.blk p [uD w]) ∧ OnlySeq q s.blk b) ∧
      (e.kind ≠ .none → lenOk e.kind (rd (uD w)) = false → Completes (.uopElen q) s (IsError q s.blk false))) ∧
    (AtUop s q 0x14 w r → seqKind q ≠ .acq → slotOk s.blk q (rd (uD w) % 32) = true →
      (e.len = 0 ∨ lenOk .seg e.len = true) → (e.kind = .none ∨ e.kind = .seg) →
      (e.members.any (fun y => y.slot == rd (uD w) % 32) = false →
        Completes (.uopEplay q) s
          (member (rd (uD w) % 32) (rd (uB w) % 2 ^ 17) e.len (uNote s.blk p [uD w, uB w]))) ∧
      (e.members.any (fun y => y.slot == rd (uD w) % 32) = true →
        Completes (.uopEplay q) s (IsError q s.blk false))) ∧
    (AtUop s q 0x15 w r → seqKind q ≠ .acq → slotOk s.blk q (field r.mir 50 5) = true →
      (field r.mir 0 16 = 0 ∨ 4 ≤ field r.mir 0 16) →
      (e.kind = .none ∨ e.kind = .seg ∧ e.len = field r.mir 0 16) →
      e.members.any (fun y => y.slot == field r.mir 50 5) = false →
      (sel = 0 → Completes (.uopEplaym q) s (member (field r.mir 50 5) (field r.mir 30 17) (field r.mir 0 16) p)) ∧
      (sel = 1 → Completes (.uopEplaym q) s
        (member (field r.mir 50 5) (rd (uB w) % 2 ^ 17) (field r.mir 0 16) (uNote s.blk p [uB w])))) ∧
    (AtUop s q 0x16 w r → seqKind q ≠ .acq →
      (∀ e', addStream x e = some e' →
        Completes (.uopEstrm q) s (grows e' { p with closed := r.closed || !bit w 0 })) ∧
      (addStream x e = none → Completes (.uopEstrm q) s (IsError q s.blk false))) ∧
    (AtUop s q 0x17 w r →
      Completes (.uopEclose q) s (grows e { p with closed := r.closed || !bit w 0 || !bit r.mir 56 })) ∧
    (AtUop s q 0x18 w r → seqKind q ≠ .acq →
      let slot := rd (uC w) % 32
      let xs := [uD w, uB w, uC w]
      (sel = 5 → Completes (.uopEparm q) s (acts (.pscale (rd (uD w) % 65536)) xs)) ∧
      (slot < nSlots (seqPort q) →
        (sel = 0 →
          Completes (.uopEparm q) s (acts (.ftw slot (rd (uD w) + 2 ^ 32 * (rd (uB w) % 65536))) xs)) ∧
        (sel = 1 → Completes (.uopEparm q) s (acts (.poff slot (rd (uD w)) false) xs)) ∧
        (sel = 2 → Completes (.uopEparm q) s (acts (.poff slot (rd (uD w)) true) xs)) ∧
        (sel = 3 → Completes (.uopEparm q) s (acts (.shiftp slot (rd (uD w))) xs)) ∧
        (sel = 4 → Completes (.uopEparm q) s (acts (.ascl slot (rd (uD w) % 65536)) xs)))) ∧
    (AtUop s q 0x19 w r →
      let xs := [uD w, uB w]
      (sel = 0 → Completes (.uopEatt q) s (acts (.emit (rd (uD w) % 4)) xs)) ∧
      (sel = 1 → Completes (.uopEatt q) s (acts (.capt (rd (uD w) % 16)) xs)) ∧
      (sel = 2 → seqKind q = .acq → Completes (.uopEatt q) s (acts (.openw (rd (uD w)) (rd (uB w) % 4)) xs)) ∧
      (sel = 2 → seqKind q ≠ .acq → Completes (.uopEatt q) s (IsError q s.blk false)) ∧
      (sel = 3 → Completes (.uopEatt q) s (acts (.shot (bit (rd (uD w)) 0)) xs)) ∧
      (sel = 4 → Completes (.uopEatt q) s (acts (.mrkp (rd (uD w) % 16) (rd (uB w) % 256)) xs))) ∧
    (AtUop s q 0x1A w r →
      let p' := uNote s.blk p [uD w]
      (sel = 0 → Completes (.uopEaux q) s (grows { e with fb := rd (uD w) % 4096 } p')) ∧
      (sel = 1 → Completes (.uopEaux q) s (grows { e with ttgt := rd (uD w) % 4096 } p')) ∧
      (sel = 2 → Completes (.uopEaux q) s (grows { e with ch := rd (uD w) % 256 } p')) ∧
      (sel = 3 → Completes (.uopEaux q) s (grows { e with tmo := rd (uD w) } p'))) ∧
    (AtUop s q 0x1B w r →
      Completes (.uopBrdarm q) s (grows e { uNote s.blk p [uD w] with brd := some (rd (uD w) % 4096) }))

/-! ### The control store of customer routines (R251 to R255, R264) -/

/-- R251 to R255, R264: VERIFY checks the region's customer area and reports its first failure; LOCK; customer words
are written while the region is idle, unlocked and no check runs, and VERIFIED falls; the vendor image in place, a
held EN takes hold. -/
def Obligations.CustomerArea : Prop :=
  ∀ (r : Region) (idx v : Nat) (s : State),
    let ok := s.blk.regionIdle r && !s.blk.on F.UCS_STATUS_LOCKED r && s.blk.rd F.UCS_STATUS_STATUS r != 1
    (s.blk.rd F.UCS_STATUS_STATUS r ≠ 1 →
      Completes (.verify r) s fun b => b.rd F.UCS_STATUS_STATUS r = 1 ∧ b.rd F.UCS_STATUS_VERIFIED r = 0 ∧
        (∃ d, d ≤ 52428 ∧ Follows b d (.verifyDone r)) ∧
        OnlyRegs [F.UCS_STATUS_STATUS.key r 0, F.UCS_STATUS_FAULT_OPC.key r 0, F.UCS_STATUS_FAULT_ADDR.key r 0,
          F.UCS_STATUS_VERIFIED.key r 0] s.blk b) ∧
    (s.blk.rd F.UCS_STATUS_STATUS r = 1 →
      (Completes (.verify r) s fun b => b = s.blk) ∧
      (verifyAll s.blk r = none →
        Completes (.verifyDone r) s fun b => b.rd F.UCS_STATUS_STATUS r = 0 ∧ b.rd F.UCS_STATUS_VERIFIED r = 1 ∧
          b.rd F.UCS_STATUS_VERIFY_COUNT r =
            (s.blk.rd F.UCS_STATUS_VERIFY_COUNT r + 1) % 2 ^ F.UCS_STATUS_VERIFY_COUNT.wid ∧
          OnlyRegs [F.UCS_STATUS_STATUS.key r 0, F.UCS_STATUS_VERIFIED.key r 0, F.UCS_STATUS_VERIFY_COUNT.key r 0]
            s.blk b) ∧
      (∀ o st a, verifyAll s.blk r = some (o, st, a) →
        Completes (.verifyDone r) s fun b => b.rd F.UCS_STATUS_STATUS r = st % 2 ^ F.UCS_STATUS_STATUS.wid ∧
          b.rd F.UCS_STATUS_FAULT_OPC r = o % 2 ^ F.UCS_STATUS_FAULT_OPC.wid ∧
          b.rd F.UCS_STATUS_FAULT_ADDR r = a % 2 ^ F.UCS_STATUS_FAULT_ADDR.wid ∧
          OnlyRegs [F.UCS_STATUS_STATUS.key r 0, F.UCS_STATUS_FAULT_OPC.key r 0, F.UCS_STATUS_FAULT_ADDR.key r 0]
            s.blk b)) ∧
    (Completes (.lock r) s fun b => b.rd F.UCS_STATUS_LOCKED r = 1 ∧
      OnlyRegs [F.UCS_CTRL_LOCK.key r 0, F.UCS_STATUS_LOCKED.key r 0] s.blk b) ∧
    (6144 ≤ idx → idx < 8192 →
      (ok = true →
        Completes (.ucsCustomerWrite r false idx v) s fun b => b.rd F.UCS_WORD_WORD r idx = v % 2 ^ 32 ∧
          b.rd F.UCS_STATUS_VERIFIED r = 0 ∧
          OnlyRegs [F.UCS_WORD_WORD.key r idx, F.UCS_STATUS_VERIFIED.key r 0] s.blk b) ∧
      (ok = false →
        Completes (.ucsCustomerWrite r false idx v) s fun b => b.rd F.UCS_STATUS_WR_REFUSED r = 1 ∧
          OnlyRegs [F.UCS_STATUS_WR_REFUSED.key r 0] s.blk b)) ∧
    (64 ≤ idx → idx < 128 →
      (ok = true →
        Completes (.ucsCustomerWrite r true idx v) s fun b => b.rd F.UCS_DISP_VALID r idx = field v 31 1 ∧
          b.rd F.UCS_DISP_ENTRY r idx = field v 0 13 ∧ b.rd F.UCS_STATUS_VERIFIED r = 0) ∧
      (ok = false →
        Completes (.ucsCustomerWrite r true idx v) s fun b => b.rd F.UCS_STATUS_WR_REFUSED r = 1 ∧
          OnlyRegs [F.UCS_STATUS_WR_REFUSED.key r 0] s.blk b)) ∧
    ((∀ q < 64, (s.blk.seq q).enWait = false) →
      Completes .vimgReady s fun b => (∀ i < 8, b.rd F.UCS_STATUS_VIMG_READY i = 1) ∧
        OnlyRegs ((List.range 8).map (fun i => F.UCS_STATUS_VIMG_READY.key i 0)) s.blk b)

/-! ### Odric decision cores (R267 to R317) -/

/-- R270, R277, R279: the integer operations, on words without parallel moves: D takes the result of A and B, the
second operand an immediate in the IMM format; ADDS and SUBS saturate and set SAT; nothing else changes. -/
def Obligations.OdricIntegerOperations : Prop :=
  ∀ (n : CoreNo) (w : Nat) (s : State), AtCore s n w → noMoves w = true →
    let va := gRd s.blk n (odrA w)
    let vb := if isPar w then gRd s.blk n (odrB w) else ofS 32 (toS 16 (field w 0 16))
    let a := BitVec.ofNat 32 va
    let c := BitVec.ofNat 32 vb
    let d := odrD w
    let o := s.blk.odr n
    (isOp 0x00 w = true → Completes (.odrNop n) s (CoreTo n s.blk o [])) ∧
    (∀ r ∈ ([(0x01, .add n, (a + c).toNat), (0x02, .sub n, (a - c).toNat), (0x03, .and n, (a &&& c).toNat),
        (0x04, .or n, (a ||| c).toNat), (0x05, .xor n, (a ^^^ c).toNat), (0x06, .shl n, (a <<< (vb % 32)).toNat),
        (0x07, .shr n, (a >>> (vb % 32)).toNat), (0x08, .sar n, (a.sshiftRight (vb % 32)).toNat),
        (0x09, .mov n, if isPar w then va else vb), (0x0A, .neg n, (-a).toNat),
        (0x0B, .abs n, if va = 2 ^ 31 then 2 ^ 31 - 1 else a.toInt.natAbs),
        (0x0C, .min n, if a.sle c then va else vb), (0x0D, .max n, if a.sle c then vb else va),
        (0x0E, .parm n, popcount 32 (va &&& vb) % 2), (0x0F, .popc n, popcount 32 (va &&& vb)),
        (0x10, .selnz n, if va = 0 then gRd s.blk n d else vb), (0x11, .selz n, if va = 0 then vb else gRd s.blk n d),
        (0x12, .mul n, (a * c).toNat), (0x13, .mulh n, ofS 32 (a.toInt * c.toInt / 2 ^ 32)),
        (0x16, .cmplt n, if a.slt c then 1 else 0), (0x17, .cmpeq n, if va = vb then 1 else 0),
        (0x18, .extb n, va / 2 ^ (8 * (vb % 4)) % 256), (0x1B, .mfa n, aRd s.blk n (odrA w % 8)),
        (0x1C, .mfm n, s.blk.rd F.ODR_M_VAL n (odrA w % 8))] : List (Nat × Instr × Nat)),
      isOp r.1 w = true →
      Completes r.2.1 s fun b => gRd b n d = r.2.2 ∧ CoreTo n s.blk o [gKey s.blk n d] b) ∧
    (∀ r ∈ ([(0x14, .adds n, a.toInt + c.toInt), (0x15, .subs n, a.toInt - c.toInt)] : List (Nat × Instr × Int)),
      isOp r.1 w = true →
      Completes r.2.1 s fun b =>
        gRd b n d = ofS 32 (if r.2.2 < -2 ^ 31 then -2 ^ 31 else if 2 ^ 31 ≤ r.2.2 then 2 ^ 31 - 1 else r.2.2) ∧
        b.rd F.ODR_STATUS_SAT n =
          (if r.2.2 < -2 ^ 31 ∨ 2 ^ 31 ≤ r.2.2 then 1 else s.blk.rd F.ODR_STATUS_SAT n) ∧
        CoreTo n s.blk o [gKey s.blk n d, F.ODR_STATUS_SAT.key n 0] b) ∧
    (isOp 0x19 w = true →
      Completes (.mta n) s fun b => aRd b n (d % 8) = va % 2 ^ 23 ∧ CoreTo n s.blk o [aKey s.blk n (d % 8)] b) ∧
    (isOp 0x1A w = true →
      Completes (.mtm n) s fun b => b.rd F.ODR_M_VAL n (d % 8) = va ∧
        CoreTo n s.blk o [F.ODR_M_VAL.key n (d % 8)] b)

/-- R281, R282: the complex operations: exact products, accumulators that wrap modulo 2⁴⁰ and set OVF, stores that
round half up and saturate with SAT. -/
def Obligations.OdricComplexOperations : Prop :=
  ∀ (n : CoreNo) (w : Nat) (s : State), AtCore s n w → noMoves w = true →
    let va := gRd s.blk n (odrA w)
    let vb := gRd s.blk n (odrB w)
    let aI := toS 16 va
    let aQ := toS 16 (va / 65536)
    let bI := toS 16 vb
    let bQ := toS 16 (vb / 65536)
    let re := aI * bI - aQ * bQ
    let im := aI * bQ + aQ * bI
    let rej := aI * bI + aQ * bQ
    let imj := aQ * bI - aI * bQ
    let d := odrD w
    let old := cRd s.blk n d
    let src := cRd s.blk n (odrA w % 4)
    let o := s.blk.odr n
    let wide := fun (x : Int) => decide (x < -2 ^ 39) || decide (2 ^ 39 ≤ x)
    (∀ r ∈ ([(0x20, .cmul n, re, im), (0x21, .cmac n, old.1 + re, old.2 + im), (0x22, .cmsu n, old.1 - re, old.2 - im),
        (0x23, .cmulj n, rej, imj), (0x24, .cmacj n, old.1 + rej, old.2 + imj),
        (0x25, .cmsuj n, old.1 - rej, old.2 - imj), (0x26, .cclr n, 0, 0),
        (0x27, .cadd n, old.1 + src.1, old.2 + src.2), (0x33, .lacc n, aI * 2 ^ 15, aQ * 2 ^ 15),
        (0x34, .lacc32 n, toS 32 va, toS 32 vb)] : List (Nat × Instr × Int × Int)), isPar w = true →
      odrOp w = r.1 →
      Completes r.2.1 s fun b => cRd b n d = (toS 40 (ofS 40 r.2.2.1), toS 40 (ofS 40 r.2.2.2)) ∧
        b.rd F.ODR_STATUS_OVF n =
          (if wide r.2.2.1 || wide r.2.2.2 then 1 else s.blk.rd F.ODR_STATUS_OVF n) ∧
        CoreTo n s.blk o (cKeys s.blk n d) b) ∧
    (isPar w = true → odrOp w = 0x30 →
      Completes (.sacc16 n) s fun b =>
        let r := fun (x : Int) => (x + 2 ^ 14) / 2 ^ 15
        gRd b n d = ofS 16 (satS 16 (r src.1)) + 65536 * ofS 16 (satS 16 (r src.2)) ∧
          b.rd F.ODR_STATUS_SAT n =
            (if satS 16 (r src.1) ≠ r src.1 ∨ satS 16 (r src.2) ≠ r src.2 then 1 else s.blk.rd F.ODR_STATUS_SAT n) ∧
          CoreTo n s.blk o [gKey s.blk n d, F.ODR_STATUS_SAT.key n 0] b) ∧
    (let r := fun (x : Int) => if odrB w = 0 then x else (x + 2 ^ (odrB w - 1)) / 2 ^ odrB w
     (isPar w = true → odrOp w = 0x31 →
      Completes (.sacc32 n) s fun b =>
        gRd b n d = ofS 32 (satS 32 (r src.1)) ∧ gRd b n (d + 1) = ofS 32 (satS 32 (r src.2)) ∧
          CoreTo n s.blk o [gKey s.blk n d, gKey s.blk n (d + 1), F.ODR_STATUS_SAT.key n 0] b) ∧
     (isPar w = true → odrOp w = 0x32 →
      Completes (.sacc32r n) s fun b => gRd b n d = ofS 32 (satS 32 (r src.1)) ∧
          b.rd F.ODR_STATUS_SAT n = (if satS 32 (r src.1) ≠ r src.1 then 1 else s.blk.rd F.ODR_STATUS_SAT n) ∧
          CoreTo n s.blk o [gKey s.blk n d, F.ODR_STATUS_SAT.key n 0] b))

/-- R271 to R277, R284: a load in the data memory is on its way for two delay slots, a store writes its word and no
other byte, a move post-modifies its address register under the modifier; an access to nothing is the ADDR fault,
a reserved modifier the ILLEGAL one; a shared-scratch load stalls the core for its data (27 ticks, log entry 4). -/
def Obligations.OdricMovesAndMemory : Prop :=
  ∀ (n : CoreNo) (w x : Nat) (s : State), AtCore s n w →
    let o := s.blk.odr n
    let ar := field w 9 2
    let dr := 8 + field w 7 2
    let a := aRd s.blk n ar
    let md := postMod a (s.blk.rd F.ODR_M_VAL n ar)
    let ls := lsAddr s.blk n w
    (isPar w = true → odrOp w = 0 → field w 5 2 = 0 → a < 0x40000 →
      (dmemByte s.blk n 0 a = some x → s.mem.poisoned x = false →
        (field w 11 2 = 3 →
          Completes (.odrNop n) s
            (CoreTo n s.blk { o with loads := [⟨2, shadowOn s.blk n, dr, s.mem.le x 4⟩] } [])) ∧
        (∀ v, field w 11 2 = 1 → md = some v →
          Completes (.odrNop n) s fun b => aRd b n ar = v % 2 ^ 23 ∧
            CoreTo n s.blk { o with loads := [⟨2, shadowOn s.blk n, dr, s.mem.le x 4⟩] } [aKey s.blk n ar] b) ∧
        (∀ v, field w 11 2 = 2 → md = some v →
          CompletesMem (.odrNop n) s fun b m => aRd b n ar = v % 2 ^ 23 ∧ m.le x 4 = gRd s.blk n dr ∧
            (∀ y, (y < x ∨ x + 4 ≤ y) → m.byte y = s.mem.byte y) ∧ CoreTo n s.blk o [aKey s.blk n ar] b)) ∧
      (dmemByte s.blk n 0 a = none → field w 11 2 ≠ 0 →
        Completes (.odrNop n) s (CoreFaults n s.blk 2)) ∧
      (field w 11 2 = 1 → dmemByte s.blk n 0 a = some x → md = none →
        Completes (.odrNop n) s (CoreFaults n s.blk 1))) ∧
    (isLs w = true → ls < 0x40000 → dmemByte s.blk n (field w 27 1) ls = some x → s.mem.poisoned x = false →
      (bit w 28 = false →
        Completes (.lsLoad n) s
          (CoreTo n s.blk { o with loads := [⟨2, shadowOn s.blk n, field w 20 4, s.mem.le x 4⟩] } [])) ∧
      (bit w 28 = true →
        CompletesMem (.lsStore n) s fun b m => m.le x 4 = gRd s.blk n (field w 20 4) ∧
          (∀ y, (y < x ∨ x + 4 ≤ y) → m.byte y = s.mem.byte y) ∧ CoreTo n s.blk o [] b)) ∧
    (isLs w = true → bit w 28 = false → 0x40000 ≤ ls → ls ≤ 0x400BF →
      Completes (.lsLoad n) s
        (CoreTo n s.blk { o with loads := [⟨2, shadowOn s.blk n, field w 20 4, dvWord s.blk n (ls - 0x40000)⟩] } [])) ∧
    (isLs w = true → bit w 28 = true → ls = 0x41021 →
      Completes (.lsStore n) s fun b => b.rd F.ODR_IRQ_IEN n = gRd s.blk n (field w 20 4) % 2 ^ F.ODR_IRQ_IEN.wid ∧
        CoreTo n s.blk o [F.ODR_IRQ_IEN.key n 0] b) ∧
    (isLs w = true → 0x400000 ≤ ls → scratchByte s.blk n ls = some x →
      (bit w 28 = false →
        Completes (.lsLoad n) s fun b => (b.odr n).wait = some (field w 20 4, x) ∧
          Follows b 27 (.scratchLoadData n) ∧ Keeps [] s.blk b) ∧
      (bit w 28 = true → s.mem.poisoned x = false →
        CompletesMem (.lsStore n) s fun b m => m.le x 4 = gRd s.blk n (field w 20 4) ∧
          (∀ y, (y < x ∨ x + 4 ≤ y) → m.byte y = s.mem.byte y) ∧ CoreTo n s.blk o [] b)) ∧
    (isLs w = true → 0x400000 ≤ ls → scratchByte s.blk n ls = none →
      (bit w 28 = false → Completes (.lsLoad n) s (CoreFaults n s.blk 2)) ∧
      (bit w 28 = true → Completes (.lsStore n) s (CoreFaults n s.blk 2))) ∧
    (isLdi w = true → field w 24 5 < 16 →
      Completes (.ldi n) s fun b =>
        gRd b n (field w 24 5) = (if bit w 23 then gRd s.blk n (field w 24 5) % 65536 + 65536 * field w 0 16
          else ofS 32 (toS 23 (field w 0 23))) ∧
        CoreTo n s.blk o [gKey s.blk n (field w 24 5)] b) ∧
    (isLdi w = true → 16 ≤ field w 24 5 → field w 24 5 < 24 →
      Completes (.ldi n) s fun b =>
        aRd b n (field w 24 5 - 16) = (if bit w 23 then aRd s.blk n (field w 24 5 - 16) % 65536 + 65536 * field w 0 16
          else ofS 32 (toS 23 (field w 0 23))) % 2 ^ 23 ∧
        CoreTo n s.blk o [aKey s.blk n (field w 24 5 - 16)] b) ∧
    (isLdi w = true → 24 ≤ field w 24 5 →
      Completes (.ldi n) s fun b =>
        b.rd F.ODR_M_VAL n (field w 24 5 - 24) =
          (if bit w 23 then s.blk.rd F.ODR_M_VAL n (field w 24 5 - 24) % 65536 + 65536 * field w 0 16
          else ofS 32 (toS 23 (field w 0 23))) ∧
        CoreTo n s.blk o [F.ODR_M_VAL.key n (field w 24 5 - 24)] b)

/-- R268, R280, R284 to R288, R293: control transfers have one delay slot, REP and REPR repeat the next instruction,
WAITI waits, HALT halts; a load lands after its second delay slot. -/
def Obligations.OdricFlow : Prop :=
  ∀ (n : CoreNo) (w : Nat) (s : State),
    let o := s.blk.odr n
    let t := field w 0 16
    let cond := ctrlCond s.blk n w
    (AtCore s n w → isCtrl w = true →
      (cop w = 0x00 → Completes (.nopc n) s (CoreTo n s.blk o [])) ∧
      (cop w = 0x01 →
        Completes (.br n) s (CoreTo n s.blk { o with jump := if cond then some (t, false) else none } [])) ∧
      (cop w = 0x02 →
        (cond = true → o.calls.length < 16 →
          Completes (.odrCall n) s
            (CoreTo n s.blk { o with jump := some (t, false), calls := (o.pc + 2) % 65536 :: o.calls } [])) ∧
        (cond = true → 16 ≤ o.calls.length → Completes (.odrCall n) s (CoreFaults n s.blk 3)) ∧
        (cond = false → Completes (.odrCall n) s (CoreTo n s.blk o []))) ∧
      (cop w = 0x03 →
        (∀ a l, o.calls = a :: l →
          Completes (.odrRet n) s (CoreTo n s.blk { o with jump := some (a, false), calls := l } [])) ∧
        (o.calls = [] → Completes (.odrRet n) s (CoreFaults n s.blk 3))) ∧
      (cop w = 0x04 →
        (shadowOn s.blk n = true → Completes (.rti n) s (CoreTo n s.blk { o with jump := some (o.iret, true) } [])) ∧
        (shadowOn s.blk n = false → Completes (.rti n) s (CoreFaults n s.blk 1))) ∧
      (cop w = 0x05 →
        (field w 0 13 ≠ 0 → Completes (.rep n) s (CoreTo n s.blk { o with rep := some (field w 0 13) } [])) ∧
        (field w 0 13 = 0 → Completes (.rep n) s fun b => (b.odr n).pc = (o.pc + 2) % 65536 ∧ Keeps [] s.blk b)) ∧
      (cop w = 0x06 →
        (gRd s.blk n (field w 20 4) ≠ 0 → gRd s.blk n (field w 20 4) ≤ 4096 →
          Completes (.repr n) s (CoreTo n s.blk { o with rep := some (gRd s.blk n (field w 20 4)) } [])) ∧
        (gRd s.blk n (field w 20 4) = 0 →
          Completes (.repr n) s fun b => (b.odr n).pc = (o.pc + 2) % 65536 ∧ Keeps [] s.blk b) ∧
        (4096 < gRd s.blk n (field w 20 4) → Completes (.repr n) s (CoreFaults n s.blk 4))) ∧
      (cop w = 0x07 →
        Completes (.waiti n) s fun b => b.coreState n = 2 ∧ CoreTo n s.blk o [F.ODR_STATUS_STATE.key n 0] b) ∧
      (cop w = 0x08 →
        (shadowOn s.blk n = false →
          Completes (.odrHalt n) s fun b => b.coreState n = 0 ∧ b.rd F.ODR_CTRL_RUN n = 0 ∧
            Keeps [F.ODR_STATUS_STATE.key n 0, F.ODR_CTRL_RUN.key n 0] s.blk b) ∧
        (shadowOn s.blk n = true →
          Completes (.odrHalt n) s fun b => b.rd F.ODR_CTRL_RUN n = 0 ∧
            CoreTo n s.blk { o with halt := true } [F.ODR_CTRL_RUN.key n 0] b)) ∧
      (cop w = 0x09 →
        Completes (.ei n) s fun b => b.rd F.ODR_STATUS_IE n = 1 ∧ CoreTo n s.blk o [F.ODR_STATUS_IE.key n 0] b) ∧
      (cop w = 0x0A →
        Completes (.di n) s fun b => b.rd F.ODR_STATUS_IE n = 0 ∧ CoreTo n s.blk o [F.ODR_STATUS_IE.key n 0] b)) ∧
    (AtCore s n w → opAssigned w = false → Completes (.odrReservedOp n) s (CoreFaults n s.blk 1)) ∧
    (coreWord s.mem s.blk n = w → s.blk.coreState n = 1 → o.held = none → o.wait = none → o.halt = false →
      s.mem.poisoned (odrPmem n + 4 * (o.pc % 65536)) = false → isCtrl w = true → cop w = 0 → field w 0 24 = 0 →
      o.rep = none →
      (∀ tgt, o.jump = some (tgt, false) → o.loads = [] →
        Completes (.nopc n) s fun b => b.odr n = { o with jump := none, pc := tgt % 65536 } ∧ Keeps [] s.blk b) ∧
      (∀ l, o.jump = none → o.loads = [l] → l.left = 2 →
        Completes (.nopc n) s (CoreTo n s.blk { o with loads := [{ l with left := 1 }] } [])) ∧
      (∀ l, o.jump = none → o.loads = [l] → l.left = 1 → l.shadow = shadowOn s.blk n →
        Completes (.nopc n) s fun b => gRd b n l.reg = l.val % 2 ^ 32 ∧
          CoreTo n s.blk { o with loads := [] } [gKey s.blk n l.reg] b))

/-- R300 to R304, R307: a handoff whose operand names a target of the core's owner goes into the handoff queue, a
full queue stalls the core; any other is refused; EVFIRE fires a channel that the core owns.  The arrival after 8
and 14 ticks is the model's choice (log entry 4). -/
def Obligations.OdricHandoffs : Prop :=
  ∀ (n : CoreNo) (w : Nat) (s : State), AtCore s n w → noMoves w = true → isPar w = true →
    let o := s.blk.odr n
    let va := gRd s.blk n (odrA w)
    let vb := gRd s.blk n (odrB w)
    let t := gRd s.blk n (odrD w)
    let q := field t 0 6
    let qb := field va 0 6
    let mine := fun (x : Nat) => s.blk.seqOwner x == s.blk.owner (64 + n)
    let sent := fun (cls y : Nat) (g : DlTarget) (b : Blk) => ∃ m : DlMsg, m.cls = cls ∧ m.target = g ∧
      m.isl = seqTile y ∧ (b.odr n).handq = o.handq ++
        [(s.blk.elapsed + (if seqTile y = n.val / 8 then 8 else 14), vb, m)] ∧
      (b.odr n).pc = (o.pc + 1) % 65536 ∧ Keeps [] s.blk b
    let refused := fun (b : Blk) => b.rd F.ODR_STATUS_HO_REFUSED n = 1 ∧
      b.rd F.ODR_CNT_HO_REFUSALS n = satAdd F.ODR_CNT_HO_REFUSALS.wid (s.blk.rd F.ODR_CNT_HO_REFUSALS n) 1 ∧
      (b.odr n).handq = o.handq ∧ (b.odr n).pc = (o.pc + 1) % 65536
    (odrOp w = 0x38 →
      (field t 6 2 = 0 → field t 12 20 = 0 → mine q = true → o.handq.length < 16 →
        Completes (.hsr n) s (sent 3 q (.sreg (Fin.ofNat 64 q) (field t 8 4) va))) ∧
      (field t 6 2 = 0 → field t 12 20 = 0 → mine q = true → 16 ≤ o.handq.length →
        Completes (.hsr n) s fun b => (b.odr n).held.isSome = true ∧ (b.odr n).handq = o.handq ∧
          Keeps [] s.blk b) ∧
      (field t 6 2 ≠ 0 ∨ field t 12 20 ≠ 0 ∨ mine q = false → Completes (.hsr n) s refused)) ∧
    (odrOp w = 0x3A →
      (field va 6 10 = 0 → field va 28 4 = 0 → mine qb = true → o.handq.length < 16 →
        Completes (.hbr n) s (sent 4 qb (.branch (Fin.ofNat 64 qb) (field va 16 12)))) ∧
      (field va 6 10 ≠ 0 ∨ field va 28 4 ≠ 0 ∨ mine qb = false → Completes (.hbr n) s refused)) ∧
    (odrOp w = 0x39 → field t 0 4 = 1 → field t 30 2 = 0 → bit t 29 = false → field t 21 3 = 0 →
      field t 4 12 = 0 →
      (field t 16 5 < 16 → mine (portSeq (field t 24 5)) = true → o.handq.length < 16 →
        Completes (.hpar n) s (sent 2 (portSeq (field t 24 5))
          (.param (F.DRV_SPHASE_POFF.key (field t 24 5) (field t 16 5)) 32 (va % 2 ^ 32)))) ∧
      (16 ≤ field t 16 5 ∨ mine (portSeq (field t 24 5)) = false → Completes (.hpar n) s refused)) ∧
    (odrOp w = 0x39 → field t 0 4 = 0 → odrA w % 2 = 1 → Completes (.hpar n) s (CoreFaults n s.blk 1)) ∧
    (odrOp w = 0x3B →
      (s.blk.rd F.EVF_CHCFG_OKIND (va % 256) = 1 → s.blk.rd F.EVF_CHCFG_OIDX (va % 256) = n →
        Completes (.evfire n) s fun b => (b.odr n).pc = (o.pc + 1) % 65536 ∧
          b.rd F.ODR_STATUS_EV_REFUSED n = s.blk.rd F.ODR_STATUS_EV_REFUSED n ∧ b.evf.hits.get 0 (928 + n) =
            s.blk.evf.hits.get 0 (928 + n) + 1) ∧
      (s.blk.rd F.EVF_CHCFG_OKIND (va % 256) ≠ 1 →
        Completes (.evfire n) s fun b => b.rd F.ODR_STATUS_EV_REFUSED n = 1 ∧
          CoreTo n s.blk o [F.ODR_STATUS_EV_REFUSED.key n 0] b))

/-- R268, R289 to R292, R295 to R299, R302, R306, R310: running and halting a core, taking an interrupt, the core
timer, the mailbox and its groups. -/
def Obligations.OdricCoreControl : Prop :=
  ∀ (n : CoreNo) (k : Fin 4) (e : Fin 768) (st code : Fin 4) (early ovr : Bool) (d : Nat) (s : State),
    let o := s.blk.odr n
    (s.blk.coreState n = 0 →
      Completes (.odrRun n) s fun b => b.coreState n = 1 ∧ b.rd F.ODR_CTRL_RUN n = 1 ∧
        b.rd F.ODR_STATUS_BANK n = 0 ∧ b.rd F.ODR_STATUS_IE n = 0 ∧
        (b.odr n).pc = s.blk.rd F.ODR_PC_START_PC n ∧ (b.odr n).calls = [] ∧
        Keeps [F.ODR_CTRL_RUN.key n 0, F.ODR_STATUS_STATE.key n 0, F.ODR_STATUS_BANK.key n 0,
          F.ODR_STATUS_IE.key n 0] s.blk b) ∧
    (s.blk.coreState n ≠ 0 → Completes (.odrRun n) s fun b => b = s.blk) ∧
    (s.blk.coreState n = 3 →
      Completes (.odrRunClear n) s fun b => b.coreState n = 0 ∧ b.rd F.ODR_CTRL_RUN n = 0 ∧
        OnlyRegs [F.ODR_CTRL_RUN.key n 0, F.ODR_STATUS_STATE.key n 0] s.blk b) ∧
    (s.blk.coreState n = 1 →
      (boundary s.blk n = true → o.held = none → o.wait = none → o.loads = [] →
        Completes (.odrRunClear n) s fun b => b.coreState n = 0 ∧ b.rd F.ODR_CTRL_RUN n = 0 ∧
          Keeps [F.ODR_CTRL_RUN.key n 0, F.ODR_STATUS_STATE.key n 0] s.blk b) ∧
      (boundary s.blk n = false →
        Completes (.odrRunClear n) s fun b => b.coreState n = 1 ∧ (b.odr n).halt = true)) ∧
    (∀ l, canTake s.blk n = true → takeLine s.blk n = some l →
      Completes (.interruptTake n) s fun b => b.rd F.ODR_STATUS_BANK n = 1 ∧ b.coreState n = 1 ∧
        (b.odr n).iret = o.pc ∧ (b.odr n).pc = (16 * s.blk.rd F.ODR_VBASE_VBASE n + 16 * l) % 65536 ∧
        (l ≠ 4 → bit (b.rd F.ODR_IRQ_IPEND n) l = false)) ∧
    (canTake s.blk n = false → Completes (.interruptTake n) s fun b => b = s.blk) ∧
    (o.timer = 1 →
      Completes (.coreTimerZero n) s fun b => (b.odr n).timer = 0 ∧ bit (b.rd F.ODR_IRQ_IPEND n) 7 = true) ∧
    (bit (s.blk.rd F.ODR_MBMASK_MASK n (e.val / 64)) (e.val % 64) = true →
      (o.notices.length < 64 → (∀ i < 4, s.blk.on F.ODR_GRP_ARM n i = false) →
        Completes (.mailboxNotice n e st code early ovr d) s fun b =>
          (b.odr n).notices = o.notices ++ [⟨e, st, code, early, ovr, d⟩] ∧
          bit (b.rd F.ODR_IRQ_IPEND n) 4 = true ∧ Keeps [F.ODR_IRQ_IPEND.key n 0] s.blk b) ∧
      (64 ≤ o.notices.length → (∀ i < 4, s.blk.on F.ODR_GRP_ARM n i = false) →
        Completes (.mailboxNotice n e st code early ovr d) s fun b =>
          (b.odr n).notices = o.notices ∧ b.rd F.ODR_STATUS_MB_LOST n = 1 ∧
          bit (b.rd F.ODR_IRQ_IPEND n) 5 = true)) ∧
    (Completes (.mbpop1 n) s fun b => (b.odr n).notices = o.notices.tail ∧
      (o.notices.length ≤ 1 → bit (b.rd F.ODR_IRQ_IPEND n) 4 = false) ∧ Keeps [F.ODR_IRQ_IPEND.key n 0] s.blk b) ∧
    (Completes (.groupArm n k) s fun b => b.rd F.ODR_GRP_ARM n k = 1 ∧ (b.odr n).grp.get ⟨[], 0, 0⟩ k = ⟨[], 0, 0⟩ ∧
      ((∀ i < 12, s.blk.rd F.ODR_GMASK_MASK n (12 * k + i) = 0) → Follows b 0 (.groupFire n k)) ∧
      Keeps [F.ODR_GRP_ARM.key n k] s.blk b) ∧
    (s.blk.on F.ODR_GRP_ARM n k = true → groupDone s.blk n k = true →
      Completes (.groupFire n k) s fun b => b.rd F.ODR_GRP_ARM n k = 0 ∧
        b.rd F.ODR_GRP_LAST_TICK n k = (o.grp.get ⟨[], 0, 0⟩ k).latest % 2 ^ F.ODR_GRP_LAST_TICK.wid ∧
        bit (b.rd F.ODR_IRQ_IPEND n) k = true) ∧
    (∀ v m, o.held = some (v, m) → o.handq.length < 16 →
      Completes (.handoffQueueAdmit n) s fun b => (b.odr n).held = none ∧
        (∃ t, (b.odr n).handq = o.handq ++ [(t, v, m)]) ∧ Keeps [] s.blk b) ∧
    (∀ r x, o.wait = some (r, x) → s.mem.poisoned x = false →
      Completes (.scratchLoadData n) s fun b => (b.odr n).wait = none ∧
        (b.odr n).loads = o.loads ++ [⟨2, shadowOn s.blk n, r, s.mem.le x 4⟩] ∧ Keeps [] s.blk b)

/-! ### Events, the event log, performance counters (R420 to R443) -/

/-- R420, R421, R426, R428, R430, R431, R435: a source publishes on the channel its map names; an enabled channel
delivers 12 ticks later, a disabled one drops and counts; a delayed copy is published when its tick has come; a
delivery activates the subscribed input that SEC lets see it. -/
def Obligations.EventsPublishAndDeliver : Prop :=
  ∀ (src : Fin 1024) (birth detail ftime : Nat) (f : Func) (ch : Fin 256) (k : Fin 64) (q : SeqNo) (s : State),
    let c := s.blk.rd F.EVF_SRCMAP_CH src
    (srcExists src = false → Completes (.eventPublish src birth detail ftime) s fun b => b = s.blk) ∧
    (srcExists src = true → s.blk.on F.EVF_SRCMAP_EN src = true → s.blk.actOn F.EVF_CHCFG_EN c = true →
      Completes (.eventPublish src birth detail ftime) s fun b =>
        (s.blk.elapsed + 12, c, ⟨src, c, birth, detail, ftime⟩) ∈ b.evf.flight ∧
        ∀ x ∈ s.blk.evf.flight, x ∈ b.evf.flight) ∧
    (srcExists src = true → s.blk.on F.EVF_SRCMAP_EN src = true → s.blk.actOn F.EVF_CHCFG_EN c = false →
      Completes (.eventPublish src birth detail ftime) s fun b =>
        b.rd F.EVF_CHSTAT_DROPS c = satAdd F.EVF_CHSTAT_DROPS.wid (s.blk.rd F.EVF_CHSTAT_DROPS c) 1 ∧
        b.evf.flight = s.blk.evf.flight ∧ Keeps [F.EVF_CHSTAT_DROPS.key c 0] s.blk b) ∧
    (srcExists src = true → s.blk.on F.EVF_SRCMAP_EN src = false →
      Completes (.eventPublish src birth detail ftime) s fun b =>
        b.evf.flight = s.blk.evf.flight ∧ b.evf.hits.get 0 src = s.blk.evf.hits.get 0 src + 1 ∧ Keeps [] s.blk b) ∧
    (f = 0 ∨ s.blk.rd F.EVF_CHCFG_OKIND ch = 0 ∧ s.blk.rd F.EVF_CHCFG_OIDX ch = f →
      s.blk.actOn F.EVF_CHCFG_EN ch = true →
      Completes (.evfFire f ch) s fun b =>
        (s.blk.elapsed + 12, ch.val, ⟨1024 + f, ch, s.blk.now, 0, 0⟩) ∈ b.evf.flight) ∧
    (f ≠ 0 → (s.blk.rd F.EVF_CHCFG_OKIND ch ≠ 0 ∨ s.blk.rd F.EVF_CHCFG_OIDX ch ≠ f) →
      Completes (.evfFire f ch) s fun b => b.rd F.EVF_FSTAT_FIRE_REFUSED f = 1 ∧
        OnlyRegs [F.EVF_FSTAT_FIRE_REFUSED.key f 0] s.blk b) ∧
    (Completes (.relayDue k) s fun b =>
      (∀ e ∈ s.blk.evf.pend.get [] k, s.blk.now < e.1 → e ∈ b.evf.pend.get [] k) ∧
      ∀ e ∈ s.blk.evf.pend.get [] k, e.1 ≤ s.blk.now → s.blk.actOn F.EVF_CHCFG_EN e.2.1 = true →
        (s.blk.elapsed + 12, e.2.1, e.2.2) ∈ b.evf.flight) ∧
    (Completes .eventDeliver s fun b =>
      b.evf.flight = s.blk.evf.flight.filter (fun e => decide (s.blk.elapsed < e.1)) ∧
      ∀ x : Ev, s.blk.on F.SEQ_CTRL_TRIG_EN q = true →
        s.blk.evf.flight.filter (fun e => decide (e.1 ≤ s.blk.elapsed) && e.2.1 == s.blk.rd F.SEQ_CTRL_START_CH q) =
          [(s.blk.elapsed, s.blk.rd F.SEQ_CTRL_START_CH q, x)] →
        (secOk s.blk (s.blk.rd F.SEQ_CTRL_START_CH q) (s.blk.seqOwner q) = true →
          Follows b 0 (.startTrigger q x.birth) ∧
          b.rd F.EVF_TIN_ACTS q = (s.blk.rd F.EVF_TIN_ACTS q + 1) % 2 ^ F.EVF_TIN_ACTS.wid) ∧
        (secOk s.blk (s.blk.rd F.SEQ_CTRL_START_CH q) (s.blk.seqOwner q) = false →
          b.rd F.EVF_CHSTAT_DENIED (s.blk.rd F.SEQ_CTRL_START_CH q) = 1))

/-- R421, R423 to R425, R431, R433: who may write a channel, a source's map and a log quota, and what the write
does; EN takes hold 1 tick later as 1 and 2 ticks later as 0, as the model reads it (log 35). -/
def Obligations.EventConfigurationIsChecked : Prop :=
  ∀ (f : Func) (c : Fin 256) (src : Fin 1024) (v : Nat) (s : State),
    let ok := field v 20 2
    let sec := field v 8 2
    let same := field v 20 2 = s.blk.rd F.EVF_CHCFG_OKIND c ∧ field v 16 4 = s.blk.rd F.EVF_CHCFG_OIDX c ∧
      field v 8 2 = s.blk.rd F.EVF_CHCFG_SEC c
    let en := s.blk.rd F.EVF_CHCFG_EN c
    (ok = 3 ∨ sec = 3 ∨ (¬ same ∧ (f ≠ 0 ∨ en = 1)) → Completes (.evfChcfgWrite f c v) s fun b => b = s.blk) ∧
    (ok ≠ 3 → sec ≠ 3 → (same ∨ f = 0 ∧ en = 0) →
      Completes (.evfChcfgWrite f c v) s fun b =>
        b.rd F.EVF_CHCFG_OKIND c = ok ∧ b.rd F.EVF_CHCFG_OIDX c = field v 16 4 ∧ b.rd F.EVF_CHCFG_SEC c = sec ∧
        b.rd F.EVF_CHCFG_IRQ c = field v 1 1 ∧ b.rd F.EVF_CHCFG_LOG c = field v 0 1 ∧
        b.rd F.EVF_CHCFG_EN c = field v 31 1 ∧ b.act F.EVF_CHCFG_EN c = s.blk.act F.EVF_CHCFG_EN c ∧
        (en = 0 → field v 31 1 = 1 → Follows b 1 (.channelEnable c)) ∧
        (en = 1 → field v 31 1 = 0 → Follows b 2 (.channelDisable c))) ∧
    (en = 1 → (Completes (.channelEnable c) s fun b => b.actOn F.EVF_CHCFG_EN c = true ∧
        Keeps [F.EVF_CHCFG_EN.key c 0] s.blk b) ∧ Completes (.channelDisable c) s fun b => b = s.blk) ∧
    (en = 0 → (Completes (.channelDisable c) s fun b => b.actOn F.EVF_CHCFG_EN c = false ∧
        Keeps [F.EVF_CHCFG_EN.key c 0] s.blk b) ∧ Completes (.channelEnable c) s fun b => b = s.blk) ∧
    (srcFixed src = true ∨ f ≠ 0 ∧ srcOwner s.blk src ≠ f →
      Completes (.evfSrcmapWrite f src v) s fun b => b = s.blk) ∧
    (srcFixed src = false → (f = 0 ∨ srcOwner s.blk src = f) →
      (bit v 31 = true → mayCarry s.blk (field v 0 8) src = false →
        Completes (.evfSrcmapWrite f src v) s fun b => b.rd F.EVF_FSTAT_MAP_REFUSED f = 1 ∧
          OnlyRegs [F.EVF_FSTAT_MAP_REFUSED.key f 0] s.blk b) ∧
      (bit v 31 = false ∨ mayCarry s.blk (field v 0 8) src = true →
        Completes (.evfSrcmapWrite f src v) s fun b => b.rd F.EVF_SRCMAP_EN src = field v 31 1 ∧
          b.rd F.EVF_SRCMAP_CH src = field v 0 8 ∧
          OnlyRegs [F.EVF_SRCMAP_EN.key src 0, F.EVF_SRCMAP_CH.key src 0] s.blk b)) ∧
    (let others := ((List.range 16).filter (fun g => g ≠ f.val)).foldl (fun n g => n + s.blk.rd F.EVF_LOGQ_QUOTA g) 0
     (1024 < others + v % 2048 →
        Completes (.evfLogqWrite f v) s fun b => b.rd F.EVF_STATUS_QUOTA_ERR = 1 ∧
          OnlyRegs [F.EVF_STATUS_QUOTA_ERR.key 0 0] s.blk b) ∧
     (others + v % 2048 ≤ 1024 →
        Completes (.evfLogqWrite f v) s fun b => b.rd F.EVF_LOGQ_QUOTA f = v % 2 ^ F.EVF_LOGQ_QUOTA.wid ∧
          OnlyRegs [F.EVF_LOGQ_QUOTA.key f 0] s.blk b))

/-- R432, R433, R436 to R439, R467: the log takes in 16 records a tick within the quotas, and its oldest record goes
to the owner's ring; a counter's configuration is the owner's; a snapshot is taken when asked for. -/
def Obligations.LogAndCounters : Prop :=
  ∀ (f : Func) (i : Fin 128) (v : Nat) (s : State),
    (Completes .eventLogIntake s fun b => b.evf.logq = s.blk.evf.logq.drop 16 ∧
      (∀ x, s.blk.evf.logq = [x] → logFill s.blk x.1 < s.blk.rd F.EVF_LOGQ_QUOTA x.1 →
        b.evf.logbuf = s.blk.evf.logbuf ++ [x]) ∧
      (∀ x, s.blk.evf.logq = [x] → s.blk.rd F.EVF_LOGQ_QUOTA x.1 ≤ logFill s.blk x.1 →
        b.evf.logbuf = s.blk.evf.logbuf ∧
        b.rd F.EVF_FSTAT_LOG_LOST x.1 = satAdd F.EVF_FSTAT_LOG_LOST.wid (s.blk.rd F.EVF_FSTAT_LOG_LOST x.1) 1)) ∧
    (∀ x, ringRoom s.blk f 4 = true → s.blk.evf.logbuf.find? (fun e => e.1 == f.val) = some x →
      Completes (.logRecordWrite f) s fun b => b.evf.logbuf = dropLog f s.blk.evf.logbuf ∧
        Out.ring f 4 (ringProduced s.blk f 4) (entryAddr s.blk f 4 (ringProduced s.blk f 4))
          (markEntry s.blk f 4 (logBytes x.2)) ∈ b.out ∧
        b.rd F.DB_RING_PRODUCED f 4 = (s.blk.rd F.DB_RING_PRODUCED f 4 + 1) % 2 ^ 32) ∧
    (ringRoom s.blk f 4 = false → Completes (.logRecordWrite f) s fun b => b = s.blk) ∧
    (let sel := field v 0 12
     let own := if f = 0 then field v 24 4 else s.blk.rd F.CNT_CFG_OWNER i
     (selExists sel = false ∨ field v 16 2 = 3 ∨ f ≠ 0 ∧ s.blk.rd F.CNT_CFG_OWNER i ≠ f →
        Completes (.cntCfgWrite f i v) s fun b => b = s.blk) ∧
     (selExists sel = true → field v 16 2 ≠ 3 → (f = 0 ∨ s.blk.rd F.CNT_CFG_OWNER i = f) →
       (selOk s.blk own sel = false →
          Completes (.cntCfgWrite f i v) s fun b => b.rd F.CNT_FSTAT_SEL_DENIED f = 1 ∧
            OnlyRegs [F.CNT_FSTAT_SEL_DENIED.key f 0] s.blk b) ∧
       (selOk s.blk own sel = true →
          Completes (.cntCfgWrite f i v) s fun b => b.rd F.CNT_CFG_OWNER i = own ∧
            b.rd F.CNT_CFG_SEL i = sel ∧ b.rd F.CNT_CFG_MODE i = field v 16 2 ∧ b.rd F.CNT_CFG_EN i = field v 31 1 ∧
            b.act F.CNT_CFG_SEL i = s.blk.act F.CNT_CFG_SEL i))) ∧
    (Completes .snap s fun b => b.evf.snapAt = some (s.blk.elapsed + 1) ∧ Keeps [] s.blk b) ∧
    (s.blk.evf.snapAt = some s.blk.elapsed →
      Completes .counterSnapshot s fun b => b.evf.snapAt = none ∧
        b.rd F.CNT_STATUS_LAST_SNAP = s.blk.now % 2 ^ F.CNT_STATUS_LAST_SNAP.wid ∧
        b.rd F.CNT_STATUS_DUMP_SEQ = (s.blk.rd F.CNT_STATUS_DUMP_SEQ + 1) % 2 ^ F.CNT_STATUS_DUMP_SEQ.wid ∧
        ∀ g < 16, (∃ j < 128, s.blk.rd F.CNT_CFG_OWNER j = g) → s.blk.on F.HIF_RCFG_EN g 5 = false →
          b.rd F.CNT_FSTAT_DUMP_MISS g = satAdd F.CNT_FSTAT_DUMP_MISS.wid (s.blk.rd F.CNT_FSTAT_DUMP_MISS g) 1) ∧
    (s.blk.evf.snapAt = none → s.blk.on F.CNT_CTRL_DUMP_EN = false →
      Completes .counterSnapshot s fun b => b = s.blk)

/-! ### The governor (R318 to R340) -/

/-- R321, R322, R325, R326, R333, R338, R340: bins advance, a window write carries every tally over and is refused
while a sequencer is enabled or the configuration locked, level configuration, LOCK, the last-resort limit mutes
every port it counts, and a stale peer makes its stage fall back. -/
def Obligations.GovernorCountsLocksAndMutes : Prop :=
  ∀ (w : Fin 2) (x : Fin 63) (f : Func) (v : Nat) (m : Fin 64) (st : Fin 4) (s : State),
    (Completes (.binBoundary w) s fun b =>
      (∀ y < 63, ∀ t < 2, (b.tally y w t).cur = 0 ∧
        (b.tally y w t).bins.foldl (· + ·) 0 =
          (((s.blk.tally y w t).cur :: (s.blk.tally y w t).bins).take 50).foldl (· + ·) 0 ∧
        b.tally y (1 - w.val) t = s.blk.tally y (1 - w.val) t) ∧
      (w = 0 → ∀ p : HabPort, s.blk.rd F.LNK_PSTAT_STATE p = 3 → Follows b 0 (.tallySend p)) ∧
      Keeps [] s.blk b) ∧
    (s.blk.on F.GOV_CTRL_LOCK = true →
      Completes (.govWinWrite v) s fun b => b.rd F.GOV_STATUS_WR_LOCKED = 1 ∧
        OnlyRegs [F.GOV_STATUS_WR_LOCKED.key 0 0] s.blk b) ∧
    (s.blk.on F.GOV_CTRL_LOCK = false → (s.blk.allDisabled = false ∨ field v 0 12 < 4 ∨ 4000 < field v 0 12 ∨
        field v 32 26 < 4000 ∨ 40000000 < field v 32 26) →
      Completes (.govWinWrite v) s fun b => b.rd F.GOV_STATUS_WIN_REFUSED = 1 ∧
        OnlyRegs [F.GOV_STATUS_WIN_REFUSED.key 0 0] s.blk b) ∧
    (s.blk.on F.GOV_CTRL_LOCK = false → s.blk.allDisabled = true → 4 ≤ field v 0 12 → field v 0 12 ≤ 4000 →
      4000 ≤ field v 32 26 → field v 32 26 ≤ 40000000 →
      Completes (.govWinWrite v) s fun b => b.rd F.GOV_WIN_SBIN = field v 0 12 ∧ b.rd F.GOV_WIN_LBIN = field v 32 26 ∧
        (∀ y < 63, ∀ u < 2, ∀ t < 2, tallyVal b (b.tally y u t) = tallyVal s.blk (s.blk.tally y u t)) ∧
        Keeps [F.GOV_WIN_SBIN.key 0 0, F.GOV_WIN_LBIN.key 0 0] s.blk b) ∧
    (Completes .govLock s fun b => b.rd F.GOV_CTRL_LOCK = 1 ∧ b.rd F.GOV_STATUS_LOCKED = 1 ∧
      OnlyRegs [F.GOV_CTRL_LOCK.key 0 0, F.GOV_STATUS_LOCKED.key 0 0] s.blk b) ∧
    ((v % 4 = 3 ∨ f ≠ 0 ∧ (48 ≤ x.val ∨ s.blk.owner x ≠ f)) →
      Completes (.govLcfgWrite f x v) s fun b => b = s.blk) ∧
    (v % 4 ≠ 3 → (f = 0 ∨ x.val < 48 ∧ s.blk.owner x = f) →
      Completes (.govLcfgWrite f x v) s fun b => b.rd F.GOV_LCFG_ACT x = v % 4 ∧
        b.rd F.GOV_LCFG_SCALE_MIN x = field v 9 9 ∧
        (x.val < 48 → b.rd F.GOV_LCFG_PCOH x = field v 20 6) ∧
        (f = 0 → x.val < 48 → s.blk.on F.GOV_CTRL_LOCK = false → b.rd F.GOV_LCFG_STAGE x = field v 28 2 ∧
          b.act F.GOV_LCFG_STAGE x = s.blk.act F.GOV_LCFG_STAGE x) ∧
        (f = 0 → 59 ≤ x.val → s.blk.on F.GOV_CTRL_LOCK = false → b.rd F.GOV_LCFG_POOL x = field v 8 1) ∧
        (f = 0 → (x.val < 48 ∨ 59 ≤ x.val) → s.blk.on F.GOV_CTRL_LOCK = true →
          b.rd F.GOV_STATUS_WR_LOCKED = 1 ∧ b.rd F.GOV_LCFG_STAGE x = s.blk.rd F.GOV_LCFG_STAGE x ∧
          b.rd F.GOV_LCFG_POOL x = s.blk.rd F.GOV_LCFG_POOL x)) ∧
    (above s.blk x w = true → s.blk.gov.isOver.get false (2 * x.val + w.val) = false →
      Completes (.lastResortCrossing x w) s fun b => b.gov.isOver.get false (2 * x.val + w.val) = true ∧
        b.rd F.GOV_LCNT_MUTES x = satAdd F.GOV_LCNT_MUTES.wid (s.blk.rd F.GOV_LCNT_MUTES x) 1 ∧
        Follows b 0 (.eventPublish (Fin.ofNat 1024 979) s.blk.now x 0) ∧
        (∀ p < 48, counts s.blk x p = true → (b.port p).muteAt = some (s.blk.now / 4 * 4 + 4, .gov) ∧
          ∀ r ∈ b.gov.resv, r.port ≠ p) ∧
        Keeps [F.GOV_LCNT_MUTES.key x 0] s.blk b) ∧
    (above s.blk x w = false → Completes (.lastResortCrossing x w) s fun b => b = s.blk) ∧
    (∀ val t p, s.blk.gov.peers.find (8 * m.val + 2 * st.val + w.val) = some (val, t, p) →
      (t + tallyAge s.blk ≤ s.blk.elapsed →
        Completes (.peerTallyStale m st w) s fun b => bit (b.rd F.GOV_STATUS_POOL_FB) st = true ∧
          Follows b 0 (.eventPublish (Fin.ofNat 1024 (947 + 4 * p)) s.blk.now
            (m.val + 64 * st.val + 256 * w.val) 0) ∧
          OnlyRegs [F.GOV_STATUS_POOL_FB.key 0 0] s.blk b) ∧
      (s.blk.elapsed < t + tallyAge s.blk → Completes (.peerTallyStale m st w) s fun b => b = s.blk))

/-! ### Bias channels (R342 to R360) -/

/-- R336, R345, R346, R349: in an update slot a channel moves toward its goal by at most its rate, one LSB where
the rate is smaller, not at all where it is zero; at the clamped goal it reports SETTLED.  The clauses are on a
channel that is not parked, has no zero jump of R358 to make, and is not cleared immediately. -/
def Obligations.BiasMovesAtItsRate : Prop :=
  ∀ (c : BiasCh) (apart far limit : Nat) (s : State),
    let x := s.blk.bia c
    let r := s.blk.rd F.BIA_ACT_RANGE_ACT c
    let q := biasRate s.blk c r
    x.parked = false → (∀ y, x.chg ≠ some (2, y)) →
    (s.blk.on F.BIA_GLB_CLEAR_ACT = false ∨ s.blk.on F.BIA_CFG_CLRMODE c = false) →
    (Completes (.biasUpdateSlot apart far limit) s fun b =>
      ((b.bia c).o - x.o).natAbs ≤ max 1 (q.1 / q.2) ∧ (q.1 = 0 → (b.bia c).o = x.o) ∧ (b.bia c).parked = false) ∧
    (s.blk.on F.BIA_GLB_CLEAR_ACT = false → ruleSays s.blk c = none → x.stay = false → x.chg = none →
      biasCfgErr s.blk c r = false → x.o = (energyClamp s.blk c r (hostGoal s.blk c)).1 →
      Completes (.biasUpdateSlot apart far limit) s fun b => (b.bia c).o = x.o ∧ b.rd F.BIA_STAT_STATE c = 2) ∧
    (s.blk.on F.BIA_GLB_CLEAR_ACT = false → ruleSays s.blk c = none → x.stay = false → x.chg = none →
      biasCfgErr s.blk c r = true →
      Completes (.biasUpdateSlot apart far limit) s fun b => (b.bia c).o = x.o ∧ b.rd F.BIA_STAT_STATE c = 5 ∧
        b.rd F.GOV_BSTAT_CFG_ERR c = 1)

/-- R342, R346, R348, R356 to R359: writes of the code, the trim and the range; the graded trim; CLEAR_N. -/
def Obligations.BiasWritesAndClear : Prop :=
  ∀ (c : BiasCh) (v : Nat) (g : Fin 8) (s : State), let x := s.blk.bia c
    (Completes (.biaCodeWrite c v) s fun b => b.rd F.BIA_CODE_CODE c = v % 2 ^ F.BIA_CODE_CODE.wid ∧
      (s.blk.on F.BIA_GLB_CLEAR_ACT = true → b.rd F.BIA_STAT_CLR_DROP c = 1) ∧
      (s.blk.on F.BIA_GLB_CLEAR_ACT = false → (b.bia c).stay = false) ∧
      (x.failed = true → (b.bia c).chg = some (0, s.blk.rd F.BIA_CFG_RANGE c)) ∧ (b.bia c).o = x.o ∧
      Keeps [F.BIA_CODE_CODE.key c 0, F.BIA_STAT_CLR_DROP.key c 0] s.blk b) ∧
    (Completes (.biaTrimWrite c v) s fun b => b.rd F.BIA_TRIM_TRIM c = v % 2 ^ F.BIA_TRIM_TRIM.wid ∧
      (s.blk.on F.BIA_GLB_CLEAR_ACT = true → b.rd F.BIA_STAT_CLR_DROP c = 1) ∧
      OnlyRegs [F.BIA_TRIM_TRIM.key c 0, F.BIA_STAT_CLR_DROP.key c 0] s.blk b) ∧
    (Completes .trimGrade s fun b => ∀ i < 64,
      let t := clampI (-4096) 4096 (s.blk.rdS F.BIA_TRIM_TRIM i)
      let a := s.blk.rdS F.BIA_ACT_TRIM_ACT i
      b.rdS F.BIA_ACT_TRIM_ACT i = if a < t then a + 1 else if t < a then a - 1 else a) ∧
    (6 ≤ g.val → Completes (.rangeChange c g) s fun b => b = s.blk) ∧
    (g.val < 6 → x.failed = false → x.chg = none → x.parked = false →
      Completes (.rangeChange c g) s fun b => b.rd F.BIA_CFG_RANGE c = g ∧
        (s.blk.rd F.BIA_ACT_RANGE_ACT c ≠ g → (b.bia c).chg = some (1, g.val)) ∧
        (s.blk.rd F.BIA_ACT_RANGE_ACT c = g → (b.bia c).chg = none) ∧ (b.bia c).o = x.o ∧
        Keeps [F.BIA_CFG_RANGE.key c 0] s.blk b) ∧
    (s.blk.on F.BIA_GLB_CLEAR_ACT = false →
      Completes .clearNAct s fun b => b.rd F.BIA_GLB_CLEAR_ACT = 1 ∧
        (x.parked = false → x.chg = none → (b.bia c).stay = true) ∧
        (∀ y n, x.chg = some (n, y) → 1 ≤ n → n ≤ 2 → (b.bia c).chg = none ∧ (b.bia c).stay = true ∧
          b.rd F.BIA_STAT_CLR_DROP c = 1) ∧
        (s.blk.on F.BIA_CFG_CLRMODE c = true → 0 < s.blk.rd F.GOV_BLOAD_L_NH c → x.parked = false →
          b.rd F.GOV_BSTAT_IMM_DENIED c = 1)) ∧
    (Completes .clearNRelease s fun b => b.rd F.BIA_GLB_CLEAR_ACT = 0 ∧ OnlyRegs [F.BIA_GLB_CLEAR_ACT.key 0 0] s.blk b)

/-- R352 to R356, R360: a preset command on a channel that has one running is refused with RESULT 1, on a slot
written 10⁹ times with RESULT 2; otherwise the slot loses its commit flag and 400 µs later is verified; RELOAD takes
the slot in force into the live registers; the check after VIN valid does so for every channel. The 400 µs are the
model's choice (log 58). -/
def Obligations.BiasPresets : Prop :=
  ∀ (c : BiasCh) (s : State), let x := s.blk.bia c
    let free := match inForce s.blk c with | some 0 => 1 | _ => 0
    let rows : List (Nat × Instr × Bool) :=
      [(free, .saveNext c, true), (0, .saveA c, true), (1, .saveB c, true), (0, .eraseA c, false), (1, .eraseB c, false)]
    (∀ r ∈ rows, let p := s.blk.preset (2 * c.val + r.1)
      (s.blk.on F.BIA_PSTAT_BUSY c = true →
        Completes r.2.1 s fun b => b.rd F.BIA_PSTAT_RESULT c = 1 ∧ OnlyRegs [F.BIA_PSTAT_RESULT.key c 0] s.blk b) ∧
      (s.blk.on F.BIA_PSTAT_BUSY c = false → 10 ^ 9 ≤ p.writes →
        Completes r.2.1 s fun b => b.rd F.BIA_PSTAT_RESULT c = 2 ∧ b.rd F.BIA_STAT_WEAR_OUT c = 1 ∧
          OnlyRegs [F.BIA_PSTAT_RESULT.key c 0, F.BIA_STAT_WEAR_OUT.key c 0] s.blk b) ∧
      (s.blk.on F.BIA_PSTAT_BUSY c = false → p.writes < 10 ^ 9 →
        Completes r.2.1 s fun b => b.rd F.BIA_PSTAT_BUSY c = 1 ∧ (b.bia c).cmd = some ⟨r.1, r.2.2⟩ ∧
          b.preset (2 * c.val + r.1) = ⟨if r.2.2 then liveImage s.blk c ((topSeq s.blk c + 1) % 2 ^ 32) else p.image,
            false, p.writes + 1⟩ ∧
          Follows b 320000 (.presetDone c true))) ∧
    (∀ y, x.cmd = some y →
      let k := 2 * c.val + y.slot
      (Completes (.presetDone c true) s fun b => (b.bia c).cmd = none ∧ b.rd F.BIA_PSTAT_BUSY c = 0 ∧
        b.rd F.BIA_PSTAT_RESULT c = 0 ∧ (y.save = true → (b.preset k).commit = true) ∧
        (y.save = false → b.preset k = s.blk.preset k)) ∧
      (Completes (.presetDone c false) s fun b => (b.bia c).cmd = none ∧ b.rd F.BIA_PSTAT_BUSY c = 0 ∧
        b.rd F.BIA_PSTAT_RESULT c = (if y.save then 3 else 0) ∧ b.preset k = s.blk.preset k)) ∧
    (s.blk.on F.BIA_PSTAT_BUSY c = true →
      Completes (.reload c) s fun b => b.rd F.BIA_PSTAT_RESULT c = 1 ∧ OnlyRegs [F.BIA_PSTAT_RESULT.key c 0] s.blk b) ∧
    (s.blk.on F.BIA_PSTAT_BUSY c = false → inForce s.blk c = none →
      Completes (.reload c) s fun b => b.rd F.BIA_PSTAT_RESULT c = 4 ∧ OnlyRegs [F.BIA_PSTAT_RESULT.key c 0] s.blk b) ∧
    (∀ k, s.blk.on F.BIA_PSTAT_BUSY c = false → inForce s.blk c = some k →
      let p := s.blk.preset (2 * c.val + k)
      Completes (.reload c) s fun b => b.rd F.BIA_PSTAT_RESULT c = 0 ∧ b.rd F.BIA_CODE_CODE c =
          imageField p 4 4 % 2 ^ F.BIA_CODE_CODE.wid ∧
        b.rd F.BIA_CFG_RANGE c = imageField p 0 4 % 8 ∧ b.rd F.GOV_BLOAD_L_NH c = imageField p 12 4 % 2 ^ 32 ∧
        (b.bia c).stay = false ∧ (b.bia c).o = x.o) ∧
    (s.blk.on F.BIA_GLB_PRESET_DONE = false →
      Completes .presetCheck s fun b => b.rd F.BIA_GLB_PRESET_DONE = 1 ∧ (b.bia c).parked = true ∧
        (inForce s.blk c = none → (b.bia c).failed = true ∧ b.rd F.BIA_STAT_PRESET_FAIL c = 1) ∧
        (∀ k, inForce s.blk c = some k →
          (b.bia c).chg = some (0, imageField (s.blk.preset (2 * c.val + k)) 0 4 % 8))) ∧
    (s.blk.on F.BIA_GLB_PRESET_DONE = true → Completes .presetCheck s fun b => b = s.blk)

/-! ### The Firn island (R365 to R394) -/

/-- R367 to R375, R420: Firn time is paired with the module time; the oldest event leaves the queue, a free place
taken by source 1023 if events were discarded; sequence writes are checked; a completed entry is a result that reads
READY until it is read; a trigger starts the triggered sequence, one more waits, others are dropped. -/
def Obligations.FirnMeasures : Prop :=
  ∀ (e : Fin 128) (v : Nat) (conv rev : List Int) (isOver : Bool) (temp : Int) (s : State),
    let busy := s.blk.on F.FRN_STATUS_TRIG_BUSY
    let waiting := s.blk.on F.FRN_STATUS_TQPEND
    (s.blk.tim.running = true →
      Completes .firnTimePairing s fun b => b.frn.pairs.head? = some (s.blk.rd F.FRN_TIME_FTIME, s.blk.now) ∧
        b.frn.pairs.length ≤ 2 ∧ Keeps [] s.blk b) ∧
    (s.blk.tim.running = false → Completes .firnTimePairing s fun b => b = s.blk) ∧
    (∀ x l, s.blk.frn.evq = x :: l → s.blk.pwr.off = false →
      Completes .firnEventDeliver s fun b => Follows b 0 (.eventPublish (Fin.ofNat 1024 x.src) x.birth x.detail
          (if carriesFirn x.src then x.ftime else 0)) ∧ b.frn.lost = 0 ∧ Keeps [] s.blk b ∧
        (s.blk.frn.lost = 0 → b.frn.evq = l) ∧
        (s.blk.frn.lost ≠ 0 → ∃ y : FirnEv, b.frn.evq = l ++ [y] ∧ y.src = 1023 ∧ y.detail = s.blk.frn.lost)) ∧
    (e.val < 112 → seqRefused v = true →
      Completes (.frnSeqWrite e v) s fun b => b.rd F.FRN_STATUS_SEQ_REFUSED = 1 ∧
        OnlyRegs [F.FRN_STATUS_SEQ_REFUSED.key 0 0] s.blk b) ∧
    (e.val < 112 → seqRefused v = false →
      Completes (.frnSeqWrite e v) s fun b => b.rd F.FRN_SEQ_INPUT e = field v 0 8 ∧
        b.rd F.FRN_SEQ_EN e = field v F.FRN_SEQ_EN.lsb 1 ∧ b.rd F.FRN_SEQ_RATE e = field v 12 4) ∧
    (112 ≤ e.val → Completes (.frnSeqWrite e v) s fun b => b = s.blk) ∧
    (∀ k, s.blk.frn.cur.find? (fun x => x.2.1 == e.val) = some (k, e.val, false) → entryOver s.blk k = true →
      conv.length = 1 → e.val < 112 →
      Completes (.frnEntryComplete e conv rev isOver temp) s fun b =>
        b.rdS F.FRN_RES_CODE e = clampI (-8388608) 8388607 (conv.headD 0) ∧ b.rd F.FRN_RES_READY e = 1 ∧
        b.on F.FRN_RES_OVR e = isOver ∧
        b.rd F.FRN_RES_SEQCNT e = (s.blk.rd F.FRN_RES_SEQCNT e + 1) % 2 ^ F.FRN_RES_SEQCNT.wid) ∧
    (∀ k r, s.blk.frn.cur.find? (fun x => x.2.1 == e.val) = some (k, e.val, r) → entryOver s.blk k = false →
      Completes (.frnEntryComplete e conv rev isOver temp) s fun b => b = s.blk) ∧
    (s.blk.frn.cur.find? (fun x => x.2.1 == e.val) = none →
      Completes (.frnEntryComplete e conv rev isOver temp) s fun b => b = s.blk) ∧
    (Completes (.frnResRead e) s fun b => Out.readData 0 (s.blk.word .frnRes e) ∈ b.out ∧
      b.rd F.FRN_RES_READY e = 0 ∧ Keeps [F.FRN_RES_READY.key e 0] s.blk b) ∧
    (busy = true → waiting = true →
      (Completes .softTrig s fun b =>
        b.rd F.FRN_STATUS_TRIG_DROP = satAdd F.FRN_STATUS_TRIG_DROP.wid (s.blk.rd F.FRN_STATUS_TRIG_DROP) 1 ∧
        OnlyRegs [F.FRN_STATUS_TRIG_DROP.key 0 0] s.blk b) ∧
      (trigDone s.blk = true →
        Completes .trigSequenceEnd s fun b => b.rd F.FRN_STATUS_TRIG_BUSY = 1 ∧ b.rd F.FRN_STATUS_TQPEND = 0)) ∧
    (busy = true → waiting = false →
      (Completes .softTrig s fun b => b.rd F.FRN_STATUS_TQPEND = 1 ∧ OnlyRegs [F.FRN_STATUS_TQPEND.key 0 0] s.blk b) ∧
      (trigDone s.blk = true →
        Completes .trigSequenceEnd s fun b => b.rd F.FRN_STATUS_TRIG_BUSY = 0 ∧
          OnlyRegs [F.FRN_STATUS_TRIG_BUSY.key 0 0] s.blk b)) ∧
    (busy = false →
      (Completes .softTrig s fun b => b.rd F.FRN_STATUS_TRIG_BUSY = 1 ∧ Keeps [F.FRN_STATUS_TRIG_BUSY.key 0 0] s.blk b) ∧
      (s.blk.on F.FRN_CTRL_TRIG_EN = true →
        Completes .frnTrigger s fun b => b.rd F.FRN_STATUS_TRIG_BUSY = 1)) ∧
    (s.blk.on F.FRN_CTRL_TRIG_EN = false → Completes .frnTrigger s fun b => b = s.blk)

/-- R376 to R379: a comparator that is on takes its new state, latches and reports the edges that EDGE selects and
wakes the module; it settles without an edge; THHI below THLO is ignored, a seventeenth fast comparator refused. -/
def Obligations.FirnComparators : Prop :=
  ∀ (i : Fin 80) (dest : Fin 3) (v : Nat) (s : State),
    let st := s.blk.rd F.FRN_CMPS_STATE i
    let md := s.blk.rd F.FRN_CMP_MODE i
    (md = 0 ∨ st = 3 ∨ st = dest → Completes (.comparatorEdge i dest) s fun b => b = s.blk) ∧
    (md ≠ 0 → st ≠ 3 → st ≠ dest →
      Completes (.comparatorEdge i dest) s fun b => b.rd F.FRN_CMPS_STATE i = dest ∧
        (bit (s.blk.rd F.FRN_CMP_EDGE i) dest = true → bit (b.rd F.FRN_CMPS_LATCH i) dest = true ∧
          (s.blk.frn.evq.length < 64 → ∃ x : FirnEv, b.frn.evq = s.blk.frn.evq ++ [x] ∧ x.src = 816 + i.val ∧
            x.detail = dest.val) ∧
          (s.blk.on F.FRN_CMP_WAKE_EN i = true → Follows b 0 (.wake 2 i))) ∧
        (bit (s.blk.rd F.FRN_CMP_EDGE i) dest = false → b.frn = s.blk.frn ∧
          b.rd F.FRN_CMPS_LATCH i = s.blk.rd F.FRN_CMPS_LATCH i)) ∧
    (md ≠ 0 → st = 3 →
      Completes (.comparatorSettle i dest) s fun b => b.rd F.FRN_CMPS_STATE i = dest ∧
        OnlyRegs [F.FRN_CMPS_STATE.key i 0] s.blk b) ∧
    (Completes .latchPeriodClear s fun b =>
      ∀ j < 80, b.rd F.FRN_CMPS_LATCH j = if s.blk.on F.FRN_CMP_LMODE j then 0 else s.blk.rd F.FRN_CMPS_LATCH j) ∧
    (field v 16 10 < field v 0 10 → Completes (.frnCmpWrite i v) s fun b => b = s.blk) ∧
    (field v 0 10 ≤ field v 16 10 → field v 30 2 = 3 → md ≠ 3 →
      16 ≤ ((List.range 80).filter (fun x => s.blk.rd F.FRN_CMP_MODE x == 3)).length →
      Completes (.frnCmpWrite i v) s fun b => b.rd F.FRN_STATUS_FAST_REFUSED = 1 ∧
        OnlyRegs [F.FRN_STATUS_FAST_REFUSED.key 0 0] s.blk b) ∧
    (field v 0 10 ≤ field v 16 10 → field v 30 2 ≠ 3 →
      Completes (.frnCmpWrite i v) s fun b => b.rd F.FRN_CMP_MODE i = field v 30 2 ∧
        b.rd F.FRN_CMP_THLO i = field v 0 10 ∧ b.rd F.FRN_CMP_THHI i = field v 16 10 ∧
        (field v 30 2 = 0 → b.rd F.FRN_CMPS_STATE i = 1) ∧
        (field v 30 2 ≠ 0 → md = 0 → b.rd F.FRN_CMPS_STATE i = 3) ∧
        (field v 30 2 ≠ 0 → md ≠ 0 → b.rd F.FRN_CMPS_STATE i = st))

/-- R381, R383, R384, R387, R388: a rule that has been true for PERSIST + 1 evaluations fires, RELEASE ends it; a wake
cause starts the exit from Idle or from Hibernate and is recorded; the SMBus target. -/
def Obligations.FirnRulesWakeAndSmbus : Prop :=
  ∀ (j : Fin 32) (src : Fin 5) (index v : Nat) (s : State),
    let st := s.blk.rd F.GLB_PWR_STATE
    (Completes .rulePass s fun b =>
      (s.blk.on F.FRN_RCFG_EN j = false → b.rd F.FRN_RSTAT_FIRED j = s.blk.rd F.FRN_RSTAT_FIRED j) ∧
      (s.blk.on F.FRN_RCFG_EN j = true → s.blk.rd F.FRN_RCFG_SRCKIND j < 2 → s.blk.on F.FRN_RSTAT_FIRED j = false →
        (s.blk.rd F.FRN_RCFG_PERSIST j + 1 ≤ (s.blk.frn.rules.get (false, 0) j).2 →
          b.rd F.FRN_RSTAT_FIRED j = 1 ∧ (s.blk.on F.FRN_RCFG_A_WAKE j = true → Follows b 0 (.wake 1 j)) ∧
          (s.blk.on F.FRN_RCFG_A_FAULT j = true → b.rd F.FRN_STATUS_RULE_FAULT = 1)) ∧
        ((s.blk.frn.rules.get (false, 0) j).2 < s.blk.rd F.FRN_RCFG_PERSIST j + 1 →
          b.rd F.FRN_RSTAT_FIRED j = 0)) ∧
      (s.blk.on F.FRN_RCFG_EN j = true → s.blk.rd F.FRN_RCFG_SRCKIND j < 2 → s.blk.on F.FRN_RSTAT_FIRED j = true →
        s.blk.on F.FRN_RCFG_AUTO j = true → (s.blk.frn.rules.get (false, 0) j).2 = 0 →
        b.rd F.FRN_RSTAT_FIRED j = 0)) ∧
    (Completes (.release j) s fun b => b.rd F.FRN_RSTAT_FIRED j = 0 ∧ OnlyRegs [F.FRN_RSTAT_FIRED.key j 0] s.blk b) ∧
    (st = 0 → (Completes (.wake src index) s fun b => b = s.blk) ∧ Completes .wakeN s fun b => b = s.blk) ∧
    (st = 1 → hibernated s.blk = false →
      (Completes (.wake src index) s fun b => b.rd F.FRN_WAKE_LAST_SRC = src ∧
        b.rd F.FRN_WAKE_INDEX = index % 2 ^ F.FRN_WAKE_INDEX.wid ∧ (∃ d, d ≤ 16000 ∧ Follows b d .idleExit) ∧
        OnlyRegs [F.FRN_WAKE_LAST_SRC.key 0 0, F.FRN_WAKE_INDEX.key 0 0] s.blk b) ∧
      (Completes .wakeN s fun b => b.rd F.FRN_WAKE_LAST_SRC = 3 ∧ (∃ d, d ≤ 16000 ∧ Follows b d .idleExit))) ∧
    (2 ≤ st → s.blk.on F.FRN_THERM_SHDN = false → s.blk.rd F.RCV_STATUS_TILE_OFF = 0 →
      Completes .wakeN s fun b => b.rd F.FRN_WAKE_LAST_SRC = 3 ∧ b.rd F.FRN_WAKE_INDEX = 0 ∧
        Follows b 0 .hibernateWake) ∧
    (Completes .smbReadStatus s fun b => (∃ x, Out.smbus [x] ∈ b.out ∧
        (s.blk.on F.FRN_THERM_SHDN = true ↔ x % 2 = 1)) ∧ Keeps [] s.blk b) ∧
    (Completes (.smbSetPointer v) s fun b => b.frn.smbPtr = v % 2 ^ 16 / 8 * 8 ∧ Keeps [] s.blk b)

/-! ### Tone triggers, general units, capture engines and markers (R395 to R413) -/

/-- R397 to R399, R401 to R404: a tone trigger fires once its condition has held for max(1, WIDTH) steps and re-arms
after HOLD; the firing is counted three ticks later; a unit that qualifies outside its hold-off writes its stamp and
publishes; a configuration the source does not allow is refused; an input takes at most one edge per tick. -/
def Obligations.TonesAndUnitsQualify : Prop :=
  ∀ (q : Chan) (u : Fin 32) (x y : Int) (word : Fin 3) (v : Nat) (i : Fin 16) (level : Bool) (n : Fin 16) (held : Nat)
    (s : State),
    let t := s.blk.tone q
    let w := max 1 (s.blk.act F.TRG_TCFG_WIDTH q)
    let on := s.blk.actOn F.TRG_GCFG_EN u
    let kind := field v 12 3
    let qual := field v 16 3
    let bad := (kind ∈ [1, 3, 4] ∧ qual ∈ [4, 6, 7]) ∨ (kind ∈ [2, 3] ∧ 16 ≤ field v 0 9) ∨ (kind = 4 ∧ 80 ≤ field v 0 9)
    (t.since = none → t.cond = true → w ≤ t.run →
      Completes (.toneTriggerFire q) s fun b => b.rd F.TRG_TSTAT_STATE q = 3 ∧
        b.rd F.TRG_TSTAT_STAMP q = stampField t.cross % 2 ^ F.TRG_TSTAT_STAMP.wid ∧
        (∃ z, Follows b 3 (.toneTriggerArrive q z t.cross)) ∧
        Keeps [F.TRG_TSTAT_STATE.key q 0, F.TRG_TSTAT_STAMP.key q 0] s.blk b) ∧
    (t.since ≠ none ∨ t.cond = false ∨ t.run < w → Completes (.toneTriggerFire q) s fun b => b = s.blk) ∧
    (Completes (.toneTriggerArrive q x y) s fun b =>
      b.rd F.TRG_TCNT_HITS q = satAdd F.TRG_TCNT_HITS.wid (s.blk.rd F.TRG_TCNT_HITS q) 1 ∧
        Keeps [F.TRG_TCNT_HITS.key q 0] s.blk b) ∧
    (∀ k, t.since = some k → t.cond = false →
      (s.blk.act F.TRG_TCFG_HOLD q ≤ k → Completes (.toneTriggerRearm q) s fun b => (b.tone q).since = none ∧
        b.rd F.TRG_TSTAT_STATE q = (if toneActive s.blk q then 1 else 0) ∧ Keeps [F.TRG_TSTAT_STATE.key q 0] s.blk b) ∧
      (k < s.blk.act F.TRG_TCFG_HOLD q → Completes (.toneTriggerRearm q) s fun b => b = s.blk)) ∧
    (t.cond = true → Completes (.toneTriggerRearm q) s fun b => b = s.blk) ∧
    (Completes (.trgTcfgWrite q) s fun b => (b.tone q).xs = [] ∧ (b.tone q).vs = [] ∧ (b.tone q).cond = false ∧
      (b.tone q).since = t.since ∧ Keeps [F.TRG_TSTAT_STATE.key q 0] s.blk b) ∧
    (on = false → Completes (.generalUnitFire u x) s fun b => b = s.blk) ∧
    (on = true → unitHeld s.blk u x = true → Completes (.generalUnitFire u x) s fun b =>
      (b.unit u).fireAt = (s.blk.unit u).fireAt ∧ (b.unit u).holdLeft = (s.blk.unit u).holdLeft - 1 ∧
        Keeps [F.TRG_GSTAT_ARMED.key u 0, F.TRG_GSTAT_HOLDING.key u 0] s.blk b) ∧
    (on = true → unitHeld s.blk u x = false → Completes (.generalUnitFire u x) s fun b =>
      b.rd F.TRG_GSTAT_STAMP u = stampField x % 2 ^ F.TRG_GSTAT_STAMP.wid ∧ (b.unit u).fireAt = some x ∧
        Follows b 0 (.eventPublish (Fin.ofNat 1024 (768 + u)) s.blk.now (stampField x % 2 ^ 32) 0) ∧
        (∀ e < 16, s.blk.rd F.TRG_CCFG_TSELK e = 0 → s.blk.rd F.TRG_CCFG_TSELIDX e = u →
          Follows b 0 (.captureTrigger (Fin.ofNat 16 e) (stampField x) 0)) ∧
        Keeps [F.TRG_GSTAT_STAMP.key u 0, F.TRG_GSTAT_ARMED.key u 0, F.TRG_GSTAT_HOLDING.key u 0] s.blk b) ∧
    ((s.blk.unit u).crossed ≠ x → Completes (.generalUnitTimeout u x) s fun b => b = s.blk) ∧
    (s.blk.act F.TRG_GCFG_QUAL u = 5 → (s.blk.unit u).crossed = x → on = true →
      unitHeld s.blk u (x + s.blk.act F.TRG_GTIME_T1 u) = false →
      Completes (.generalUnitTimeout u x) s fun b =>
        b.rd F.TRG_GSTAT_STAMP u = stampField (x + s.blk.act F.TRG_GTIME_T1 u) % 2 ^ F.TRG_GSTAT_STAMP.wid) ∧
    (word = 0 → kind < 5 → field v 20 2 ≠ 3 →
      (bad → Completes (.trgGcfgWrite u word v) s fun b => b.rd F.TRG_GSTAT_CFG_REFUSED u = 1 ∧
        OnlyRegs [F.TRG_GSTAT_CFG_REFUSED.key u 0] s.blk b) ∧
      (¬ bad → Completes (.trgGcfgWrite u word v) s fun b => b.rd F.TRG_GCFG_SRCK u = kind ∧
        b.rd F.TRG_GCFG_QUAL u = qual ∧ b.rd F.TRG_GCFG_SRCIDX u = field v 0 9 ∧ (b.unit u).fireAt = none)) ∧
    (word = 0 → (5 ≤ kind ∨ field v 20 2 = 3) → Completes (.trgGcfgWrite u word v) s fun b => b = s.blk) ∧
    (word = 1 → toS 32 v < toS 32 (v / 2 ^ 32) → Completes (.trgGcfgWrite u word v) s fun b =>
      b.rd F.TRG_GSTAT_CFG_REFUSED u = 1 ∧ OnlyRegs [F.TRG_GSTAT_CFG_REFUSED.key u 0] s.blk b) ∧
    (held < s.blk.rd F.TRG_XIN_DEB i + 1 ∨ s.blk.on F.TRG_XIN_LEVEL i = level →
      Completes (.trigInEdge i level n held) s fun b => b = s.blk) ∧
    (s.blk.rd F.TRG_XIN_DEB i + 1 ≤ held → s.blk.on F.TRG_XIN_LEVEL i ≠ level →
      Completes (.trigInEdge i level n held) s fun b => b.on F.TRG_XIN_LEVEL i = level ∧
        (s.blk.trg.lastEdge.find i = some (s.blk.now - 3) →
          b.rd F.TRG_XIN_XDROP i = satAdd F.TRG_XIN_XDROP.wid (s.blk.rd F.TRG_XIN_XDROP i) 1) ∧
        (s.blk.trg.lastEdge.find i ≠ some (s.blk.now - 3) →
          b.rd F.TRG_XIN_XDROP i = s.blk.rd F.TRG_XIN_XDROP i ∧
          (bit (s.blk.rd F.TRG_XIN_EDGES i) (if level then 0 else 1) = true →
            Follows b 0 (.eventPublish (Fin.ofNat 1024 (800 + i)) s.blk.now (b2n level) 0))))

/-- R406 to R409, R411 to R413: ARM reports the first check that fails; the first trigger fixes the anchor, a later
one is counted; a segment closes when it is complete, and an engine with no free segment overflows; STOP leaves the
engine IDLE; a pattern starts at a granule boundary, MRKP only from the sequencer named in SEQ. -/
def Obligations.CapturesAndMarkers : Prop :=
  ∀ (e : Fin 16) (stamp : Nat) (kind : Fin 3) (data : List Byte) (mk : Fin 16) (pat : Fin 256) (by_ : Nat) (s : State),
    let st := s.blk.capState e
    let busy := st = 1 ∨ st = 2
    let cont := capCont s.blk e
    let en := s.blk.actOn F.TRG_MCFG_EN mk
    let at_ := captBase + capSegAt s.blk e (s.blk.cap e).seg
    let size := if capMode s.blk e = 3 then (s.blk.cap e).recs.length else capGot s.blk e * capGran s.blk e
    (st ≠ 0 → st ≠ 4 → Completes (.captureArm e) s fun b => b = s.blk) ∧
    (st = 0 ∨ st = 4 →
      (capCheck s.blk e = 0 → Completes (.captureArm e) s fun b => b.capState e = 1 ∧ b.rd F.TRG_CSTAT_STATUS e = 0 ∧
        (b.cap e).busy = [] ∧ b.rd F.TRG_CSTAT_FREESEG e = capSegs s.blk e % 2 ^ F.TRG_CSTAT_FREESEG.wid ∧
        Keeps [F.TRG_CSTAT_STATE.key e 0, F.TRG_CSTAT_STATUS.key e 0, F.TRG_CSTAT_FREESEG.key e 0] s.blk b) ∧
      (capCheck s.blk e ≠ 0 → Completes (.captureArm e) s fun b => b.capState e = 0 ∧
        b.rd F.TRG_CSTAT_STATUS e = capCheck s.blk e % 2 ^ F.TRG_CSTAT_STATUS.wid ∧
        OnlyRegs [F.TRG_CSTAT_STATE.key e 0, F.TRG_CSTAT_STATUS.key e 0] s.blk b)) ∧
    (cont = true → (Completes (.captureTrigger e stamp kind) s fun b => b = s.blk) ∧
      Completes (.captureSoft e) s fun b => b = s.blk) ∧
    (cont = false → st = 1 →
      (Completes (.captureTrigger e stamp kind) s fun b => b.capState e = 2 ∧
        (b.cap e).anchor = some (stamp, kind.val, s.blk.elapsed) ∧ Keeps [F.TRG_CSTAT_STATE.key e 0] s.blk b) ∧
      (Completes (.captureSoft e) s fun b => b.capState e = 2 ∧
        (b.cap e).anchor = some (16 * s.blk.now, 2, s.blk.elapsed) ∧ Keeps [F.TRG_CSTAT_STATE.key e 0] s.blk b)) ∧
    (cont = false → st = 2 → ∀ a k t, (s.blk.cap e).anchor = some (a, k, t) →
      Completes (.captureTrigger e stamp kind) s fun b =>
        b.rd F.TRG_CSTAT_TRIG_BUSY e = satAdd F.TRG_CSTAT_TRIG_BUSY.wid (s.blk.rd F.TRG_CSTAT_TRIG_BUSY e) 1 ∧
        (b.cap e).anchor =
          (if t = s.blk.elapsed ∧ stamp < a then some (stamp, kind.val, t) else some (a, k, t)) ∧
        Keeps [F.TRG_CSTAT_TRIG_BUSY.key e 0] s.blk b) ∧
    (cont = false → st = 3 → Completes (.captureTrigger e stamp kind) s fun b =>
      b.rd F.TRG_CSTAT_TRIG_MISS e = satAdd F.TRG_CSTAT_TRIG_MISS.wid (s.blk.rd F.TRG_CSTAT_TRIG_MISS e) 1 ∧
        OnlyRegs [F.TRG_CSTAT_TRIG_MISS.key e 0] s.blk b) ∧
    (capComplete s.blk e = false →
      CompletesMem (.segmentClose e data) s fun b m => b = s.blk ∧ m = s.mem) ∧
    (capComplete s.blk e = true → capExhausted s.blk e = false →
      CompletesMem (.segmentClose e data) s fun b m => (b.capState e = 1 ∨ b.capState e = 3) ∧
        (b.cap e).anchor = none ∧ (b.cap e).segSeq = (s.blk.cap e).segSeq + 1 ∧
        (s.blk.cap e).seg ∈ (b.cap e).busy ∧ b.rd F.TRG_CSTAT_OVF e = s.blk.rd F.TRG_CSTAT_OVF e ∧
        m.le at_ 8 = (match (s.blk.cap e).anchor with | some (x, _, _) => x | none => 0) % 2 ^ 52 ∧
        ∀ a, a < at_ ∨ at_ + 64 + size ≤ a → m.byte a = s.mem.byte a) ∧
    (capComplete s.blk e = true → capExhausted s.blk e = true →
      CompletesMem (.segmentClose e data) s fun b _ => b.capState e = 4 ∧ b.rd F.TRG_CSTAT_OVF e = 1 ∧
        Follows b 0 (.eventPublish (Fin.ofNat 1024 995) s.blk.now e 0)) ∧
    (busy → CompletesMem (.captureOverflow e data) s fun b _ => b.capState e = 4 ∧ b.rd F.TRG_CSTAT_OVF e = 1 ∧
        Follows b 0 (.eventPublish (Fin.ofNat 1024 995) s.blk.now e 0)) ∧
    (¬ busy → CompletesMem (.captureOverflow e data) s fun b m => b = s.blk ∧ m = s.mem) ∧
    (busy → CompletesMem (.captureStop e data) s fun b _ => b.capState e = 0 ∧ (s.blk.cap e).seg ∈ (b.cap e).busy) ∧
    (¬ busy → CompletesMem (.captureStop e data) s fun b m => b.capState e = 0 ∧ m = s.mem ∧
      OnlyRegs [F.TRG_CSTAT_STATE.key e 0] s.blk b) ∧
    (st = 1 → capMode s.blk e = 3 → (s.blk.cap e).recs ≠ [] → s.blk.rd F.TRG_CWIN_FLUSH e ≠ 0 →
      (s.blk.cap e).begin_ + 800 * s.blk.rd F.TRG_CWIN_FLUSH e ≤ s.blk.elapsed → capExhausted s.blk e = false →
      CompletesMem (.captureFlush e) s fun b _ => (b.capState e = 1 ∨ b.capState e = 3) ∧ (b.cap e).recs = [] ∧
        (b.cap e).segSeq = (s.blk.cap e).segSeq + 1) ∧
    (capMode s.blk e ≠ 3 → CompletesMem (.captureFlush e) s fun b m => b = s.blk ∧ m = s.mem) ∧
    (by_ = 0 → en = true → Completes (.markerPatternStart mk pat by_) s fun b =>
      (b.mark mk).next = some (granule (s.blk.now + 2), pat.val, false) ∧ Keeps [] s.blk b) ∧
    (by_ ≠ 0 → s.blk.rd F.TRG_MCFG_SEQ mk ≠ by_ - 1 → Completes (.markerPatternStart mk pat by_) s fun b =>
      b.rd F.TRG_MSTAT_MRK_REFUSED mk = satAdd F.TRG_MSTAT_MRK_REFUSED.wid (s.blk.rd F.TRG_MSTAT_MRK_REFUSED mk) 1 ∧
        OnlyRegs [F.TRG_MSTAT_MRK_REFUSED.key mk 0] s.blk b) ∧
    (by_ ≠ 0 → s.blk.rd F.TRG_MCFG_SEQ mk = by_ - 1 → en = true → Completes (.markerPatternStart mk pat by_) s fun b =>
      (b.mark mk).play = some (pat.val, s.blk.now) ∧ b.rd F.TRG_MSTAT_LAST_PAT mk = pat.val ∧
        Keeps [F.TRG_MSTAT_LAST_PAT.key mk 0] s.blk b) ∧
    (en = false → (by_ = 0 ∨ s.blk.rd F.TRG_MCFG_SEQ mk = by_ - 1) →
      Completes (.markerPatternStart mk pat by_) s fun b => b = s.blk)

/-! ### Accesses from outside (R388, R448 to R450, R597 to R607) -/

/-- R388, R445, R448 to R450, R551, R597 to R600: a request of a function that is not there does nothing; whole words are
written and read, a part of a word is not and sets PARTIAL; a virtual function that does not see a register or does
not own a store changes nothing, reads 0 and has ACCESS_DENIED; a closed aperture discards; a store takes exactly the
enabled bytes, a program memory in use none; an access to an island under recovery waits. -/
def Obligations.HostAccessesReachTheirPlaces : Prop :=
  ∀ (f : Func) (a n be v off : Nat) (w : Bool) (s : State) (x : RegAt),
    let up := s.blk.pwr.off = false ∧ s.blk.rd F.GLB_PWR_STATE = 0 ∧ islBusy s.blk 0 = false ∧
      islBusy s.blk 1 = false ∧ islBusy s.blk 2 = false ∧ present s.blk f = true
    let den := [F.HIF_FSTAT_ACCESS_DENIED.key f 0, msixPending.key f 0]
    let va := s.blk.rd F.VIEW_ADDR_ADDR f / 8 * 8
    (s.blk.pwr.off = true ∨ present s.blk f = false →
      ∀ c ∈ ([.registerWrite f a n be v, .readClear f a n, .viewDataAccess f w off n v, .apertureAccess f w off n be v,
          .bar2Access f w a n be v] : List Instr),
        CompletesMem c s fun b m => b = s.blk ∧ m = s.mem) ∧
    (up → f = 0 →
      (CompletesMem (.registerWrite f 0x30 8 0xFF v) s fun b m => m = s.mem ∧
        b.rd F.GLB_SCRATCH_VALUE = v % 2 ^ 64 ∧ Keeps [F.GLB_SCRATCH_VALUE.key 0 0] s.blk b) ∧
      (CompletesMem (.registerWrite f 0x34 4 0xF v) s fun b m => m = s.mem ∧
        b.rd F.GLB_SCRATCH_VALUE = s.blk.rd F.GLB_SCRATCH_VALUE % 2 ^ 32 + v % 2 ^ 32 * 2 ^ 32 ∧
        Keeps [F.GLB_SCRATCH_VALUE.key 0 0] s.blk b) ∧
      (CompletesMem (.readClear f 0x30 8) s fun b m => m = s.mem ∧
        b.out = .readData 0 (s.blk.rd F.GLB_SCRATCH_VALUE) :: s.blk.out ∧ Keeps [] s.blk b)) ∧
    (up → (blocksOf a n).all (fun y => wholeWords (enabled a n be y) == 0) = true →
      CompletesMem (.registerWrite f a n be v) s fun b m => m = s.mem ∧ b.rd F.GLB_ACCERR_PARTIAL = 1 ∧
        b.rd F.GLB_ACCERR_ADDR = a % 2 ^ F.GLB_ACCERR_ADDR.wid ∧ b.rd F.GLB_ACCERR_FUNC = f ∧
        Keeps [F.GLB_ACCERR_PARTIAL.key 0 0, F.GLB_ACCERR_ADDR.key 0 0, F.GLB_ACCERR_FUNC.key 0 0] s.blk b) ∧
    (f = 0 → ∀ c ∈ ([.viewDataAccess f w off n v, .apertureAccess f w off n be v] : List Instr),
      CompletesMem c s fun b m => b = s.blk ∧ m = s.mem) ∧
    (up → f ≠ 0 → locate s.blk va = some x → regWidth x.reg = 64 → sees s.blk f x.reg x.i = false →
      (CompletesMem (.viewDataAccess f true 0 8 v) s fun b m => m = s.mem ∧ b.rd F.HIF_FSTAT_ACCESS_DENIED f = 1 ∧
        Keeps den s.blk b) ∧
      (CompletesMem (.viewDataAccess f false 0 8 v) s fun b m => m = s.mem ∧ b.rd F.HIF_FSTAT_ACCESS_DENIED f = 1 ∧
        .readData f 0 ∈ b.out ∧ Keeps den s.blk b)) ∧
    (up → f ≠ 0 → off < 0x8000 → off % 8 = 0 → s.blk.on F.HIF_AP_EN f (off / 0x1000) = false →
      (CompletesMem (.apertureAccess f true off 8 0xFF v) s fun b m => m = s.mem ∧ Keeps [] s.blk b) ∧
      (CompletesMem (.apertureAccess f false off 8 0xFF v) s fun b m => m = s.mem ∧ .readData f 0 ∈ b.out ∧
        Keeps [] s.blk b)) ∧
    (up → f ≠ 0 → off < 0x8000 → off % 8 = 0 → s.blk.on F.HIF_AP_EN f (off / 0x1000) = true →
      locate s.blk (0x1000 * s.blk.rd F.HIF_AP_PAGE f (off / 0x1000) + off % 0x1000) = some x →
      regWidth x.reg = 64 → sees s.blk f x.reg x.i = false →
      CompletesMem (.apertureAccess f true off 8 0xFF v) s fun b m => m = s.mem ∧
        b.rd F.HIF_FSTAT_ACCESS_DENIED f = 1 ∧ Keeps den s.blk b) ∧
    (up → f = 0 → s.mem.poison = [] → sweeping s.blk a = false → scratchBase ≤ a → a + n ≤ scratchBase + 0xC00000 →
      0 < n →
      (CompletesMem (.bar2Access f true a n (2 ^ n - 1) v) s fun b m => Keeps [] s.blk b ∧
        ∀ y, m.byte y = if a ≤ y ∧ y < a + n then BitVec.ofNat 8 (v / 2 ^ (8 * (y - a))) else s.mem.byte y) ∧
      (CompletesMem (.bar2Access f false a n be v) s fun b m => m = s.mem ∧ .readData 0 (s.mem.le a n) ∈ b.out ∧
        Keeps [] s.blk b)) ∧
    (up → f ≠ 0 → scratchBase ≤ a → a + n ≤ scratchBase + 0xC00000 → 0 < n → inSpart s.blk f a n = false →
      (CompletesMem (.bar2Access f true a n (2 ^ n - 1) v) s fun b m => m = s.mem ∧
        b.rd F.HIF_FSTAT_ACCESS_DENIED f = 1 ∧ Keeps den s.blk b) ∧
      (CompletesMem (.bar2Access f false a n be v) s fun b m => m = s.mem ∧ .readData f 0 ∈ b.out ∧
        b.rd F.HIF_FSTAT_ACCESS_DENIED f = 1 ∧ Keeps den s.blk b)) ∧
    (∀ q < 64, up → f = 0 → regionHeld s.blk (q / 8) = false → s.blk.seqState q = 2 ∨ s.blk.seqState q = 3 →
      sweeping s.blk (pgmBase q) = false → a = pgmBase q →
      CompletesMem (.bar2Access f true a 8 0xFF v) s fun b m => m = s.mem ∧ b.rd F.SEQ_STATUS_PGM_REFUSED q = 1 ∧
        Keeps [F.SEQ_STATUS_PGM_REFUSED.key q 0] s.blk b) ∧
    (s.blk.pwr.off = false → present s.blk f = true → islBusy s.blk 0 = true →
      ∀ c ∈ ([.registerWrite f a n be v, .readClear f a n, .bar2Access f w a n be v] : List Instr),
        CompletesMem c s fun b m => m = s.mem ∧ b.rcv.held = s.blk.rcv.held ++ [c] ∧ Keeps [] s.blk b) ∧
    (Completes .smbBlockRead s fun b => b.frn.smbPtr = (s.blk.frn.smbPtr + 8) % 2 ^ 16 ∧
      (∃ l : List Nat, l.length = 8 ∧ Out.smbus l ∈ b.out) ∧ Keeps [] s.blk b)

/-! ### The host interface (R444 to R470) -/

/-- R444, R446, R456 to R458, R460, R462: a count is taken only within the ring and refused otherwise; a ring is armed
once and raises its cause when entries wait; setting EN resets both counts; a fetched descriptor is counted and starts
or, with a reserved opcode, completes; a completion enters the ring with its phase while the ring has room. -/
def Obligations.RingsCountAndAnnounce : Prop :=
  ∀ (f : Func) (k : Fin 6) (v width speed : Nat) (bytes : List Byte) (s : State),
    let cmdOn := s.blk.on F.HIF_RCFG_EN f 0
    let on := s.blk.on F.HIF_RCFG_EN f k
    let d := sub32 v (s.blk.rd F.DB_CMD_CONSUMED f)
    let ahead := sub32 (s.blk.rd F.DB_CMD_PROD f) (s.blk.rd F.DB_CMD_CONSUMED f)
    let err := [F.HIF_FSTAT_RING_ERR.key f 0, msixPending.key f 0]
    let cause := 8 * (k.val - 1)
    let vec := s.blk.rd ⟨.hifIrqmap, cause, 7⟩ f
    let raised (b : Blk) : Prop := b.rd F.DB_RING_ARM f k = 0 ∧
      (s.blk.on ⟨.hifIrqmap, cause + 7, 1⟩ f = true → vecMasked s.blk f vec = false →
        .msix f vec (msixDword s.blk f (4 * vec) + 2 ^ 32 * msixDword s.blk f (4 * vec + 1))
          (msixDword s.blk f (4 * vec + 2)) ∈ b.out) ∧
      Keeps [F.DB_RING_ARM.key f k, msixPending.key f 0] s.blk b
    let l := field v 16 4
    let n := s.blk.rd F.DB_CMD_CONSUMED f
    let c : Cmd := ⟨n, bytes, false, 0, 0, 0⟩
    (s.blk.pwr.off = false → (width = 4 ∨ width = 8 ∨ width = 16) → 1 ≤ speed → speed ≤ 5 →
      Completes (.pcieLinkUp width speed) s fun b => b.rd F.HIF_LINK_UP = 1 ∧ b.rd F.HIF_LINK_WIDTH = width ∧
        b.rd F.HIF_LINK_SPEED = speed ∧
        Keeps [F.HIF_LINK_UP.key 0 0, F.HIF_LINK_WIDTH.key 0 0, F.HIF_LINK_SPEED.key 0 0] s.blk b ∧
        (s.blk.pwr.peWake = true → b.pwr.peWake = false ∧ Follows b 0 (.eventPublish 1016 s.blk.now 0 0))) ∧
    (cmdOn = false → Completes (.dbCmdWrite f v) s fun b => b = s.blk) ∧
    (cmdOn = true → ahead ≤ d → d ≤ ringSize s.blk f 0 →
      Completes (.dbCmdWrite f v) s fun b => b.rd F.DB_CMD_PROD f = v % 2 ^ 32 ∧
        OnlyRegs [F.DB_CMD_PROD.key f 0] s.blk b) ∧
    (cmdOn = true → (d < ahead ∨ ringSize s.blk f 0 < d) →
      Completes (.dbCmdWrite f v) s fun b => b.rd F.HIF_FSTAT_RING_ERR f = 1 ∧ Keeps err s.blk b) ∧
    ((k = 0 ∨ on = false) → (Completes (.dbRingConsWrite f k v) s fun b => b = s.blk) ∧
      Completes (.ringArm f k) s fun b => b = s.blk) ∧
    (k ≠ 0 → on = true →
      (ringUsed s.blk f k < sub32 v (ringCons s.blk f k) →
        Completes (.dbRingConsWrite f k v) s fun b => b.rd F.HIF_FSTAT_RING_ERR f = 1 ∧ Keeps err s.blk b) ∧
      (sub32 v (ringCons s.blk f k) ≤ ringUsed s.blk f k → k ≠ 3 →
        Completes (.dbRingConsWrite f k v) s fun b => b.rd F.DB_RING_CONS f k = v % 2 ^ 32 ∧
          OnlyRegs [F.DB_RING_CONS.key f k] s.blk b) ∧
      (ringUsed s.blk f k = 0 →
        Completes (.ringArm f k) s fun b => b.rd F.DB_RING_ARM f k = 1 ∧ OnlyRegs [F.DB_RING_ARM.key f k] s.blk b) ∧
      (ringUsed s.blk f k ≠ 0 → Completes (.ringArm f k) s raised)) ∧
    (k ≠ 0 → s.blk.on F.DB_RING_ARM f k = true → Completes (.moderationExpire f k) s raised) ∧
    ((k = 0 ∨ s.blk.on F.DB_RING_ARM f k = false) → Completes (.moderationExpire f k) s fun b => b = s.blk) ∧
    (l < 4 → Completes (.ringEnable f k v) s fun b => b = s.blk) ∧
    (4 ≤ l → on = true → l ≠ s.blk.rd F.HIF_RCFG_LOG2N f k →
      Completes (.ringEnable f k v) s fun b => b.rd F.HIF_FSTAT_RING_ERR f = 1 ∧ Keeps err s.blk b) ∧
    (4 ≤ l → on = false → bit v 31 = true →
      Completes (.ringEnable f k v) s fun b => b.rd F.HIF_RCFG_EN f k = 1 ∧ b.rd F.HIF_RCFG_LOG2N f k = l ∧
        b.rd F.HIF_RCFG_MODER f k = field v 0 16 ∧
        (k = 0 → b.rd F.DB_CMD_PROD f = 0 ∧ b.rd F.DB_CMD_CONSUMED f = 0) ∧
        (k ≠ 0 → b.rd F.DB_RING_PRODUCED f k = 0 ∧ b.rd F.DB_RING_CONS f k = 0)) ∧
    (serving s.blk f = true → cmdOn = true → s.blk.rd F.DB_CMD_PROD f ≠ n → ringRoom s.blk f 1 = true →
      s.blk.hif.comps.get [] f = [] → cmdsOf s.blk f = [] → bytes.length = 64 → s.blk.rd F.GLB_PWR_STATE ≠ 1 →
      Completes (.descriptorFetch f bytes) s fun b => b.rd F.DB_CMD_CONSUMED f = (n + 1) % 2 ^ 32 ∧
        Keeps [F.DB_CMD_CONSUMED.key f 0] s.blk b ∧
        (c.opc < 9 → cmdsOf b f = [c] ∧ Follows b 0 (startInstr f c)) ∧ (9 ≤ c.opc → CmdEnds f n c 4 0 b)) ∧
    ((serving s.blk f = false ∨ cmdOn = false ∨ s.blk.rd F.DB_CMD_PROD f = n ∨ ringRoom s.blk f 1 = false) →
      Completes (.descriptorFetch f bytes) s fun b => b = s.blk) ∧
    (∀ x t, s.blk.hif.comps.get [] f = x :: t → ringRoom s.blk f 1 = true →
      Completes (.completionWrite f) s fun b => b.hif.comps.get [] f = t ∧
        Out.ring f 1 (ringProduced s.blk f 1) (entryAddr s.blk f 1 (ringProduced s.blk f 1))
          (x ++ [BitVec.ofNat 8 (128 * phaseBit (ringProduced s.blk f 1) (ringSize s.blk f 1))]) ∈ b.out ∧
        ringProduced b f 1 = (ringProduced s.blk f 1 + 1) % 2 ^ 32) ∧
    ((s.blk.hif.comps.get [] f = [] ∨ ringRoom s.blk f 1 = false) →
      Completes (.completionWrite f) s fun b => b = s.blk)

/-- R460, R461, R463: each descriptor is checked in the order of its rule and completes with the status of the first
check it fails; a move waits for its data and then writes or reads exactly its range; RUN, SETPARAM, BIASSET and
STOP act on resources of their function alone; FENCE waits for what comes before it. -/
def Obligations.DescriptorsAreCheckedAndRun : Prop :=
  ∀ (f : Func) (idx : Nat) (data : List Byte) (s : State) (c : Cmd),
    let at_ (op : Nat) : Prop := AtCmd s.blk f idx op c
    let k := c.modoff % 16
    let foreign := c.seqs.any (fun q => s.blk.seqOwner q != f) = true
    let fresh := c.status = 0 ∧ c.detail = 0
    let room := (∀ t < 2, (s.blk.queueOf t).length + 64 ≤ 512) ∧ (s.blk.queueOf 2).length + 64 ≤ 64
    let ts := ([16, 32, 48].filter (fun i => bit (c.le i 4) 31)).map
      (fun i => (paramTarget s.blk f (c.le i 4 % 2 ^ 31), c.le (i + 8) 8))
    let msgs := ts.flatMap (fun t => match t.1 with
      | some x => paramMsgs s.blk 0 f c.deadline (some (f, idx)) x.1 x.2 t.2 | none => [])
    let e := c.le 16 1
    (∀ op x, (op, x) ∈ ([(0, .cmdNop f idx), (1, .load f idx), (2, .readback f idx), (3, .run f idx),
        (4, .setparam f idx), (5, .fence f idx), (6, .descCaptureArm f idx), (7, .biasset f idx),
        (8, .stop f idx)] : List (Nat × Instr)) →
      (serving s.blk f = true → cmdAt s.blk f idx = some c → c.opc = op → s.blk.verdicts = [] →
        (startable (cmdsOf s.blk f)).any (fun y => y.idx == idx) = true → c.clean = false →
        Completes x s (CmdEnds f idx c 5 0)) ∧
      (cmdAt s.blk f idx = none → Completes x s fun b => b = s.blk)) ∧
    (at_ 0 → Completes (.cmdNop f idx) s (CmdEnds f idx c 0 0)) ∧
    (at_ 1 → 2 ≤ c.kind → Completes (.load f idx) s (CmdEnds f idx c 4 0)) ∧
    (at_ 1 → c.kind = 0 →
      (moveRange s.blk f c = false → Completes (.load f idx) s (CmdEnds f idx c 7 0)) ∧
      (moveRange s.blk f c = true → pgmBusy s.blk c.modoff = true → Completes (.load f idx) s (CmdEnds f idx c 8 0)) ∧
      (moveRange s.blk f c = true → pgmBusy s.blk c.modoff = false → Completes (.load f idx) s (CmdWaits f idx c))) ∧
    (at_ 1 → c.kind = 1 → f ≠ 0 → s.blk.owner (48 + k) ≠ f → Completes (.load f idx) s (CmdEnds f idx c 6 0)) ∧
    (at_ 1 → c.kind = 1 → s.blk.owner (48 + k) = f → Completes (.load f idx) s (CmdWaits f idx c)) ∧
    (at_ 2 → c.kind ≠ 0 → Completes (.readback f idx) s (CmdEnds f idx c 4 0)) ∧
    (at_ 2 → c.kind = 0 → moveRange s.blk f c = false → Completes (.readback f idx) s (CmdEnds f idx c 7 0)) ∧
    (at_ 2 → c.kind = 0 → moveRange s.blk f c = true → Completes (.readback f idx) s (CmdWaits f idx c)) ∧
    (at_ 3 → foreign → Completes (.run f idx) s (CmdEnds f idx c 6 0)) ∧
    (at_ 3 → ¬ foreign → c.deadline = none → fresh → room →
      Completes (.run f idx) s fun b => CmdEnds f idx c 0 0 b ∧
        ∀ q ∈ c.seqs, ∃ x ∈ b.queueOf (seqTile q), x.due = granule (s.blk.now + 1) ∧
          x.msg.target = .start (Fin.ofNat 64 q) (c.le 28 2 % 4096) (c.le 24 4)) ∧
    (at_ 4 → (∃ t ∈ ts, t.1 = none) → Completes (.setparam f idx) s (CmdEnds f idx c 10 0)) ∧
    (at_ 4 → (∀ t ∈ ts, t.1 ≠ none) → c.deadline = none → fresh → c.idx = idx →
      (∀ t < 3, (s.blk.queueOf t).length + msgs.length ≤ dlCap t) →
      Completes (.setparam f idx) s fun b => CmdEnds f idx c 0 0 b ∧
        ∀ x ∈ msgs, ∃ y ∈ b.queueOf x.isl, y.msg = x) ∧
    (at_ 5 → fenceReady s.blk f c = true → Completes (.fence f idx) s (CmdEnds f idx c 0 0)) ∧
    (at_ 5 → fenceReady s.blk f c = false → Completes (.fence f idx) s (CmdWaits f idx c)) ∧
    (cmdAt s.blk f idx = some c → c.opc = 5 → c.started = true → fenceReady s.blk f c = true →
      Completes (.fenceComplete f idx) s (CmdEnds f idx c 0 0)) ∧
    (cmdAt s.blk f idx = some c → fenceReady s.blk f c = false → Completes (.fenceComplete f idx) s fun b => b = s.blk) ∧
    (at_ 6 → (16 ≤ e ∨ s.blk.owner (144 + e) ≠ f) → Completes (.descCaptureArm f idx) s (CmdEnds f idx c 6 0)) ∧
    (at_ 6 → e < 16 → s.blk.owner (144 + e) = f → Completes (.descCaptureArm f idx) s fun b =>
      (b.rd F.TRG_CSTAT_STATUS e = 0 → CmdEnds f idx c 0 0 b) ∧
      (b.rd F.TRG_CSTAT_STATUS e ≠ 0 → CmdEnds f idx c 11 (b.rd F.TRG_CSTAT_STATUS e) b) ∧
      (capIdle s.blk e = true → b.rd F.TRG_CBUF_NPAGE e = field (c.le 32 8) F.TRG_CBUF_NPAGE.lsb F.TRG_CBUF_NPAGE.wid ∧
        (b.rd F.TRG_CSTAT_STATUS e = 0 → b.capState e = 1))) ∧
    (at_ 7 → (∃ x ∈ c.biases, s.blk.owner (80 + x.1) ≠ f) → Completes (.biasset f idx) s (CmdEnds f idx c 6 0)) ∧
    (at_ 7 → (∀ x ∈ c.biases, s.blk.owner (80 + x.1) = f) → Completes (.biasset f idx) s fun b =>
      CmdEnds f idx c 0 0 b ∧ ∀ x, c.biases = [x] → ∀ y, b.get y = (biaCodeWrite x.1 x.2 s.blk).get y) ∧
    (at_ 8 → foreign → Completes (.stop f idx) s (CmdEnds f idx c 6 0)) ∧
    (at_ 8 → ¬ foreign → (∀ q ∈ c.seqs, s.blk.seqState q = 0) → Completes (.stop f idx) s (CmdEnds f idx c 0 0)) ∧
    (at_ 8 → ¬ foreign → (∃ q ∈ c.seqs, s.blk.seqState q = 2) → Completes (.stop f idx) s fun b =>
      CmdWaits f idx c b ∧ ∀ q ∈ c.seqs, s.blk.seqState q = 2 → (b.seq q).stopAt.isSome = true) ∧
    (cmdAt s.blk f idx = some c → c.opc = 1 → c.kind = 1 → c.started = true → c.left = 0 → moveHeld s.blk c = none →
      ((List.range 32).any (slotBytesBad data) = true →
        Completes (.loadAcqConfig f idx data) s (CmdEnds f idx c 5 0)) ∧
      ((List.range 32).any (slotBytesBad data) = false →
        (s.blk.rd F.ACQ_CFG_CTRL_STATUS k = 1 →
          Completes (.loadAcqConfig f idx data) s fun b => Follows b 1 (.loadAcqConfig f idx data) ∧ Keeps [] s.blk b) ∧
        (s.blk.rd F.ACQ_CFG_CTRL_STATUS k ≠ 1 → c.idx = idx →
          Completes (.loadAcqConfig f idx data) s fun b => cmdAt b f idx = some { c with left := 1 } ∧
            b.rd F.ACQ_CFG_CTRL_STATUS k = 1 ∧ (b.acq k).cfgCmd = some (f.val, idx) ∧
            ∃ d, d ≤ 25 ∧ Follows b d (.acqCfgCheckDone (Fin.ofNat 16 k))))) ∧
    (cmdAt s.blk f idx = some c → c.started = true → moveHeld s.blk c = none →
      (c.opc = 1 → c.kind = 0 → data.length = c.length → 0 < c.length → storeAt s.blk c.modoff ≠ .none →
        sweeping s.blk c.modoff = false → pgmBusy s.blk c.modoff = false → s.mem.poison = [] →
        CompletesMem (.dmaComplete f idx true data) s fun b m => CmdEnds f idx c 0 c.length b ∧
          ∀ y, m.byte y = if c.modoff ≤ y ∧ y < c.modoff + c.length then data.getD (y - c.modoff) 0 else s.mem.byte y) ∧
      (c.opc = 1 → c.kind = 1 → c.left = 0 →
        CompletesMem (.dmaComplete f idx false data) s fun b m => m = s.mem ∧
          CmdEnds f idx c 12 (min data.length c.length) b ∧ b.rd F.HIF_FSTAT_DMA_ERR f = 1) ∧
      (c.opc = 2 → CompletesMem (.dmaComplete f idx true data) s fun b m => m = s.mem ∧
        .dmaWrite (c.le 16 8) (readbackBytes s.blk s.mem c.modoff c.length) ∈ b.out ∧
        (poisonIn s.mem c.modoff c.length = [] → CmdEnds f idx c 0 c.length b) ∧
        (∀ o r, poisonIn s.mem c.modoff c.length = o :: r → CmdEnds f idx c 13 o b)) ∧
      (c.opc ≠ 1 → c.opc ≠ 2 → CompletesMem (.dmaComplete f idx true data) s fun b m => b = s.blk ∧ m = s.mem))

/-- R427, R445, R451 to R453, R468, R469, R565: ownership changes only while the resource is idle and no descriptor
targets it, and its memory is swept; a partition that overlaps or is too large is refused; a function disabled
flushes; its reset takes what it holds, and waits for a region under recovery. -/
def Obligations.FunctionsOwnAndFlush : Prop :=
  ∀ (f : Func) (w : Fin 14) (j : Fin 16) (v : Nat) (n : Fin 16) (s : State),
    let r := 16 * w.val + j.val
    let nv := field v (4 * j.val) 4
    let alone := ∀ x < 16, x ≠ j.val → s.blk.owner (16 * w.val + x) = field v (4 * x) 4
    let free := resIdle s.blk r = true ∧ resTargeted s.blk r = false
    let spart (b : Blk) := (b.rd F.HIF_SPART_BASE f, b.rd F.HIF_SPART_SIZE f)
    let base := field v 0 F.HIF_SPART_BASE.wid
    let size := field v 32 16
    let isOver := partOverlaps s.blk F.HIF_SPART_BASE F.HIF_SPART_SIZE f base size
    ((∀ x < 16, s.blk.owner (16 * w.val + x) = field v (4 * x) 4) →
      CompletesMem (.hifOwnWrite w v) s fun b m => b = s.blk ∧ m = s.mem) ∧
    (alone → s.blk.owner r ≠ nv → ¬ free →
      CompletesMem (.hifOwnWrite w v) s fun b m => m = s.mem ∧ b.rd F.HIF_GSTAT_OWN_REFUSED = 1 ∧
        b.rd F.HIF_GSTAT_OWN_IDX = r ∧ b.owner r = s.blk.owner r ∧
        OnlyRegs [F.HIF_GSTAT_OWN_REFUSED.key 0 0, F.HIF_GSTAT_OWN_IDX.key 0 0] s.blk b) ∧
    (alone → s.blk.owner r ≠ nv → free →
      CompletesMem (.hifOwnWrite w v) s fun b m => b.owner r = nv ∧
        (∀ x < 224, x ≠ r → b.owner x = s.blk.owner x) ∧
        (∀ x ∈ resStores s.blk r, ∀ a, x.1 ≤ a → a < x.1 + x.2 → m.byte a = 0) ∧
        (∀ a, (∀ x ∈ resStores s.blk r, a < x.1 ∨ x.1 + x.2 ≤ a) → m.byte a = s.mem.byte a)) ∧
    ((192 < base + size ∨ isOver = true) →
      CompletesMem (.partitionWrite false f v) s fun b m => m = s.mem ∧ b.rd F.HIF_GSTAT_OWN_REFUSED = 1 ∧
        OnlyRegs [F.HIF_GSTAT_OWN_REFUSED.key 0 0] s.blk b) ∧
    (base + size ≤ 192 → isOver = false → f ≠ 0 → isActive s.blk f = true →
      CompletesMem (.partitionWrite false f v) s fun b m => b = s.blk ∧ m = s.mem) ∧
    (base + size ≤ 192 → isOver = false → (f = 0 ∨ isActive s.blk f = false) →
      CompletesMem (.partitionWrite false f v) s fun b m => spart b = (base, size) ∧
        Keeps [F.HIF_SPART_BASE.key f 0, F.HIF_SPART_SIZE.key f 0] s.blk b ∧
        ∀ a, m.byte a = if inSpart s.blk f a 1 = true ∧ inSpart b f a 1 = false then 0 else s.mem.byte a) ∧
    (Completes (.functionEnable f (some n)) s fun b => b.hif.vfEn = true ∧ b.rd F.HIF_GSTAT_NUMVF = n ∧
      Keeps [F.HIF_GSTAT_NUMVF.key 0 0] s.blk b) ∧
    (Completes (.functionEnable f none) s fun b => b.rd F.HIF_FCTRL_EN f = 1 ∧
      OnlyRegs [F.HIF_FCTRL_EN.key f 0] s.blk b) ∧
    (f = 0 → Completes (.functionDisable f false) s fun b => b = s.blk) ∧
    (f ≠ 0 → isActive s.blk f = false →
      Completes (.functionDisable f false) s fun b => b.rd F.HIF_FCTRL_EN f = 0 ∧
        OnlyRegs [F.HIF_FCTRL_EN.key f 0] s.blk b) ∧
    (f ≠ 0 → isActive s.blk f = true →
      Completes (.functionDisable f false) s fun b => b.rd F.HIF_FCTRL_EN f = 0 ∧ b.rd F.HIF_FSTAT_FLUSHING f = 1 ∧
        cmdsOf b f = [] ∧ (∀ c ∈ cmdsOf s.blk f, compBytes c 2 0 ∈ b.hif.comps.get [] f) ∧
        (∀ q < 64, s.blk.seqOwner q = f → s.blk.seqState q = 2 → (b.seq q).stopAt.isSome = true) ∧
        Keeps [F.HIF_FCTRL_EN.key f 0, F.HIF_FSTAT_FLUSHING.key f 0] s.blk b) ∧
    (Completes (.functionDisable f true) s fun b => b.hif.vfEn = false ∧
      ∀ g < 16, g ≠ 0 → isActive s.blk g = true → b.rd F.HIF_FSTAT_FLUSHING g = 1 ∧ cmdsOf b g = []) ∧
    (s.blk.on F.HIF_FSTAT_FLUSHING f = true → flushDone s.blk f = true →
      Completes (.flushComplete f) s fun b => b.rd F.HIF_FSTAT_FLUSHING f = 0 ∧
        Keeps [F.HIF_FSTAT_FLUSHING.key f 0, msixPending.key f 0] s.blk b) ∧
    ((s.blk.on F.HIF_FSTAT_FLUSHING f = false ∨ flushDone s.blk f = false) →
      Completes (.flushComplete f) s fun b => b = s.blk) ∧
    (∀ g, flrHeld s.blk f = some g →
      CompletesMem (.functionLevelReset f) s fun b m => m = s.mem ∧
        (b.regRcv g).held = (s.blk.regRcv g).held ++ [.functionLevelReset f] ∧ Keeps [] s.blk b) ∧
    (flrHeld s.blk f = none → s.blk.rd F.GLB_PWR_STATE ≠ 1 →
      CompletesMem (.functionLevelReset f) s fun b m => cmdsOf b f = [] ∧ b.hif.comps.get [] f = [] ∧
        b.rd F.HIF_FSTAT_DISCARDS f =
          satAdd F.HIF_FSTAT_DISCARDS.wid (s.blk.rd F.HIF_FSTAT_DISCARDS f) (cmdsOf s.blk f).length ∧
        (∀ k < 6, b.rd F.HIF_RCFG_EN f k = 0 ∧ b.rd F.DB_RING_PRODUCED f k = 0) ∧
        (∀ x ∈ resOfFunc s.blk f, ∀ y ∈ resStores s.blk x, ∀ a, y.1 ≤ a → a < y.1 + y.2 → m.byte a = 0) ∧
        ∀ a, inSpart s.blk f a 1 = true → m.byte a = 0)

/-! ### Memory (R477 to R499) -/

/-- R479 to R495: the scrub counts a corrected word and marks one that cannot be corrected; a training run ends with
its count; TRAINED sweeps all of the DRAM, which is ready when no channel's read-back fails; a refresh and a
retraining stop their channel, which moves each delay by two steps at most and never more than eight from the value
written; a transfer fills a refill buffer in order; panic is entered once; self-refresh by channel. Of the
model's own: the sweep's rate (log 12), the two steps (log 46). -/
def Obligations.DramIsTrainedSweptAndServed : Prop :=
  ∀ (a errors v id fails : Nat) (found : Fin 3) (c : Fin 8) (eye : List Nat) (p : DacPort) (s : State),
    let st := (storeOf s.blk a).1
    let scrub := s.blk.rd F.MEM_DCTRL_SCRUB_H ≠ 0
    let trained := s.blk.on F.MEM_DCTRL_TRAINED
    let busy := s.blk.on F.MEM_TRAIN_BUSY
    let n := dramSize s.blk.is32
    let swept (m : Mem) : Prop := ∀ x, m.byte x = if dramBase ≤ x ∧ x < dramBase + n then 0 else s.mem.byte x
    let has := s.blk.ddr.sweeps.any (fun x => x.1 == id)
    let moved (dly act : Fld) (k i : Nat) := (retrainDelay (s.blk.rd dly c k) (s.blk.rd act c k) (eye.getD i 0)).1
    (¬ scrub → CompletesMem (.scrubWord a found) s fun b m => b = s.blk ∧ m = s.mem) ∧
    (scrub → s.mem.poisoned a = true → CompletesMem (.scrubWord a found) s fun b m => m = s.mem ∧
      b.rd F.MEM_ECC_POISON_COUNT st =
        satAdd F.MEM_ECC_POISON_COUNT.wid (s.blk.rd F.MEM_ECC_POISON_COUNT st) 1 ∧
      OnlyRegs [F.MEM_ECC_POISON_COUNT.key st 0] s.blk b) ∧
    (scrub → s.mem.poisoned a = false →
      (found = 0 → CompletesMem (.scrubWord a found) s fun b m => b = s.blk ∧ m = s.mem) ∧
      (found = 1 → CompletesMem (.scrubWord a found) s fun b m => m = s.mem ∧
        b.rd F.MEM_ECC_CORR_COUNT st = satAdd F.MEM_ECC_CORR_COUNT.wid (s.blk.rd F.MEM_ECC_CORR_COUNT st) 1 ∧
        Keeps [F.MEM_ECC_CORR_COUNT.key st 0] s.blk b ∧
        (s.blk.ddr.corrAt.find st = none → Follows b 0 (.eventPublish 992 s.blk.now st 0)) ∧
        (∀ t, s.blk.ddr.corrAt.find st = some t → s.blk.elapsed < t + 800 →
          OnlyRegs [F.MEM_ECC_CORR_COUNT.key st 0] s.blk b)) ∧
      (found = 2 → CompletesMem (.scrubWord a found) s fun b m => m.poisoned a = true ∧
        (∀ x, x / 8 ≠ a / 8 → m.poisoned x = s.mem.poisoned x) ∧
        b.rd F.MEM_ECC_POISON_COUNT st =
          satAdd F.MEM_ECC_POISON_COUNT.wid (s.blk.rd F.MEM_ECC_POISON_COUNT st) 1 ∧
        Follows b 0 (.eventPublish 993 s.blk.now st 0) ∧
        ((a < captBase ∨ scratchBase ≤ a) → SameBytes s.mem m))) ∧
    (busy = true → Completes (.memTrainRun v) s fun b => b = s.blk) ∧
    (busy = false → trained = true → Completes (.memTrainRun v) s fun b => b.rd F.MEM_DSTAT_DLY_REFUSED = 1 ∧
      OnlyRegs [F.MEM_DSTAT_DLY_REFUSED.key 0 0] s.blk b) ∧
    (busy = false → trained = false → bit v 31 = true → field v 0 3 < channels s.blk →
      Completes (.memTrainRun v) s fun b => b.rd F.MEM_TRAIN_BUSY = 1 ∧ (∃ e d, d ≤ 1600 ∧ Follows b d (.trainRunDone e)) ∧
        b.rd F.MEM_TRAIN_DLY = field v F.MEM_TRAIN_DLY.lsb F.MEM_TRAIN_DLY.wid ∧
        b.rd F.MEM_TRAIN_CH = field v F.MEM_TRAIN_CH.lsb F.MEM_TRAIN_CH.wid) ∧
    (busy = false → CompletesMem (.trainRunDone errors) s fun b m => b = s.blk ∧ m = s.mem) ∧
    (busy = true → s.blk.ddr.wait = false → CompletesMem (.trainRunDone errors) s fun b m => m = s.mem ∧
      b.rd F.MEM_TRAIN_BUSY = 0 ∧ b.rd F.MEM_TRAIN_ERRCNT = min errors 0xFFFF ∧
      OnlyRegs [F.MEM_TRAIN_BUSY.key 0 0, F.MEM_TRAIN_ERRCNT.key 0 0] s.blk b) ∧
    (busy = true → s.blk.ddr.wait = true → CompletesMem (.trainRunDone errors) s fun b m => swept m ∧
      b.rd F.MEM_TRAIN_BUSY = 0 ∧ b.rd F.MEM_DSTAT_SWEEP_BUSY = 1 ∧ b.ddr.wait = false) ∧
    (trained = true → CompletesMem .trained s fun b m => b = s.blk ∧ m = s.mem) ∧
    (trained = false → busy = false → CompletesMem .trained s fun b m => swept m ∧ b.rd F.MEM_DCTRL_TRAINED = 1 ∧
      b.rd F.MEM_DSTAT_SWEEP_BUSY = 1 ∧ Follows b (n * 8000000 / 2 ^ 30) (.dramSweepComplete 255 0) ∧
      Keeps [F.MEM_DCTRL_TRAINED.key 0 0, F.MEM_DSTAT_SWEEP_BUSY.key 0 0] s.blk b) ∧
    (trained = false → busy = true → CompletesMem .trained s fun b m => m = s.mem ∧ b.rd F.MEM_DCTRL_TRAINED = 1 ∧
      b.ddr.wait = true) ∧
    (has = false → Completes (.dramSweepComplete id fails) s fun b => b = s.blk) ∧
    (has = true → id ≠ 255 → Completes (.dramSweepComplete id fails) s fun b => b.rd F.HIF_FSTAT_SWEEP id = 0 ∧
      Follows b 0 (.eventPublish 998 s.blk.now id 0) ∧
      Keeps [F.HIF_FSTAT_SWEEP.key id 0, F.MEM_DSTAT_SWEEP_BUSY.key 0 0] s.blk b) ∧
    (has = true → id = 255 → Completes (.dramSweepComplete id fails) s fun b =>
      Follows b 0 (.eventPublish 998 s.blk.now 255 0) ∧
      ((∀ x < channels s.blk, bit fails x = false) → b.rd F.MEM_DSTAT_DRAM_READY = 1) ∧
      (∀ x < channels s.blk, bit fails x = true → b.rd F.MEM_DSTAT_DRAM_READY = 0 ∧
        bit (b.rd F.MEM_DSTAT_TFAULT) x = true ∧ Follows b 0 (.eventPublish 997 s.blk.now x 0)) ∧
      Keeps [F.MEM_DSTAT_TFAULT.key 0 0, F.MEM_DSTAT_DRAM_READY.key 0 0, F.MEM_DSTAT_SWEEP_BUSY.key 0 0] s.blk b) ∧
    (Completes .sramSweepComplete s fun b => b.ddr.sram = false ∧ (∃ d, d ≤ 8000 ∧ Follows b d .vimgReady) ∧ Keeps [] s.blk b) ∧
    (c < channels s.blk → Completes (.dramRefresh c) s fun b =>
      b.ddr.block.get 0 c = s.blk.elapsed + 280 ∧ Keeps [] s.blk b) ∧
    (channels s.blk ≤ c → Completes (.dramRefresh c) s fun b => b = s.blk) ∧
    ((s.blk.is32 = false ∨ trained = false) → Completes (.dramRetrain c eye) s fun b => b = s.blk) ∧
    (s.blk.is32 = true → trained = true → Completes (.dramRetrain c eye) s fun b =>
      (∀ k < 4, b.rd F.MEM_DDLY_RD_ACT c k =
          moved F.MEM_DDLY_RD_DLY F.MEM_DDLY_RD_ACT k k % 2 ^ F.MEM_DDLY_RD_ACT.wid ∧
        b.rd F.MEM_DDLY_WR_ACT c k =
          moved F.MEM_DDLY_WR_DLY F.MEM_DDLY_WR_ACT k (4 + k) % 2 ^ F.MEM_DDLY_WR_ACT.wid) ∧
      b.rd F.MEM_DSTAT_RETRAINS = (s.blk.rd F.MEM_DSTAT_RETRAINS + 1) % 2 ^ F.MEM_DSTAT_RETRAINS.wid ∧
      b.ddr.block.get 0 c = s.blk.elapsed + 400) ∧
    ((islBusy s.blk 1 = true ∨ refillPort s.blk = none) → Completes .refillTransfer s fun b => b = s.blk) ∧
    (∀ q d, islBusy s.blk 1 = false → refillPort s.blk = some q → fetching s.blk q = some d →
      (s.blk.port q).dropBytes = 0 → (d.denied = true ∨ s.mem.poison = []) →
      Completes .refillTransfer s fun b => (b.port q).rbuf = (s.blk.port q).rbuf ++
          (if d.denied then List.replicate (min 64 (d.size - d.got)) 0
           else s.mem.bytes (dramBase + d.addr + d.got) (min 64 (d.size - d.got))) ∧
        b.ddr.last = q ∧ Keeps [] s.blk b) ∧
    (panicking s.blk p = true → s.blk.on F.MEM_PANIC_PANIC p = false → Completes (.panicEnter p) s fun b =>
      b.rd F.MEM_PANIC_PANIC p = 1 ∧ Follows b 0 (.eventPublish 994 s.blk.now (0x90 + p) 0) ∧
        OnlyRegs [F.MEM_PANIC_PANIC.key p 0] s.blk b) ∧
    ((panicking s.blk p = false ∨ s.blk.on F.MEM_PANIC_PANIC p = true) →
      Completes (.panicEnter p) s fun b => b = s.blk) ∧
    (s.blk.rd F.GLB_PWR_STATE = 1 → c < channels s.blk → Completes (.selfRefreshEntry c) s fun b =>
      c.val ∈ b.ddr.selfRef ∧ Keeps [F.MEM_DSTAT_SELF_REFRESH.key 0 0] s.blk b) ∧
    (s.blk.rd F.GLB_PWR_STATE ≠ 1 → Completes (.selfRefreshEntry c) s fun b => b = s.blk) ∧
    (Completes (.selfRefreshExit c) s fun b => c.val ∉ b.ddr.selfRef ∧
      (c < channels s.blk → b.rd F.MEM_DSTAT_SELF_REFRESH = 0) ∧ Keeps [F.MEM_DSTAT_SELF_REFRESH.key 0 0] s.blk b)

/-! ### Habor links (R501 to R517) -/

/-- R503, R504, R507, R512 to R516: a port that is enabled trains or is raw, goes on to SYNCED or FREE, locks at a frame
start when every condition holds, and trains anew when a lane is lost; raw lanes slip, lock and count; packets go
whole between a port and its buffers, a parameter packet to the deadline queues. -/
def Obligations.LinkStatesAndPackets : Prop :=
  ∀ (p : HabPort) (lane : Fin 2) (v sid d0 d1 : Nat) (data : List Byte) (s : State),
    let st := s.blk.lnkState p
    let mode := s.blk.rd F.LNK_PCFG_MODE p
    let en := s.blk.on F.LNK_PCFG_EN p
    let state := F.LNK_PSTAT_STATE.key p 0
    let lock := F.LNK_LANE_BLOCK_LOCK.key p lane
    let both := [F.LNK_LANE_BLOCK_LOCK.key p 0, F.LNK_LANE_BLOCK_LOCK.key p 1]
    let c := s.blk.rd F.LNK_FPTR_CONS p 0
    let hdr := 8 + 8 * (field (leNat (bufRead s.blk s.mem p 0 c 8).1) 16 12 + 1)
    let len := data.length / 8
    let at_ := bufAddr s.blk p 1 (s.blk.rd F.LNK_FPTR_PROD p 1)
    let image := leBytes 8 (sid % 256 + (len - 1) * 65536) ++ data.take (8 * len)
    let param := s.blk.on F.LNK_PCFG_RXPARAM_EN p = true ∧ sid % 256 = 255 ∧ len = 2
    let drop (b : Blk) : Prop := b.rd F.LNK_CNT_RX_DROP p =
      satAdd F.LNK_CNT_RX_DROP.wid (s.blk.rd F.LNK_CNT_RX_DROP p) 1 ∧ OnlyRegs [F.LNK_CNT_RX_DROP.key p 0] s.blk b
    let denied (b : Blk) : Prop := b.rd F.HIF_FSTAT_DRAM_DENIED = 1 ∧
      OnlyRegs [F.HIF_FSTAT_DRAM_DENIED.key 0 0] s.blk b
    (st = 0 → en = true → Completes (.haborPortEnable p) s fun b => b.lnkState p = (if mode = 2 then 5 else 1) ∧
      OnlyRegs [state] s.blk b) ∧
    ((st ≠ 0 ∨ en = false) → Completes (.haborPortEnable p) s fun b => b = s.blk) ∧
    (st = 1 → Completes (.trainingDone p) s fun b => b.lnkState p = (if mode = 0 then 2 else 4) ∧
      (∀ l < 2, b.rd F.LNK_LANE_BLOCK_LOCK p l = 1) ∧ OnlyRegs (state :: both) s.blk b) ∧
    (st ≠ 1 → Completes (.trainingDone p) s fun b => b = s.blk) ∧
    (st = 2 → s.blk.now % 33 = 0 →
      (lockConds s.blk p = true → ltOk s.blk p = true → fomOk s.blk p = true →
        Completes (.lockedEntry p) s fun b => b.lnkState p = 3 ∧ Keeps [state] s.blk b ∧
          Follows b 0 (.eventPublish (Fin.ofNat 1024 (944 + 4 * p)) s.blk.now 0 0)) ∧
      (ltOk s.blk p = false → Completes (.lockedEntry p) s fun b => b.lnkState p = 2 ∧
        b.rd F.LNK_PSTAT_LT_SHORT p = 1 ∧ OnlyRegs [F.LNK_PSTAT_LT_SHORT.key p 0] s.blk b) ∧
      (ltOk s.blk p = true → (lockConds s.blk p = false ∨ fomOk s.blk p = false) →
        Completes (.lockedEntry p) s fun b => b = s.blk)) ∧
    ((st ≠ 2 ∨ s.blk.now % 33 ≠ 0) → Completes (.lockedEntry p) s fun b => b = s.blk) ∧
    ((st = 2 ∨ st = 3 ∨ st = 4) → Completes (.laneLost p lane) s fun b => b.lnkState p = 1 ∧
      b.rd F.LNK_LANE_BLOCK_LOCK p lane = 0 ∧
      Follows b 0 (.eventPublish (Fin.ofNat 1024 (945 + 4 * p)) s.blk.now (2 ^ lane.val) 0) ∧
      (b.link p).exchQ = [] ∧ (st = 3 → (b.link p).tallyQ = []) ∧ (st ≠ 3 → Keeps [state, lock] s.blk b)) ∧
    ((st = 0 ∨ st = 1 ∨ st = 5) → Completes (.laneLost p lane) s fun b => b.lnkState p = st ∧
      b.rd F.LNK_LANE_BLOCK_LOCK p lane = 0 ∧ OnlyRegs [lock] s.blk b) ∧
    (st = 5 →
      (Completes (.slip p lane) s fun b => b.rd F.LNK_LANE_SLIPS p lane =
          (s.blk.rd F.LNK_LANE_SLIPS p lane + 1) % 256 ∧ b.rd F.LNK_LANE_BLOCK_LOCK p lane = 0 ∧
        OnlyRegs [lock, F.LNK_LANE_SLIPS.key p lane] s.blk b) ∧
      (Completes (.blockLock p lane) s fun b => b.rd F.LNK_LANE_BLOCK_LOCK p lane = 1 ∧ OnlyRegs [lock] s.blk b) ∧
      (s.blk.on F.LNK_PCFG_RAWPAT p = false → Completes (.prbsError p lane) s fun b =>
        b.rd F.LNK_LANE_PRBS_ERR p lane = 1 ∧ OnlyRegs [F.LNK_LANE_PRBS_ERR.key p lane] s.blk b)) ∧
    (st ≠ 5 → ∀ x ∈ ([.slip p lane, .blockLock p lane, .prbsError p lane] : List Instr),
      Completes x s fun b => b = s.blk) ∧
    (en = true → Completes (.fomUpdate p lane v) s fun b => b.rd F.LNK_LANE_FOM p lane = v % 256 ∧
      OnlyRegs [F.LNK_LANE_FOM.key p lane] s.blk b) ∧
    (en = false → Completes (.fomUpdate p lane v) s fun b => b = s.blk) ∧
    ((st ≠ 4 ∨ bufUsed s.blk p 0 < 8) → Completes (.packetSend p) s fun b => b = s.blk) ∧
    (st = 4 → 8 ≤ bufUsed s.blk p 0 →
      (bufOk s.blk p 0 = false → Completes (.packetSend p) s denied) ∧
      (bufOk s.blk p 0 = true → bufUsed s.blk p 0 < hdr → Completes (.packetSend p) s fun b => b = s.blk) ∧
      (bufOk s.blk p 0 = true → hdr ≤ bufUsed s.blk p 0 → Completes (.packetSend p) s fun b =>
        Out.packet p (bufRead s.blk s.mem p 0 c hdr).1 ∈ b.out ∧ b.rd F.LNK_FPTR_CONS p 0 = (c + hdr) % 2 ^ 32)) ∧
    ((st ≠ 4 ∨ len = 0 ∨ 4096 < len) →
      CompletesMem (.packetReceive p sid data true) s fun b m => b = s.blk ∧ m = s.mem) ∧
    (st = 4 → 1 ≤ len → len ≤ 4096 →
      (CompletesMem (.packetReceive p sid data false) s fun b m => m = s.mem ∧ drop b) ∧
      (param → CompletesMem (.packetReceive p sid data true) s fun b m => m = s.mem ∧ Keeps [] s.blk b ∧
        Follows b 0 (.parameterPacket p (leNat (data.take 8)) (leNat (data.drop 8)))) ∧
      (¬ param → bufOk s.blk p 1 = false →
        CompletesMem (.packetReceive p sid data true) s fun b m => m = s.mem ∧ denied b) ∧
      (¬ param → bufOk s.blk p 1 = true → bufSize s.blk p 1 < bufUsed s.blk p 1 + 8 + 8 * len →
        CompletesMem (.packetReceive p sid data true) s fun b m => m = s.mem ∧ drop b) ∧
      (¬ param → bufOk s.blk p 1 = true → bufUsed s.blk p 1 + 8 + 8 * len ≤ bufSize s.blk p 1 → s.mem.poison = [] →
        s.blk.rd F.LNK_FPTR_PROD p 1 % bufSize s.blk p 1 + 8 + 8 * len ≤ bufSize s.blk p 1 →
        CompletesMem (.packetReceive p sid data true) s fun b m =>
          b.rd F.LNK_FPTR_PROD p 1 = (s.blk.rd F.LNK_FPTR_PROD p 1 + 8 + 8 * len) % 2 ^ 32 ∧
          Keeps [F.LNK_FPTR_PROD.key p 1] s.blk b ∧
          ∀ y, m.byte y = if at_ ≤ y ∧ y < at_ + 8 + 8 * len then image.getD (y - at_) 0 else s.mem.byte y)) ∧
    ((st ≠ 4 ∨ s.blk.on F.LNK_PCFG_RXPARAM_EN p = false) →
      Completes (.parameterPacket p d0 d1) s fun b => b = s.blk) ∧
    (st = 4 → s.blk.on F.LNK_PCFG_RXPARAM_EN p = true →
      (paramTarget s.blk 0 (d1 % 2 ^ 24) = none → Completes (.parameterPacket p d0 d1) s fun b =>
        b.rd F.LNK_CNT_PARAM_REF p = satAdd F.LNK_CNT_PARAM_REF.wid (s.blk.rd F.LNK_CNT_PARAM_REF p) 1 ∧
        OnlyRegs [F.LNK_CNT_PARAM_REF.key p 0] s.blk b) ∧
      (∀ x, paramTarget s.blk 0 (d1 % 2 ^ 24) = some x → d0 % 2 ^ 48 = 2 ^ 48 - 1 →
        (∀ t < 3, (s.blk.queueOf t).length + 8 ≤ dlCap t) →
        Completes (.parameterPacket p d0 d1) s fun b =>
          ∀ y ∈ (paramMsgs s.blk 5 p none none x.1 x.2 (field d1 32 32)).take 8, ∃ e ∈ b.queueOf y.isl, e.msg = y))

/-- R184, R502, R506 to R511: a block that fails its check is counted and announced; tallies are sent, kept for the
peers listed and forwarded; alignment carries the parity and the frame; the exchange asks, answers and sets OFS,
DELAY and XVALID, and a locked port whose exchange times out leaves locked mode. -/
def Obligations.LinkBlocksAreSentAndTaken : Prop :=
  ∀ (p : HabPort) (lane : Fin 2) (block parity t1 t2 t3 t4 : Nat) (ok : Bool) (s : State),
    let st := s.blk.lnkState p
    let timed := st = 2 ∨ st = 3
    let kind := field block 60 4
    let good := ok = true ∧ kind < 7
    let own := s.blk.rd F.LNK_GCFG_MODNUM
    let m := field block 54 6
    let sw := 2 * field block 52 2 + field block 51 1
    let n := ((s.blk.link p).seq + 1) % 2 ^ 16
    let pm := field block 52 6
    let peer := [F.LNK_PSTAT_PEER_MOD.key p 0, F.LNK_PSTAT_MODNUM_CLASH.key p 0]
    (¬ good → ∀ c ∈ ([.tallyReceive p lane block ok, .alignReceive p lane block ok parity,
        .exchangeRequestReceive p lane block ok t2 t3, .exchangeAnswerReceive p lane block ok t4] : List Instr),
      Completes c s fun b =>
        b.rd F.LNK_CNT_CHK_ERR p = satAdd F.LNK_CNT_CHK_ERR.wid (s.blk.rd F.LNK_CNT_CHK_ERR p) 1 ∧
        OnlyRegs [F.LNK_CNT_CHK_ERR.key p 0] s.blk b ∧
        Follows b 0 (.eventPublish (Fin.ofNat 1024 (946 + 4 * p)) s.blk.now (lane + 16 * kind) 0)) ∧
    (st = 3 → (s.blk.link p).tallyQ = [] → 0 < binLen s.blk 0 → Completes (.tallySend p) s fun b =>
      (b.link p).tallyQ = (List.range 8).map (fun i => (s.blk.elapsed, tallyBlock s.blk (i / 2) (i % 2))) ∧
        Keeps [] s.blk b) ∧
    (st ≠ 3 → Completes (.tallySend p) s fun b => b = s.blk) ∧
    (good → st = 3 → kind = 2 → Completes (.tallyReceive p lane block ok) s fun b =>
      (bit (s.blk.rd F.LNK_PEERS_PEERS) m = true →
        b.gov.peers.find (8 * m + sw) = some (field block 0 46 * 2 ^ field block 46 5, s.blk.elapsed, p.val) ∧
        ∃ x y z, Follows b (tallyAge s.blk) (.peerTallyStale x y z) ∧ x.val = m ∧ y.val = field block 52 2 ∧
          z.val = field block 51 1) ∧
      (bit (s.blk.rd F.LNK_PEERS_PEERS) m = false → b.gov = s.blk.gov) ∧
      (∀ r < 4, r ≠ p.val → m ≠ own → bit (s.blk.act F.DSC_FWD_ORIGINS r) m = true → s.blk.lnkState r = 3 →
        (s.blk.elapsed, block) ∈ (b.link r).tallyQ) ∧
      Keeps [F.GOV_STATUS_POOL_FB.key 0 0] s.blk b) ∧
    (good → (st ≠ 3 ∨ kind ≠ 2) → Completes (.tallyReceive p lane block ok) s fun b => b = s.blk) ∧
    (timed → Completes (.alignSend p lane) s fun b => Keeps [] s.blk b ∧
      Out.habor p lane (3 * 2 ^ 60 + lane * 2 ^ 59 +
        (if lane.val = 0 then (s.blk.link p).bip.1 else (s.blk.link p).bip.2) * 2 ^ 48 +
        (s.blk.now - s.blk.now % 33) % 2 ^ 48) ∈ b.out ∧
      (if lane.val = 0 then (b.link p).bip.1 else (b.link p).bip.2) = 0) ∧
    (good → timed → kind = 3 →
      (field block 48 8 = parity % 256 → Completes (.alignReceive p lane block ok parity) s fun b => b = s.blk) ∧
      (field block 48 8 ≠ parity % 256 → Completes (.alignReceive p lane block ok parity) s fun b =>
        b.rd F.LNK_CNT_BIP_ERR p = satAdd F.LNK_CNT_BIP_ERR.wid (s.blk.rd F.LNK_CNT_BIP_ERR p) 1 ∧
        OnlyRegs [F.LNK_CNT_BIP_ERR.key p 0] s.blk b)) ∧
    (timed → Completes (.exchangeStart p t1) s fun b => (b.link p).seq = n ∧ (b.link p).t1 = some t1 ∧
      (b.link p).exchQ = (s.blk.link p).exchQ ++ [6 * 2 ^ 60 + own * 2 ^ 52 + n] ∧
      Follows b 4096 (.exchangeTimeout p) ∧ Keeps [] s.blk b) ∧
    (¬ timed → ∀ c ∈ ([.alignSend p lane, .exchangeStart p t1] : List Instr), Completes c s fun b => b = s.blk) ∧
    (good → st = 2 → kind = 6 →
      (field block 58 2 = 0 → Completes (.exchangeRequestReceive p lane block ok t2 t3) s fun b =>
        (b.link p).exchQ = (s.blk.link p).exchQ ++ [6 * 2 ^ 60 + 2 ^ 58 + own * 2 ^ 52 + t2 % 2 ^ 52,
          6 * 2 ^ 60 + 2 * 2 ^ 58 + field block 0 16 * 2 ^ 32 + (t3 + 2 ^ 52 - t2 % 2 ^ 52) % 2 ^ 32] ∧
        b.rd F.LNK_PSTAT_PEER_MOD p = pm ∧ (pm = own → b.rd F.LNK_PSTAT_MODNUM_CLASH p = 1) ∧ Keeps peer s.blk b) ∧
      (field block 58 2 = 1 → Completes (.exchangeAnswerReceive p lane block ok t4) s fun b =>
        (b.link p).ans = some (field block 0 52, t4) ∧ b.rd F.LNK_PSTAT_PEER_MOD p = pm ∧ Keeps peer s.blk b) ∧
      (∀ u1 u2 u4, field block 58 2 = 2 → field block 32 16 = (s.blk.link p).seq → (s.blk.link p).t1 = some u1 →
        (s.blk.link p).ans = some (u2, u4) → Completes (.exchangeAnswerReceive p lane block ok t4) s fun b =>
          b.rd F.LNK_XCH_OFS p = ofS 52 (xchOfs u1 u2 u4 (field block 0 32)) % 2 ^ F.LNK_XCH_OFS.wid ∧
          (0 ≤ xchDelay u1 u4 (field block 0 32) →
            b.rd F.LNK_XCH_DELAY p = min (xchDelay u1 u4 (field block 0 32)).toNat 4095) ∧
          b.rd F.LNK_PSTAT_XVALID p = 1 ∧ (ltMin b p < 256 → b.rd F.LNK_PSTAT_LT_MIN p = ltMin b p) ∧
          (b.link p).t1 = none ∧ b.lnkState p = 2) ∧
      (field block 58 2 = 2 → field block 32 16 ≠ (s.blk.link p).seq →
        Completes (.exchangeAnswerReceive p lane block ok t4) s fun b => b = s.blk)) ∧
    ((s.blk.link p).t1 = none → Completes (.exchangeTimeout p) s fun b => b = s.blk) ∧
    ((s.blk.link p).t1 ≠ none →
      (st ≠ 3 → Completes (.exchangeTimeout p) s fun b => b.rd F.LNK_PSTAT_XVALID p = 0 ∧ (b.link p).t1 = none ∧
        Keeps [F.LNK_PSTAT_XVALID.key p 0] s.blk b) ∧
      (st = 3 → Completes (.exchangeTimeout p) s fun b => b.rd F.LNK_PSTAT_XVALID p = 0 ∧ b.lnkState p = 2 ∧
        Follows b 0 (.eventPublish (Fin.ofNat 1024 (945 + 4 * p)) s.blk.now 4 0)))

/-! ### The NET port and the PTP clock (R518 to R526) -/

/-- R518 to R526: a link change is announced; a frame goes through the next descriptor the module owns, which is
returned with its length, flags and stamp, and is dropped or ends with ERR otherwise; the clock carries its seconds;
INCR outside its limits is refused, a step beyond the threshold held until ACCEPT; a pairing latches both times. -/
def Obligations.NetworkPortAndClock : Prop :=
  ∀ (up fcs : Bool) (frame : List Byte) (sub : Fin 16) (v : Nat) (s : State),
    let on := s.blk.on F.NET_CFG_EN = true ∧ s.blk.on F.NET_STAT_LINK = true
    let n := frame.length
    let rd := rxDesc s.blk
    let rxOn := on ∧ s.blk.on F.NET_RXQ_EN = true ∧ s.blk.net.rx.stopped = false ∧ inSpart0 s.blk rd 32 = true
    let rfl := scratchLe s.blk s.mem (rd + 6) 1
    let rbuf := scratchLe s.blk s.mem rd 4
    let room := n ≤ scratchLe s.blk s.mem (rd + 4) 2 ∧ inSpart0 s.blk rbuf n = true
    let ts := s.blk.on F.NET_CFG_RXTS_ALL || isEventMsg frame
    let q := stampNow s.blk sub true
    let td := txDesc s.blk
    let txOn := on ∧ s.blk.on F.NET_TXQ_EN = true ∧ s.blk.net.tx.stopped = false ∧ inSpart0 s.blk td 32 = true
    let tfl := scratchLe s.blk s.mem (td + 6) 1
    let tbuf := scratchLe s.blk s.mem td 4
    let tlen := scratchLe s.blk s.mem (td + 4) 2
    let fits := 64 ≤ tlen ∧ tlen ≤ 9216 ∧ inSpart0 s.blk tbuf tlen = true
    let dropped (b : Blk) : Prop := b.rd F.NET_STAT_RX_DROP =
      satAdd F.NET_STAT_RX_DROP.wid (s.blk.rd F.NET_STAT_RX_DROP) 1 ∧ Keeps [F.NET_STAT_RX_DROP.key 0 0] s.blk b
    let a := toS 64 v
    let ns := s.blk.rd F.NET_PTP_NS_NS
    let free := s.blk.on F.NET_STAT_UNSET = true ∨ a.natAbs ≤ s.blk.rd F.NET_PTP_CTRL_JUMP_THR
    let cnt := (s.blk.rd F.NET_PTP_CTRL2_PAIR_CNT + 1) % 2 ^ F.NET_PTP_CTRL2_PAIR_CNT.wid
    (s.blk.on F.NET_STAT_LINK = up → Completes (.netLinkChange up) s fun b => b = s.blk) ∧
    (s.blk.on F.NET_STAT_LINK ≠ up → Completes (.netLinkChange up) s fun b => b.on F.NET_STAT_LINK = up ∧
      Follows b 0 (.eventPublish 960 s.blk.now (b2n up) 0) ∧ OnlyRegs [F.NET_STAT_LINK.key 0 0] s.blk b) ∧
    (¬ on → (CompletesMem (.netFrameReceive frame fcs sub) s fun b m => b = s.blk ∧ m = s.mem) ∧
      CompletesMem (.netFrameTransmit sub) s fun b m => b = s.blk ∧ m = s.mem) ∧
    (on → (fcs = false ∨ ¬ rxOn) → CompletesMem (.netFrameReceive frame fcs sub) s fun b m => m = s.mem ∧ dropped b) ∧
    (rxOn → (bit rfl 0 = false → CompletesMem (.netFrameReceive frame true sub) s fun b m => m = s.mem ∧ dropped b ∧
        b.net.rx.stopped = true) ∧
      (bit rfl 0 = true → ¬ room → CompletesMem (.netFrameReceive frame true sub) s fun b m => m = s.mem ∧ dropped b) ∧
      (bit rfl 0 = true → room → s.mem.poison = [] →
        CompletesMem (.netFrameReceive frame true sub) s fun b m => b.net.rx.idx = s.blk.net.rx.idx + 1 ∧
          m.le (scratchBase + rd + 4) 2 = n ∧ m.byte (scratchBase + rd + 6) = BitVec.ofNat 8 (4 * b2n ts) ∧
          m.le (scratchBase + rd + 8) 8 = (if ts then stampSec q % 2 ^ 64 else 0) ∧
          (∀ i < n, rbuf + i < rd + 4 ∨ rd + 20 ≤ rbuf + i →
            m.byte (scratchBase + rbuf + i) = frame.getD i 0) ∧
          (∀ y, y < scratchBase + rbuf ∨ scratchBase + rbuf + n ≤ y →
            y < scratchBase + rd + 4 ∨ scratchBase + rd + 20 ≤ y → m.byte y = s.mem.byte y) ∧
          Keeps [] s.blk b)) ∧
    (on → ¬ txOn → CompletesMem (.netFrameTransmit sub) s fun b m => b = s.blk ∧ m = s.mem) ∧
    (txOn → (bit tfl 0 = false → CompletesMem (.netFrameTransmit sub) s fun b m => m = s.mem ∧
        b.net.tx.stopped = true ∧ Keeps [] s.blk b) ∧
      (bit tfl 0 = true → ¬ fits → s.mem.poison = [] → CompletesMem (.netFrameTransmit sub) s fun b m =>
        b.out = s.blk.out ∧ b.net.tx.idx = s.blk.net.tx.idx + 1 ∧
        ∀ y, m.byte y = if y = scratchBase + td + 6 then BitVec.ofNat 8 (orW 8 (tfl - 1) 4) else s.mem.byte y) ∧
      (bit tfl 0 = true → fits → s.mem.poison = [] → CompletesMem (.netFrameTransmit sub) s fun b m =>
        Out.frame (s.mem.bytes (scratchBase + tbuf) tlen) ∈ b.out ∧ b.net.tx.idx = s.blk.net.tx.idx + 1 ∧
        (bit tfl 1 = false → b.net.stamps = s.blk.net.stamps) ∧
        (bit tfl 1 = true → s.blk.net.stamps.length < 16 → ∃ x : TxStamp, b.net.stamps = s.blk.net.stamps ++ [x] ∧
          x.id = scratchLe s.blk s.mem (td + 8) 2 ∧ Follows b 0 (.eventPublish 961 s.blk.now x.id 0)) ∧
        (bit tfl 1 = true → 16 ≤ s.blk.net.stamps.length → b.net.stamps = s.blk.net.stamps ∧
          b.rd F.NET_STAT_TXTS_DROP =
            satAdd F.NET_STAT_TXTS_DROP.wid (s.blk.rd F.NET_STAT_TXTS_DROP) 1) ∧
        ∀ y, m.byte y = if y = scratchBase + td + 6 then BitVec.ofNat 8 (tfl - 1) else s.mem.byte y)) ∧
    (Completes .netDbTx s fun b => b = { s.blk with net := { s.blk.net with tx := { s.blk.net.tx with stopped := false } } }) ∧
    (Completes .netDbRx s fun b => b = { s.blk with net := { s.blk.net with rx := { s.blk.net.rx with stopped := false } } }) ∧
    (Completes .netTxts1Read s fun b => b.net.stamps = s.blk.net.stamps.tail ∧
      b.out = .readData 0 ((s.blk.net.stamps.head?.map (·.sec)).getD 0) :: s.blk.out ∧ Keeps [] s.blk b) ∧
    (ns < 10 ^ 9 → Completes .ptpSecondBoundary s fun b => b = s.blk) ∧
    (10 ^ 9 ≤ ns → Completes .ptpSecondBoundary s fun b => b.rd F.NET_PTP_NS_NS = ns - 10 ^ 9 ∧
      b.net.sec = (s.blk.net.sec + 1) % 2 ^ 64 ∧
      Follows b 0 (.eventPublish 965 s.blk.now ((s.blk.net.sec + 1) % 2 ^ 64 % 2 ^ 32) 0) ∧
      (s.blk.on F.NET_PTP_CTRL2_PAIR_AUTO = true → b.net.auto = true) ∧ Keeps [F.NET_PTP_NS_NS.key 0 0] s.blk b) ∧
    ((v % 2 ^ 40 < 0x03FF7CED91 ∨ 0x040083126F < v % 2 ^ 40) → Completes (.incrWrite v) s fun b =>
      b.rd F.NET_STAT_INCR_REFUSED = 1 ∧ OnlyRegs [F.NET_STAT_INCR_REFUSED.key 0 0] s.blk b) ∧
    (0x03FF7CED91 ≤ v % 2 ^ 40 → v % 2 ^ 40 ≤ 0x040083126F → Completes (.incrWrite v) s fun b =>
      b.rd F.NET_PTP_INCR_INCR = v % 2 ^ 40 ∧ b.act F.NET_PTP_INCR_INCR = s.blk.act F.NET_PTP_INCR_INCR ∧
        b.net.incr = some (v % 2 ^ 40) ∧ Keeps [F.NET_PTP_INCR_INCR.key 0 0] s.blk b) ∧
    (free → Completes (.adjWrite v) s fun b => b.net.step = some a ∧ b.net.held = none ∧
      b.rd F.NET_STAT_JUMP_PEND = 0 ∧ Keeps [F.NET_PTP_ADJ_ADJ.key 0 0, F.NET_STAT_JUMP_PEND.key 0 0] s.blk b) ∧
    (¬ free → Completes (.adjWrite v) s fun b => b.net.step = none ∧ b.net.held = some a ∧
      b.rd F.NET_STAT_JUMP_PEND = 1 ∧ Follows b 0 (.eventPublish 963 s.blk.now (v % 2 ^ 32) 0) ∧
      Keeps [F.NET_PTP_ADJ_ADJ.key 0 0, F.NET_STAT_JUMP_PEND.key 0 0] s.blk b) ∧
    (∀ x, s.blk.net.held = some x → Completes .accept s fun b =>
      b = { s.blk with net := { s.blk.net with step := some x } }) ∧
    (s.blk.net.held = none → Completes .accept s fun b => b = s.blk) ∧
    (Completes .pair s fun b => b = { s.blk with net := { s.blk.net with pair := true } }) ∧
    (pairTick s.blk = true → (s.blk.net.pair = true ∨ s.blk.net.auto = true) → Completes .pairing s fun b =>
      b.rd F.NET_PAIR_TICK_TICK = s.blk.now % 2 ^ 64 ∧ b.rd F.NET_PAIR_SEC_SEC = s.blk.net.sec % 2 ^ 64 ∧
        b.rd F.NET_PAIR_NS_NS = ns ∧ b.rd F.NET_PAIR_NS_FRAC = s.blk.rd F.NET_PTP_NS_FRAC ∧
        b.rd F.NET_PTP_CTRL2_PAIR_CNT = cnt ∧ b.net.pair = false ∧ b.net.auto = false ∧
        Follows b 0 (.eventPublish 964 s.blk.now cnt 0)) ∧
    ((pairTick s.blk = false ∨ (s.blk.net.pair = false ∧ s.blk.net.auto = false)) →
      Completes .pairing s fun b => b = s.blk)

/-! ### Self-calibration (R530 to R542) -/

/-- R531 to R542: a port cycle runs its phases in their times, hands over only at a handover instant, or forced and
counted; an ADC step stops its samples, the 32nd gives new coefficients for the next frame; starvation is reported
once; a modulator's calibration ends after 320 microseconds; a trim follows a measurement; RELOAD returns the
coefficients to factory values.  The coefficients themselves are free. -/
def Obligations.CalibrationRunsInItsPhases : Prop :=
  ∀ (r : Region) (k : AcqPort) (m : Fin 2) (c : BiasCh) (d : Int) (s : State),
    let ph := s.blk.phase r
    let fwd (b : Blk) (x : Nat) : Prop := b.phase r = x ∧ (b.rot r).due = s.blk.elapsed + phaseTicks x
    let dcoef (i : Nat) : List Key :=
      [F.CAL_DCOEF_GAIN.key i 0, F.CAL_DCOEF_OFFSET.key i 0, F.CAL_DCOEF_TSKEW.key i 0]
    let hand := F.CAL_ROT_HANDOVERS.key r 0
    let pk := F.CAL_ROT_PHASE.key r 0
    let count := (s.blk.rd F.CAL_ROT_HANDOVERS r + 1) % 2 ^ F.CAL_ROT_HANDOVERS.wid
    let a := s.blk.adcCal k
    let may := a.stop = none ∧ adcEnabled s.blk k = true ∧ s.blk.now % 4 = 0
    let x := s.blk.fmodCal m
    let trim := s.blk.on F.CAL_CTRL_BIAS_EN = true ∧ bit (s.blk.rd F.CAL_BIAS_AUTO) c = true ∧
      s.blk.rd F.BIA_STAT_STATE c = 2
    let t := s.blk.rdS F.BIA_ACT_TRIM_ACT c + rndShift d 8
    (cycleDue s.blk r = true → Completes (.portCycleStart r) s fun b => fwd b 6 ∧
      b.rd F.CAL_ROT_CUR r = (s.blk.rot r).nextP % 6 ∧ (b.rot r).startAt = some s.blk.elapsed ∧
      (b.rot r).nextP = ((s.blk.rot r).nextP + 1) % 6 ∧ Follows b 16000000 (.selfcalDone r) ∧
      Keeps [pk, F.CAL_ROT_CUR.key r 0] s.blk b) ∧
    (cycleDue s.blk r = false → Completes (.portCycleStart r) s fun b => b = s.blk) ∧
    (phaseOver s.blk r 6 = true → Completes (.selfcalDone r) s fun b => fwd b 1 ∧ Follows b 1600000 (.matchDone r) ∧
      Keeps (pk :: dcoef (48 + r.val)) s.blk b) ∧
    (phaseOver s.blk r 6 = false → Completes (.selfcalDone r) s fun b => b = s.blk) ∧
    (phaseOver s.blk r 1 = true → Completes (.matchDone r) s fun b => fwd b 2 ∧
      Keeps (pk :: dcoef (48 + r.val)) s.blk b) ∧
    (phaseOver s.blk r 4 = true → Completes (.matchDone r) s fun b => fwd b 5 ∧
      Keeps (pk :: dcoef (rotPort s.blk r)) s.blk b) ∧
    (phaseOver s.blk r 1 = false → phaseOver s.blk r 4 = false → Completes (.matchDone r) s fun b => b = s.blk) ∧
    (phaseOver s.blk r 3 = true → Completes (.calDone r) s fun b => fwd b 4 ∧ Follows b 1600000 (.matchDone r) ∧
      Keeps (pk :: dcoef (rotPort s.blk r)) s.blk b) ∧
    (phaseOver s.blk r 3 = false → Completes (.calDone r) s fun b => b = s.blk) ∧
    ((waiting s.blk r = false ∨ handoverInstant s.blk r = false) → Completes (.handover r) s fun b => b = s.blk) ∧
    (waiting s.blk r = true → handoverInstant s.blk r = true →
      (ph = 2 → Completes (.handover r) s fun b => fwd b 3 ∧ b.rd F.CAL_ROT_HANDOVERS r = count ∧
        Follows b 16000000 (.calDone r) ∧ Keeps [pk, hand] s.blk b) ∧
      (ph = 5 → Completes (.handover r) s fun b => b.phase r = 0 ∧ b.rd F.CAL_ROT_CUR r = 6 ∧
        b.rd F.CAL_ROT_HANDOVERS r = count ∧ OnlyRegs [pk, hand, F.CAL_ROT_CUR.key r 0] s.blk b)) ∧
    ((waiting s.blk r = false ∨ forcedInstant s.blk r = false) →
      Completes (.forcedHandover r) s fun b => b = s.blk) ∧
    (waiting s.blk r = true → forcedInstant s.blk r = true → Completes (.forcedHandover r) s fun b =>
      b.rd F.CAL_ROT_FORCED r = satAdd F.CAL_ROT_FORCED.wid (s.blk.rd F.CAL_ROT_FORCED r) 1 ∧
        b.rd F.CAL_ROT_HANDOVERS r = count ∧ b.phase r = (if ph = 2 then 3 else 0) ∧
        (b.port (rotPort s.blk r)).glitch = some s.blk.now ∧
        ((s.blk.seq (portSeq (rotPort s.blk r))).shot.live = true →
          bit (b.seq (portSeq (rotPort s.blk r))).shot.taint 4 = true)) ∧
    (¬ may → Completes (.adcCalStep k) s fun b => b = s.blk) ∧
    (may → crevStep s.blk k = true → Completes (.adcCalStep k) s fun b =>
      (b.adcCal k).stop = some (s.blk.elapsed + 1280) ∧ (b.adcCal k).forcing = false ∧ Keeps [] s.blk b) ∧
    (may → crevStep s.blk k = false → forceStep s.blk k = true → Completes (.adcCalStep k) s fun b =>
      (b.adcCal k).stop = some (s.blk.elapsed + 1280) ∧ (b.adcCal k).forcing = true ∧
        b.rd F.CAL_STATUS_FORCED = (if a.forced then s.blk.rd F.CAL_STATUS_FORCED
          else satAdd F.CAL_STATUS_FORCED.wid (s.blk.rd F.CAL_STATUS_FORCED) 1) ∧
        Keeps [F.CAL_STATUS_FORCED.key 0 0] s.blk b) ∧
    (may → crevStep s.blk k = false → forceStep s.blk k = false → Completes (.adcCalStep k) s fun b => b = s.blk) ∧
    (32 ≤ s.blk.rd F.CAL_ACTL_STEPS k → Completes (.adcCalComplete k) s fun b => (b.acq k).coef.isSome = true ∧
      b.rd F.CAL_ACTL_STEPS k = 0 ∧ (b.adcCal k).starved = false ∧ (b.adcCal k).since = s.blk.elapsed ∧
      Keeps [F.CAL_ACTL_STEPS.key k 0] s.blk b) ∧
    (s.blk.rd F.CAL_ACTL_STEPS k < 32 → Completes (.adcCalComplete k) s fun b => b = s.blk) ∧
    (a.starved = false → a.since + aperTicks s.blk ≤ s.blk.elapsed → Completes (.astarved k) s fun b =>
      bit (b.rd F.CAL_STATUS_ASTARVED) k = true ∧ (b.adcCal k).starved = true ∧
        Keeps [F.CAL_STATUS_ASTARVED.key 0 0] s.blk b) ∧
    ((a.starved = true ∨ s.blk.elapsed < a.since + aperTicks s.blk) →
      Completes (.astarved k) s fun b => b = s.blk) ∧
    (x.starved = false → x.since + fperTicks s.blk ≤ s.blk.elapsed → Completes (.fstarved m) s fun b =>
      bit (b.rd F.CAL_STATUS_FSTARVED) m = true ∧ (b.fmodCal m).starved = true ∧
        Keeps [F.CAL_STATUS_FSTARVED.key 0 0] s.blk b) ∧
    ((x.starved = true ∨ s.blk.elapsed < x.since + fperTicks s.blk) →
      Completes (.fstarved m) s fun b => b = s.blk) ∧
    (x.stop = none → s.blk.frn.cur.find m = none → s.blk.on F.CAL_CTRL_FMOD_EN = true →
      Completes (.fmodCal m) s fun b => (b.fmodCal m).stop = some (s.blk.elapsed + 256000) ∧
        Follows b 256000 (.fmodCal m) ∧ Keeps [F.CAL_STATUS_FORCED.key 0 0] s.blk b) ∧
    (∀ y, x.stop = some y →
      (s.blk.elapsed < y → Completes (.fmodCal m) s fun b => b = s.blk) ∧
      (y ≤ s.blk.elapsed → Completes (.fmodCal m) s fun b => (b.fmodCal m).stop = none ∧
        (b.fmodCal m).since = s.blk.elapsed ∧ (b.fmodCal m).starved = false)) ∧
    (trim → -32768 ≤ t → t ≤ 32767 → Completes (.biasTrimMeasure c d) s fun b =>
      b.rdS F.BIA_TRIM_TRIM c = t) ∧
    (¬ trim → Completes (.biasTrimMeasure c d) s fun b =>
      b.rd F.BIA_TRIM_TRIM c = s.blk.rd F.BIA_TRIM_TRIM c ∧
      (s.blk.frn.cur.find 1 ≠ some (runTrim, false) → b = s.blk)) ∧
    (Completes .calReload s fun b =>
      (∀ i < 16, ∀ f ∈ [F.CAL_ACOEF_GAIN, F.CAL_ACOEF_OFFSET, F.CAL_ACOEF_TSKEW],
        b.rd f i = resetOf s.blk.is32 (f.key i 0) % 2 ^ f.wid) ∧
      (∀ p < 48, b.rd F.CAL_GCAL_GCAL p = resetOf s.blk.is32 (F.CAL_GCAL_GCAL.key p 0) % 2 ^ F.CAL_GCAL_GCAL.wid) ∧
      ∀ i < 2, ∀ f ∈ [F.CAL_FMOD_GAIN, F.CAL_FMOD_OFFSET],
        b.rd f i = resetOf s.blk.is32 (f.key i 0) % 2 ^ f.wid)

/-! ### Faults and recovery (R548 to R565) -/

/-- R548 to R562: a fault is logged and contained to its regions, whose sequencers stop and whose PCs are recorded;
recovery takes 18,000 ticks from the fault, or from the relock of the tile's clock; the region is held when HOLD is
set or faults persist, else released at a granule boundary; RESUME starts every recorded sequencer at one tick; an
island recovers in 100 microseconds; the SAFE state is entered once. Readings: log 90 and 91; the full 100
microseconds are the model's choice (log 12). -/
def Obligations.FaultsAreContainedAndRecovered : Prop :=
  ∀ (cause index : Nat) (r : Region) (t : Fin 2) (k : Fin 5) (i : HabPort) (s : State),
    let nx := s.blk.rd F.RCV_LOGPTR_NEXT
    let x := s.blk.regRcv r
    let st := s.blk.rd F.RCV_RSTAT_STATE r
    let isOver := ∃ u, x.start = some u ∧ u + 18000 ≤ s.blk.elapsed
    let stays := s.blk.on F.RCV_RCTL_HOLD r = true ∨ persists s.blk r = true
    let leaves (b : Blk) : Prop := (b.regRcv r).go = true ∧
      Follows b (granule s.blk.now - s.blk.now) (.regionRelease r)
    let key := 8 * (k.val + 8) + i.val
    let safe (b : Blk) : Prop := b.pwr.safe = true ∧ b.rcv.safeOff = some (s.blk.elapsed + 80000)
    ((cause = 0 ∨ 14 < cause) → CompletesMem (.faultDetected cause index) s fun b m => b = s.blk ∧ m = s.mem) ∧
    (1 ≤ cause → cause ≤ 14 → CompletesMem (.faultDetected cause index) s fun b _ =>
      b.rd F.RCV_LOG_CAUSE nx = cause ∧ b.rd F.RCV_LOG_TICK nx = s.blk.now % 2 ^ 48 ∧
      b.rd F.RCV_LOG_INDEX nx = faultIndex cause index ∧ b.rd F.RCV_LOGPTR_NEXT = (nx + 1) % 16 ∧
      (∀ g ∈ faultRegions cause index, b.rd F.RCV_RSTAT_STATE g = 1 ∧
        (regionHeld s.blk g = false → bit (b.rd F.RCV_STATUS_CONTAINED) g = true ∧
          Follows b 0 (.eventPublish 1008 s.blk.now g 0) ∧
          ∀ q ∈ regionSeqs g, b.seqState q = 3 ∧ b.rd F.RCV_RESUME_PC q = (s.blk.seq q).pc % 2 ^ 12)) ∧
      (cause ≤ 3 → (s.blk.regRcv (index % 8)).never = false → (s.blk.regRcv (index % 8)).unlocked = false →
        Follows b 18000 (.regionRecoveryDone (Fin.ofNat 8 (index % 8)))) ∧
      (cause = 4 → Follows b 4000000 (.relockTimeout (Fin.ofNat 2 index))) ∧
      (cause = 6 → bit (b.rd F.RCV_STATUS_TILE_OFF) (index % 2) = true) ∧
      (cause = 7 → ∃ d, Follows b 0 (.eventPublish 1010 s.blk.now d 0)) ∧
      (8 ≤ cause → cause ≤ 12 → bit (b.rd F.RCV_STATUS_ISL_BUSY) (cause - 8) = true) ∧
      (cause = 13 → b.rd F.RCV_STATUS_TIMING = 1) ∧
      (cause = 14 → s.blk.pwr.off = false → b.pwr.safe = true)) ∧
    (x.unlocked = true → x.failed = false → x.never = false → r.val / 4 = t.val →
      Completes (.tileRelock t) s fun b => (b.regRcv r).unlocked = false ∧
        (b.regRcv r).start = some s.blk.elapsed ∧ b.rd F.RCV_RSTAT_STATE r = 1 ∧
        Follows b 18000 (.regionRecoveryDone r)) ∧
    ((∀ g ∈ tileRegions t, (s.blk.regRcv g).unlocked = false) → (Completes (.tileRelock t) s fun b => b = s.blk) ∧
      Completes (.relockTimeout t) s fun b => b = s.blk) ∧
    (∀ u l, x.unlocked = true → x.failed = false → x.times = u :: l → u + 4000000 ≤ s.blk.elapsed →
      r.val / 4 = t.val → Completes (.relockTimeout t) s fun b => b.rd F.RCV_RSTAT_STATE r = 3 ∧
        b.rd F.RCV_RSTAT_PERSIST r = 1 ∧ (b.regRcv r).failed = true) ∧
    (¬ isOver → Completes (.regionRecoveryDone r) s fun b => b = s.blk) ∧
    (isOver → Completes (.regionRecoveryDone r) s fun b =>
      b.rd F.RCV_STATUS_RECOVERIES = (s.blk.rd F.RCV_STATUS_RECOVERIES + 1) % 2 ^ F.RCV_STATUS_RECOVERIES.wid ∧
      (x.force = false → stays → b.rd F.RCV_RSTAT_STATE r = 3 ∧
        (persists s.blk r = true → b.rd F.RCV_RSTAT_PERSIST r = 1)) ∧
      ((x.force = true ∨ ¬ stays) → leaves b ∧ b.rd F.RCV_RSTAT_STATE r = st)) ∧
    ((x.go = false ∨ x.never = true ∨ s.blk.now % 4 ≠ 0) →
      Completes (.regionRelease r) s fun b => b = s.blk) ∧
    (x.go = true → x.never = false → s.blk.now % 4 = 0 → Completes (.regionRelease r) s fun b =>
      b.rd F.RCV_RSTAT_STATE r = 0 ∧ bit (b.rd F.RCV_STATUS_CONTAINED) r = false ∧
      (∀ q ∈ regionSeqs r, b.seqState q = if s.blk.actOn F.SEQ_CTRL_EN q then 1 else 0) ∧
      Follows b 0 (.eventPublish 1009 s.blk.now r 0) ∧ (b.regRcv r).held = [] ∧ ∀ c ∈ x.held, Follows b 0 c) ∧
    (st ≠ 0 → Completes (.resume r) s fun b => b = s.blk) ∧
    (st = 0 → Completes (.resume r) s fun b => ∀ q ∈ regionSeqs r, ∀ pc ls cs,
      (s.blk.seq q).resume = some (pc, ls, cs) → s.blk.on F.RCV_RESUME_VALID q = true →
      s.blk.actOn F.SEQ_CTRL_EN q = true → b.rd F.RCV_RESUME_VALID q = 0 ∧
        (s.blk.seqState q = 1 → (s.blk.seq q).pendStart = none → (s.blk.seq q).stopAt = none →
          (b.seq q).pendStart = some ⟨granule (s.blk.now + 2), some pc, none, false, some (ls, cs)⟩)) ∧
    ((st ≠ 3 ∨ x.never = true ∨ x.unlocked = true) → Completes (.rcvRelease r) s fun b => b = s.blk) ∧
    (st = 3 → x.never = false → x.unlocked = false →
      (x.failed = true → x.done = false → Completes (.rcvRelease r) s fun b =>
        (b.regRcv r).start = some s.blk.elapsed ∧ (b.regRcv r).force = true ∧ b.rd F.RCV_RSTAT_STATE r = 1 ∧
          Follows b 18000 (.regionRecoveryDone r)) ∧
      ((x.failed = false ∨ x.done = true) → Completes (.rcvRelease r) s fun b => leaves b ∧ Keeps [] s.blk b)) ∧
    ((∀ u, s.blk.rcv.isl.find key = some u → s.blk.elapsed < u) →
      Completes (.islandRecoveryDone k i) s fun b => b = s.blk) ∧
    (∀ u, s.blk.rcv.isl.find key = some u → u ≤ s.blk.elapsed → Completes (.islandRecoveryDone k i) s fun b =>
      b.rd F.RCV_STATUS_RECOVERIES = (s.blk.rd F.RCV_STATUS_RECOVERIES + 1) % 2 ^ F.RCV_STATUS_RECOVERIES.wid ∧
      Follows b 0 (.eventPublish 1011 s.blk.now 0 0) ∧
      (s.blk.rcv.isl.all (fun e => e.1 / 8 != k.val + 8 || e.1 == key) = true →
        bit (b.rd F.RCV_STATUS_ISL_BUSY) k = false) ∧
      (b.rd F.RCV_STATUS_ISL_BUSY = 0 → b.rcv.held = [] ∧ ∀ c ∈ s.blk.rcv.held, Follows b 0 c) ∧
      Keeps [F.RCV_STATUS_RECOVERIES.key 0 0, F.RCV_STATUS_ISL_BUSY.key 0 0] s.blk b) ∧
    ((s.blk.pwr.safe = true ∨ s.blk.pwr.off = true) → ∀ c ∈ ([.heartbeatTimeout, .undervoltageTrip] : List Instr),
      Completes c s fun b => b = s.blk) ∧
    (s.blk.pwr.safe = false → s.blk.pwr.off = false → (Completes .heartbeatTimeout s safe) ∧
      Completes .undervoltageTrip s safe)

/-! ### Supply, resets, power states and the life cycle (R570 to R586) -/

/-- R570 to R575: a warm reset returns every register to its reset value but those of the Firn island and of the life
cycle (the link's too, unless PERST_N caused it), loss of VIN all but the life cycle's; release clears the SRAM and
leaves the DRAM; a block reset takes 1,000 ticks, one at a time, the discriminators' only in an idle region. Readings:
log 84, 85 and 86. -/
def Obligations.SupplyAndResets : Prop :=
  ∀ (perst : Bool) (straps : Fin 64) (p : Fin 32) (pp : Fin 16) (k : AcqPort) (n : CoreNo) (e : Fin 16) (r : Region)
    (h : HabPort) (s : State),
    let keeps (x : Key) : Bool := firnReg x.reg || lcKey x
    let warm (b : Blk) (link : Bool) : Prop := b.pwr.off = true ∧ b.bias = s.blk.bias ∧
      b.mram = s.blk.mram ∧ b.elapsed = s.blk.elapsed ∧ b.seqs = Blk.reset.seqs ∧
      (∀ x, keeps x = false → (x.reg ≠ .hifLink ∨ link = false) → b.get x = resetOf s.blk.is32 x) ∧
      (∀ x, (lcKey x = true ∨ regPage x.reg = 0xC ∨ (x.reg = .hifLink ∧ link = true)) → b.get x = s.blk.get x)
    let lost := s.blk.pwr.vin = 2
    let blocked := s.blk.pwr.off = false ∨ s.blk.pwr.vin ≠ 0 ∨ s.blk.on F.FRN_THERM_SHDN = true ∨
      s.blk.rd F.GLB_PWR_STATE ≠ 0
    let busy := s.blk.on F.GLB_BRST_BUSY
    let rows : List Instr := [.brstDrivePort p, .brstProbePort pp, .brstAcqPort k, .brstOdricCore n,
      .brstCaptureEngine e, .brstHaborPort h, .brstNetPort]
    let runs (b : Blk) : Prop := b.rd F.GLB_BRST_BUSY = 1 ∧ Follows b 1000 .brstDone
    let port (x : Nat) (b : Blk) : Prop := b.ostate x = 5 ∧ (b.port x).mute = some .brst ∧ b.rd F.DRV_CTRL_EN x = 0 ∧
      b.seqState (portSeq x) = 0
    (lost → (Completes (.resetAssert perst) s fun b => b = s.blk) ∧ Completes .brownOut s fun b => b = s.blk) ∧
    (¬ lost → (Completes (.resetAssert perst) s fun b => warm b (!perst) ∧ b.pwr.vin = s.blk.pwr.vin) ∧
      Completes .brownOut s fun b => warm b false ∧ b.pwr.vin = 1) ∧
    (Completes .vinLoss s fun b => b.pwr.off = true ∧ b.pwr.vin = 2 ∧ b.mram = s.blk.mram ∧ b.agenda = [] ∧
      (∀ x, lcKey x = false → b.get x = resetOf s.blk.is32 x) ∧ ∀ x, lcKey x = true → b.get x = s.blk.get x) ∧
    (Completes .vinRise s fun b => b.pwr.vin = 0 ∧ Keeps [] s.blk b ∧ (lost → Follows b 0 .presetCheck)) ∧
    (blocked → CompletesMem (.resetRelease straps) s fun b m => b = s.blk ∧ m = s.mem) ∧
    (¬ blocked → s.blk.on F.GLB_LC_SWEEP_PEND = true → CompletesMem (.resetRelease straps) s fun b m => m = s.mem ∧
      b.rd F.GLB_STRAP_STRAP = straps ∧ b.pwr.off = true ∧ Follows b (lcSweepTicks s.blk) .lcSweepDone) ∧
    (¬ blocked → s.blk.on F.GLB_LC_SWEEP_PEND = false → CompletesMem (.resetRelease straps) s fun b m =>
      b.rd F.GLB_STRAP_STRAP = straps ∧ b.pwr.off = false ∧ b.ddr.sram = true ∧
      Follows b 160000 .sramSweepComplete ∧ Keeps [F.GLB_STRAP_STRAP.key 0 0] s.blk b ∧
      ∀ a, m.byte a = if dramBase ≤ a then s.mem.byte a else 0) ∧
    (busy = true → ∀ c ∈ .brstDiscriminators r :: rows, Completes c s fun b => b = s.blk) ∧
    (busy = false →
      (∀ c ∈ rows, Completes c s runs) ∧
      (Completes (.brstDrivePort p) s (port p)) ∧ (Completes (.brstProbePort pp) s (port (32 + pp))) ∧
      (Completes (.brstAcqPort k) s fun b => b.acq k = AcqSt.reset ∧ b.rd F.ACQ_CTRL_EN k = 0) ∧
      (Completes (.brstOdricCore n) s fun b => b.odr n = OdrSt.reset ∧ b.coreState n = 0) ∧
      (Completes (.brstCaptureEngine e) s fun b => b.cap e = CapSt.reset ∧ b.capState e = 0) ∧
      (Completes (.brstHaborPort h) s fun b => b.lnkState h = 0 ∧ b.rd F.LNK_PCFG_EN h = 0) ∧
      (Completes .brstNetPort s fun b => b.rd F.NET_TXQ_EN = 0 ∧ b.rd F.NET_RXQ_EN = 0 ∧ b.rd F.NET_STAT_LINK = 0) ∧
      (s.blk.regionIdle r = true → Completes (.brstDiscriminators r) s runs) ∧
      (s.blk.regionIdle r = false → Completes (.brstDiscriminators r) s fun b => b.rd F.GLB_BRST_REFUSED = 1 ∧
        OnlyRegs [F.GLB_BRST_REFUSED.key 0 0] s.blk b)) ∧
    (s.blk.pwr.brst = none → Completes .brstDone s fun b => b = s.blk) ∧
    (∀ x i, s.blk.pwr.brst = some (x, i) → Completes .brstDone s fun b => b.rd F.GLB_BRST_BUSY = 0 ∧
      b.pwr.brst = none ∧
      (x = 0 → (s.blk.port i).mute = some .brst →
        (regionHeld s.blk (portRegion i) = false → b.ostate i = 0 ∧ (b.port i).mute = none) ∧
        (regionHeld s.blk (portRegion i) = true → (b.port i).mute = some .region)))

/-- R577 to R584: Idle and Hibernate are entered only while the module is quiet, Hibernate after its wait; Idle is left
within 20 microseconds and what waited follows; the retention set comes back at the wake; a life-cycle transition that
is refused changes nothing but says a cause that holds; its sweep clears every store and resets the module. What the spec
leaves to the model here: log 87, 88 and 89. -/
def Obligations.PowerStatesAndLifeCycle : Prop :=
  ∀ (target : Fin 4) (confirm : Fin 256) (s : State),
    let st := s.blk.rd F.GLB_PWR_STATE
    let refused (b : Blk) : Prop := b.rd F.GLB_PWR_REFUSED = 1 ∧ OnlyRegs [F.GLB_PWR_REFUSED.key 0 0] s.blk b
    let keys := [F.GLB_PWR_REQ.key 0 0, F.GLB_PWR_STATE.key 0 0, F.MEM_DSTAT_SELF_REFRESH.key 0 0]
    let dest (b : Blk) (x : Nat) : Prop := b.rd F.GLB_PWR_STATE = x ∧ Follows b 0 (.eventPublish 1015 s.blk.now 0 0)
    let kept := if s.blk.on F.MEM_DSTAT_DRAM_READY then pasrKept s.blk else 0
    let causes := lcCauses s.blk target confirm
    (st ≠ 1 → (Completes .reqActive s fun b => b = s.blk) ∧ Completes .idleExit s fun b => b = s.blk) ∧
    (st = 1 → (Completes .reqActive s fun b => b.rd F.GLB_PWR_REQ = 0 ∧ (∃ d, d ≤ 16000 ∧ Follows b d .idleExit) ∧
        OnlyRegs [F.GLB_PWR_REQ.key 0 0] s.blk b) ∧
      Completes .idleExit s fun b => dest b 0 ∧ b.rd F.MEM_DSTAT_SELF_REFRESH = 0 ∧ b.rcv.held = [] ∧
        (∀ c ∈ s.blk.rcv.held, Follows b 0 c) ∧ Keeps keys s.blk b) ∧
    (st ≠ 0 → Completes .reqIdle s fun b => b = s.blk) ∧
    (st = 0 → quiet s.blk = false → Completes .reqIdle s refused) ∧
    (st = 0 → quiet s.blk = true → Completes .reqIdle s fun b => dest b 1 ∧ b.rd F.GLB_PWR_REQ = 1 ∧
      b.rd F.MEM_DSTAT_SELF_REFRESH = 1 ∧ Keeps keys s.blk b) ∧
    (st = 2 → Completes .reqHibernate s fun b => b = s.blk) ∧
    (st ≠ 2 → quiet s.blk = false → Completes .reqHibernate s refused) ∧
    (st ≠ 2 → quiet s.blk = true → Completes .reqHibernate s fun b => dest b 2 ∧ b.rd F.GLB_PWR_REQ = 2 ∧
      b.pwr.hib = some (s.blk.elapsed + 800000 * s.blk.rd F.GLB_PWR_HIB_WAIT) ∧ b.frn.hib = true ∧
      Keeps keys s.blk b) ∧
    ((st ≠ 2 ∨ s.blk.pwr.off = true ∨ hibReady s.blk = false) →
      CompletesMem .hibernatePowerOff s fun b m => b = s.blk ∧ m = s.mem) ∧
    (st = 2 → s.blk.pwr.off = false → hibReady s.blk = true → CompletesMem .hibernatePowerOff s fun b m =>
      b.pwr.off = true ∧ b.rd F.GLB_PWR_STATE = 2 ∧ b.ddr.kept = kept ∧
      b.pwr.retain = s.blk.regs.filter (fun e => retained e.1) ∧
      ∀ a, m.byte a = if dramBase ≤ a ∧ (a < dramBase + kept ∨ dramBase + dramSize s.blk.is32 ≤ a)
        then s.mem.byte a else 0) ∧
    (st ≠ 2 → CompletesMem .hibernateWake s fun b m => b = s.blk ∧ m = s.mem) ∧
    (st = 2 → s.blk.pwr.off = false → CompletesMem .hibernateWake s fun b m => m = s.mem ∧ dest b 0 ∧
      b.frn.hib = false ∧ b.pwr.hib = none ∧ Keeps keys s.blk b) ∧
    (st = 2 → s.blk.pwr.off = true → CompletesMem .hibernateWake s fun b _ => dest b 0 ∧ b.pwr.off = false ∧
      b.pwr.peWake = true ∧ b.frn.hib = false ∧
      ∀ x v, retained x = true → s.blk.regs.find x = none → s.blk.pwr.retain.find x = some v → b.get x = v) ∧
    (causes = [] → Completes (.lcTransition target confirm) s fun b => b.rd F.GLB_LC_STATE = target ∧
      b.rd F.GLB_LC_SWEEP_PEND = 1 ∧ b.rd F.MEM_DSTAT_DRAM_READY = 0 ∧
      Follows b (lcSweepTicks s.blk) .lcSweepDone) ∧
    (causes ≠ [] → Completes (.lcTransition target confirm) s fun b => b.rd F.GLB_LC_REFUSED = 1 ∧
      b.rd F.GLB_LC_REF_CAUSE ∈ causes ∧ b.rd F.GLB_LC_STATE = s.blk.rd F.GLB_LC_STATE ∧
      Keeps [F.GLB_LC_REFUSED.key 0 0, F.GLB_LC_REF_CAUSE.key 0 0] s.blk b) ∧
    (s.blk.on F.GLB_LC_SWEEP_PEND = false → CompletesMem .lcSweepDone s fun b m => b = s.blk ∧ m = s.mem) ∧
    (s.blk.on F.GLB_LC_SWEEP_PEND = true → CompletesMem .lcSweepDone s fun b m => m = ⟨[], []⟩ ∧
      b.rd F.GLB_LC_SWEEP_PEND = 0 ∧ b.pwr.off = true ∧
      Follows b 0 (.resetRelease (Fin.ofNat 64 (s.blk.rd F.GLB_STRAP_STRAP))))

/-! ### The block as a whole -/

/-- A step takes the command at the front of the queue and is that command's effect with the rest of the queue;
with none waiting the block does what is due of itself (the model's choice, log entry 1). -/
def Obligations.StepTakesTheFront : Prop :=
  ∀ s : State,
    (∀ c rest, s.pending = c :: rest → step s = exec c { s with pending := rest }) ∧
    (s.pending = [] → step s = .next (idle s)) ∧
    (s.pending = [] → dueNow s.blk = [] → (idle s).pending = [] ∧ (idle s).mem = s.mem ∧
      (stages.length ≤ s.blk.tickStage → (idle s).blk.elapsed = s.blk.elapsed + 1 ∧
        (idle s).blk.now = if s.blk.tim.running then s.blk.now + 1 else s.blk.now)) ∧
    (s.pending = [] → dueNow s.blk ≠ [] → (idle s).pending = dueNow s.blk ∧ dueNow (idle s).blk = [])

/-- Every step keeps the stores in canonical form: addresses strictly rising, no byte listed that an unlisted
address reads as, poisoned words strictly rising. -/
def Obligations.EveryStepKeepsTheStoresFormed : Prop :=
  ∀ s t : State, Inv s → step s = .next t → Inv t

/-- The stores are in canonical form at reset. -/
def Obligations.ResetStoresAreFormed : Prop := Inv State.reset

/-- R1, R6, R31: at reset no command waits, every store reads zero, every register field holds its reset value, the
default channel map is in force, every sequencer is DISABLED, every port MUTED, every core HALTED, every link down
and the module Active.  A field whose table gives no value has the one that log entry 2 names. -/
def Obligations.ResetHoldsTheResetValues : Prop :=
  let b := State.reset.blk
  State.reset.pending = [] ∧ (∀ a, State.reset.mem.byte a = 0 ∧ State.reset.mem.poisoned a = false) ∧
    (∀ (f : Fld) (i j : Nat), b.rd f i j = resetOf false (f.key i j) % 2 ^ f.wid ∧ b.act f i j = b.rd f i j) ∧
    (∀ r < 8, ∀ i < 64, b.rd F.GLB_CHMAP_ACT_DRV_IDX r i = i ∧ b.rd F.GLB_CHMAP_ACT_RD_IDX r i = i) ∧
    (∀ q < 64, b.seqState q = 0) ∧ (∀ p < 48, b.ostate p = 0 ∧ b.rd F.DRV_CTRL_EN p = 0) ∧
    (∀ n < 16, b.coreState n = 0) ∧ (∀ p < 4, b.lnkState p = 0) ∧ b.rd F.GLB_PWR_STATE = 0 ∧
    b.rd F.HIF_FCTRL_EN 0 = 1 ∧ (∀ f < 16, f ≠ 0 → b.rd F.HIF_FCTRL_EN f = 0) ∧ (∀ x < 224, b.owner x = 0)
end

