-- ==== Sys2Proof/Laws/Tab.lean ====
section
/-!
SUPPORT. Laws of the sparse tables: an entry that was set reads back, every other entry reads as before.
-/

namespace Sys2Proof.Machine

variable {κ α : Type} [DecidableEq κ]

theorem Tab.get_eq_find (d : α) (t : Tab κ α) (i : κ) : t.get d i = (t.find i).getD d := by
  induction t with
  | nil => rfl
  | cons e t ih =>
    obtain ⟨k, v⟩ := e
    by_cases h : k = i
    · simp [Tab.get, Tab.find, h]
    · simp [Tab.get, Tab.find, h, ih]

@[simp] theorem Tab.find_nil (i : κ) : Tab.find ([] : Tab κ α) i = none := rfl

@[simp] theorem Tab.get_nil (d : α) (i : κ) : Tab.get d ([] : Tab κ α) i = d := rfl

theorem Tab.find_set (t : Tab κ α) (i j : κ) (x : α) :
    (t.set i x).find j = if i = j then some x else t.find j := by
  induction t with
  | nil => simp [Tab.set, Tab.find]
  | cons e t ih =>
    obtain ⟨k, v⟩ := e
    by_cases h : k = i
    · subst h
      by_cases hj : k = j <;> simp [Tab.set, Tab.find, hj]
    · by_cases hj : k = j
      · subst hj
        simp [Tab.set, Tab.find, h, Ne.symm h]
      · simp [Tab.set, Tab.find, h, hj, ih]

@[simp] theorem Tab.find_set_self (t : Tab κ α) (i : κ) (x : α) : (t.set i x).find i = some x := by
  simp [Tab.find_set]

theorem Tab.find_set_ne (t : Tab κ α) {i j : κ} (x : α) (h : i ≠ j) : (t.set i x).find j = t.find j := by
  simp [Tab.find_set, h]

theorem Tab.get_set (d : α) (t : Tab κ α) (i j : κ) (x : α) :
    (t.set i x).get d j = if i = j then x else t.get d j := by
  simp only [Tab.get_eq_find, Tab.find_set]
  split <;> rfl

@[simp] theorem Tab.get_set_self (d : α) (t : Tab κ α) (i : κ) (x : α) : (t.set i x).get d i = x := by
  simp [Tab.get_set]

theorem Tab.get_set_ne (d : α) (t : Tab κ α) {i j : κ} (x : α) (h : i ≠ j) :
    (t.set i x).get d j = t.get d j := by
  simp [Tab.get_set, h]

theorem Tab.find_erase (t : Tab κ α) (i j : κ) :
    (t.erase i).find j = if i = j then none else t.find j := by
  induction t with
  | nil => simp [Tab.erase, Tab.find]
  | cons e t ih =>
    obtain ⟨k, v⟩ := e
    simp only [Tab.erase] at ih ⊢
    by_cases h : k = i
    · subst h
      by_cases hj : k = j
      · simp [hj] at ih ⊢
        simpa using ih
      · simp [Tab.find, hj] at ih ⊢
        simpa using ih
    · by_cases hj : k = j
      · subst hj
        simp [Tab.find, h, Ne.symm h]
      · simp [Tab.find, h, hj] at ih ⊢
        simpa using ih

@[simp] theorem Tab.find_erase_self (t : Tab κ α) (i : κ) : (t.erase i).find i = none := by
  simp [Tab.find_erase]

theorem Tab.find_erase_ne (t : Tab κ α) {i j : κ} (h : i ≠ j) : (t.erase i).find j = t.find j := by
  simp [Tab.find_erase, h]

end Sys2Proof.Machine
end

