-- ==== Sys2Proof/Laws/State.lean ====
section
/-!
SUPPORT. What each update of the block changes: one lemma per field and update, then what the readers of
registers and units see after an update.  Every one holds by unfolding, so no later proof unfolds an update.
-/

namespace Sys2Proof.Machine

variable (b : Blk)

/-! ### wr -/

@[simp] theorem Blk.regs_wr (f : Fld) (v i j : Nat) : (b.wr f v i j).regs = b.regs.set (f.key i j) (v % 2 ^ f.wid) := rfl
@[simp] theorem Blk.force_wr (f : Fld) (v i j : Nat) : (b.wr f v i j).force = b.force := rfl
@[simp] theorem Blk.is32_wr (f : Fld) (v i j : Nat) : (b.wr f v i j).is32 = b.is32 := rfl
@[simp] theorem Blk.now_wr (f : Fld) (v i j : Nat) : (b.wr f v i j).now = b.now := rfl
@[simp] theorem Blk.elapsed_wr (f : Fld) (v i j : Nat) : (b.wr f v i j).elapsed = b.elapsed := rfl
@[simp] theorem Blk.tim_wr (f : Fld) (v i j : Nat) : (b.wr f v i j).tim = b.tim := rfl
@[simp] theorem Blk.dlq_wr (f : Fld) (v i j : Nat) : (b.wr f v i j).dlq = b.dlq := rfl
@[simp] theorem Blk.dlHeld_wr (f : Fld) (v i j : Nat) : (b.wr f v i j).dlHeld = b.dlHeld := rfl
@[simp] theorem Blk.dlOrd_wr (f : Fld) (v i j : Nat) : (b.wr f v i j).dlOrd = b.dlOrd := rfl
@[simp] theorem Blk.verdicts_wr (f : Fld) (v i j : Nat) : (b.wr f v i j).verdicts = b.verdicts := rfl
@[simp] theorem Blk.agenda_wr (f : Fld) (v i j : Nat) : (b.wr f v i j).agenda = b.agenda := rfl
@[simp] theorem Blk.tickStage_wr (f : Fld) (v i j : Nat) : (b.wr f v i j).tickStage = b.tickStage := rfl
@[simp] theorem Blk.out_wr (f : Fld) (v i j : Nat) : (b.wr f v i j).out = b.out := rfl
@[simp] theorem Blk.freeCtr_wr (f : Fld) (v i j : Nat) : (b.wr f v i j).freeCtr = b.freeCtr := rfl
@[simp] theorem Blk.ports_wr (f : Fld) (v i j : Nat) : (b.wr f v i j).ports = b.ports := rfl
@[simp] theorem Blk.acqs_wr (f : Fld) (v i j : Nat) : (b.wr f v i j).acqs = b.acqs := rfl
@[simp] theorem Blk.dsc_wr (f : Fld) (v i j : Nat) : (b.wr f v i j).dsc = b.dsc := rfl
@[simp] theorem Blk.seqs_wr (f : Fld) (v i j : Nat) : (b.wr f v i j).seqs = b.seqs := rfl
@[simp] theorem Blk.gov_wr (f : Fld) (v i j : Nat) : (b.wr f v i j).gov = b.gov := rfl
@[simp] theorem Blk.odrs_wr (f : Fld) (v i j : Nat) : (b.wr f v i j).odrs = b.odrs := rfl
@[simp] theorem Blk.evf_wr (f : Fld) (v i j : Nat) : (b.wr f v i j).evf = b.evf := rfl
@[simp] theorem Blk.bias_wr (f : Fld) (v i j : Nat) : (b.wr f v i j).bias = b.bias := rfl
@[simp] theorem Blk.mram_wr (f : Fld) (v i j : Nat) : (b.wr f v i j).mram = b.mram := rfl
@[simp] theorem Blk.frn_wr (f : Fld) (v i j : Nat) : (b.wr f v i j).frn = b.frn := rfl
@[simp] theorem Blk.trg_wr (f : Fld) (v i j : Nat) : (b.wr f v i j).trg = b.trg := rfl
@[simp] theorem Blk.pwr_wr (f : Fld) (v i j : Nat) : (b.wr f v i j).pwr = b.pwr := rfl
@[simp] theorem Blk.ddr_wr (f : Fld) (v i j : Nat) : (b.wr f v i j).ddr = b.ddr := rfl
@[simp] theorem Blk.lnk_wr (f : Fld) (v i j : Nat) : (b.wr f v i j).lnk = b.lnk := rfl
@[simp] theorem Blk.net_wr (f : Fld) (v i j : Nat) : (b.wr f v i j).net = b.net := rfl
@[simp] theorem Blk.cal_wr (f : Fld) (v i j : Nat) : (b.wr f v i j).cal = b.cal := rfl
@[simp] theorem Blk.rcv_wr (f : Fld) (v i j : Nat) : (b.wr f v i j).rcv = b.rcv := rfl
@[simp] theorem Blk.hif_wr (f : Fld) (v i j : Nat) : (b.wr f v i j).hif = b.hif := rfl
@[simp] theorem Blk.port_wr (f : Fld) (v i j : Nat) (p' : Nat) : (b.wr f v i j).port p' = b.port p' := rfl
@[simp] theorem Blk.acq_wr (f : Fld) (v i j : Nat) (k' : Nat) : (b.wr f v i j).acq k' = b.acq k' := rfl
@[simp] theorem Blk.seq_wr (f : Fld) (v i j : Nat) (q' : Nat) : (b.wr f v i j).seq q' = b.seq q' := rfl
@[simp] theorem Blk.odr_wr (f : Fld) (v i j : Nat) (n' : Nat) : (b.wr f v i j).odr n' = b.odr n' := rfl
@[simp] theorem Blk.regRcv_wr (f : Fld) (v i j : Nat) (r' : Nat) : (b.wr f v i j).regRcv r' = b.regRcv r' := rfl

/-! ### stage -/

@[simp] theorem Blk.regs_stage (f : Fld) (v i j : Nat) : (b.stage f v i j).regs = b.regs.set (f.key i j) (v % 2 ^ f.wid) := rfl
@[simp] theorem Blk.force_stage (f : Fld) (v i j : Nat) : (b.stage f v i j).force = b.force.set (f.key i j) (b.act f i j) := rfl
@[simp] theorem Blk.is32_stage (f : Fld) (v i j : Nat) : (b.stage f v i j).is32 = b.is32 := rfl
@[simp] theorem Blk.now_stage (f : Fld) (v i j : Nat) : (b.stage f v i j).now = b.now := rfl
@[simp] theorem Blk.elapsed_stage (f : Fld) (v i j : Nat) : (b.stage f v i j).elapsed = b.elapsed := rfl
@[simp] theorem Blk.tim_stage (f : Fld) (v i j : Nat) : (b.stage f v i j).tim = b.tim := rfl
@[simp] theorem Blk.dlq_stage (f : Fld) (v i j : Nat) : (b.stage f v i j).dlq = b.dlq := rfl
@[simp] theorem Blk.dlHeld_stage (f : Fld) (v i j : Nat) : (b.stage f v i j).dlHeld = b.dlHeld := rfl
@[simp] theorem Blk.dlOrd_stage (f : Fld) (v i j : Nat) : (b.stage f v i j).dlOrd = b.dlOrd := rfl
@[simp] theorem Blk.verdicts_stage (f : Fld) (v i j : Nat) : (b.stage f v i j).verdicts = b.verdicts := rfl
@[simp] theorem Blk.agenda_stage (f : Fld) (v i j : Nat) : (b.stage f v i j).agenda = b.agenda := rfl
@[simp] theorem Blk.tickStage_stage (f : Fld) (v i j : Nat) : (b.stage f v i j).tickStage = b.tickStage := rfl
@[simp] theorem Blk.out_stage (f : Fld) (v i j : Nat) : (b.stage f v i j).out = b.out := rfl
@[simp] theorem Blk.freeCtr_stage (f : Fld) (v i j : Nat) : (b.stage f v i j).freeCtr = b.freeCtr := rfl
@[simp] theorem Blk.ports_stage (f : Fld) (v i j : Nat) : (b.stage f v i j).ports = b.ports := rfl
@[simp] theorem Blk.acqs_stage (f : Fld) (v i j : Nat) : (b.stage f v i j).acqs = b.acqs := rfl
@[simp] theorem Blk.dsc_stage (f : Fld) (v i j : Nat) : (b.stage f v i j).dsc = b.dsc := rfl
@[simp] theorem Blk.seqs_stage (f : Fld) (v i j : Nat) : (b.stage f v i j).seqs = b.seqs := rfl
@[simp] theorem Blk.gov_stage (f : Fld) (v i j : Nat) : (b.stage f v i j).gov = b.gov := rfl
@[simp] theorem Blk.odrs_stage (f : Fld) (v i j : Nat) : (b.stage f v i j).odrs = b.odrs := rfl
@[simp] theorem Blk.evf_stage (f : Fld) (v i j : Nat) : (b.stage f v i j).evf = b.evf := rfl
@[simp] theorem Blk.bias_stage (f : Fld) (v i j : Nat) : (b.stage f v i j).bias = b.bias := rfl
@[simp] theorem Blk.mram_stage (f : Fld) (v i j : Nat) : (b.stage f v i j).mram = b.mram := rfl
@[simp] theorem Blk.frn_stage (f : Fld) (v i j : Nat) : (b.stage f v i j).frn = b.frn := rfl
@[simp] theorem Blk.trg_stage (f : Fld) (v i j : Nat) : (b.stage f v i j).trg = b.trg := rfl
@[simp] theorem Blk.pwr_stage (f : Fld) (v i j : Nat) : (b.stage f v i j).pwr = b.pwr := rfl
@[simp] theorem Blk.ddr_stage (f : Fld) (v i j : Nat) : (b.stage f v i j).ddr = b.ddr := rfl
@[simp] theorem Blk.lnk_stage (f : Fld) (v i j : Nat) : (b.stage f v i j).lnk = b.lnk := rfl
@[simp] theorem Blk.net_stage (f : Fld) (v i j : Nat) : (b.stage f v i j).net = b.net := rfl
@[simp] theorem Blk.cal_stage (f : Fld) (v i j : Nat) : (b.stage f v i j).cal = b.cal := rfl
@[simp] theorem Blk.rcv_stage (f : Fld) (v i j : Nat) : (b.stage f v i j).rcv = b.rcv := rfl
@[simp] theorem Blk.hif_stage (f : Fld) (v i j : Nat) : (b.stage f v i j).hif = b.hif := rfl
@[simp] theorem Blk.port_stage (f : Fld) (v i j : Nat) (p' : Nat) : (b.stage f v i j).port p' = b.port p' := rfl
@[simp] theorem Blk.acq_stage (f : Fld) (v i j : Nat) (k' : Nat) : (b.stage f v i j).acq k' = b.acq k' := rfl
@[simp] theorem Blk.seq_stage (f : Fld) (v i j : Nat) (q' : Nat) : (b.stage f v i j).seq q' = b.seq q' := rfl
@[simp] theorem Blk.odr_stage (f : Fld) (v i j : Nat) (n' : Nat) : (b.stage f v i j).odr n' = b.odr n' := rfl
@[simp] theorem Blk.regRcv_stage (f : Fld) (v i j : Nat) (r' : Nat) : (b.stage f v i j).regRcv r' = b.regRcv r' := rfl

/-! ### commit -/

@[simp] theorem Blk.regs_commit (k : Key) : (b.commit k).regs = b.regs := rfl
@[simp] theorem Blk.force_commit (k : Key) : (b.commit k).force = b.force.erase k := rfl
@[simp] theorem Blk.is32_commit (k : Key) : (b.commit k).is32 = b.is32 := rfl
@[simp] theorem Blk.now_commit (k : Key) : (b.commit k).now = b.now := rfl
@[simp] theorem Blk.elapsed_commit (k : Key) : (b.commit k).elapsed = b.elapsed := rfl
@[simp] theorem Blk.tim_commit (k : Key) : (b.commit k).tim = b.tim := rfl
@[simp] theorem Blk.dlq_commit (k : Key) : (b.commit k).dlq = b.dlq := rfl
@[simp] theorem Blk.dlHeld_commit (k : Key) : (b.commit k).dlHeld = b.dlHeld := rfl
@[simp] theorem Blk.dlOrd_commit (k : Key) : (b.commit k).dlOrd = b.dlOrd := rfl
@[simp] theorem Blk.verdicts_commit (k : Key) : (b.commit k).verdicts = b.verdicts := rfl
@[simp] theorem Blk.agenda_commit (k : Key) : (b.commit k).agenda = b.agenda := rfl
@[simp] theorem Blk.tickStage_commit (k : Key) : (b.commit k).tickStage = b.tickStage := rfl
@[simp] theorem Blk.out_commit (k : Key) : (b.commit k).out = b.out := rfl
@[simp] theorem Blk.freeCtr_commit (k : Key) : (b.commit k).freeCtr = b.freeCtr := rfl
@[simp] theorem Blk.ports_commit (k : Key) : (b.commit k).ports = b.ports := rfl
@[simp] theorem Blk.acqs_commit (k : Key) : (b.commit k).acqs = b.acqs := rfl
@[simp] theorem Blk.dsc_commit (k : Key) : (b.commit k).dsc = b.dsc := rfl
@[simp] theorem Blk.seqs_commit (k : Key) : (b.commit k).seqs = b.seqs := rfl
@[simp] theorem Blk.gov_commit (k : Key) : (b.commit k).gov = b.gov := rfl
@[simp] theorem Blk.odrs_commit (k : Key) : (b.commit k).odrs = b.odrs := rfl
@[simp] theorem Blk.evf_commit (k : Key) : (b.commit k).evf = b.evf := rfl
@[simp] theorem Blk.bias_commit (k : Key) : (b.commit k).bias = b.bias := rfl
@[simp] theorem Blk.mram_commit (k : Key) : (b.commit k).mram = b.mram := rfl
@[simp] theorem Blk.frn_commit (k : Key) : (b.commit k).frn = b.frn := rfl
@[simp] theorem Blk.trg_commit (k : Key) : (b.commit k).trg = b.trg := rfl
@[simp] theorem Blk.pwr_commit (k : Key) : (b.commit k).pwr = b.pwr := rfl
@[simp] theorem Blk.ddr_commit (k : Key) : (b.commit k).ddr = b.ddr := rfl
@[simp] theorem Blk.lnk_commit (k : Key) : (b.commit k).lnk = b.lnk := rfl
@[simp] theorem Blk.net_commit (k : Key) : (b.commit k).net = b.net := rfl
@[simp] theorem Blk.cal_commit (k : Key) : (b.commit k).cal = b.cal := rfl
@[simp] theorem Blk.rcv_commit (k : Key) : (b.commit k).rcv = b.rcv := rfl
@[simp] theorem Blk.hif_commit (k : Key) : (b.commit k).hif = b.hif := rfl
@[simp] theorem Blk.get_commit (k : Key) (k' : Key) : (b.commit k).get k' = b.get k' := rfl
@[simp] theorem Blk.rd_commit (k : Key) (g : Fld) (i' j' : Nat) : (b.commit k).rd g i' j' = b.rd g i' j' := rfl
@[simp] theorem Blk.on_commit (k : Key) (g : Fld) (i' j' : Nat) : (b.commit k).on g i' j' = b.on g i' j' := rfl
@[simp] theorem Blk.port_commit (k : Key) (p' : Nat) : (b.commit k).port p' = b.port p' := rfl
@[simp] theorem Blk.acq_commit (k : Key) (k' : Nat) : (b.commit k).acq k' = b.acq k' := rfl
@[simp] theorem Blk.seq_commit (k : Key) (q' : Nat) : (b.commit k).seq q' = b.seq q' := rfl
@[simp] theorem Blk.odr_commit (k : Key) (n' : Nat) : (b.commit k).odr n' = b.odr n' := rfl
@[simp] theorem Blk.regRcv_commit (k : Key) (r' : Nat) : (b.commit k).regRcv r' = b.regRcv r' := rfl

/-! ### clearRegs -/

@[simp] theorem Blk.regs_clearRegs (p : Key → Bool) : (b.clearRegs p).regs = b.regs.filter (fun e => !p e.1) := rfl
@[simp] theorem Blk.force_clearRegs (p : Key → Bool) : (b.clearRegs p).force = b.force.filter (fun e => !p e.1) := rfl
@[simp] theorem Blk.is32_clearRegs (p : Key → Bool) : (b.clearRegs p).is32 = b.is32 := rfl
@[simp] theorem Blk.now_clearRegs (p : Key → Bool) : (b.clearRegs p).now = b.now := rfl
@[simp] theorem Blk.elapsed_clearRegs (p : Key → Bool) : (b.clearRegs p).elapsed = b.elapsed := rfl
@[simp] theorem Blk.tim_clearRegs (p : Key → Bool) : (b.clearRegs p).tim = b.tim := rfl
@[simp] theorem Blk.dlq_clearRegs (p : Key → Bool) : (b.clearRegs p).dlq = b.dlq := rfl
@[simp] theorem Blk.dlHeld_clearRegs (p : Key → Bool) : (b.clearRegs p).dlHeld = b.dlHeld := rfl
@[simp] theorem Blk.dlOrd_clearRegs (p : Key → Bool) : (b.clearRegs p).dlOrd = b.dlOrd := rfl
@[simp] theorem Blk.verdicts_clearRegs (p : Key → Bool) : (b.clearRegs p).verdicts = b.verdicts := rfl
@[simp] theorem Blk.agenda_clearRegs (p : Key → Bool) : (b.clearRegs p).agenda = b.agenda := rfl
@[simp] theorem Blk.tickStage_clearRegs (p : Key → Bool) : (b.clearRegs p).tickStage = b.tickStage := rfl
@[simp] theorem Blk.out_clearRegs (p : Key → Bool) : (b.clearRegs p).out = b.out := rfl
@[simp] theorem Blk.freeCtr_clearRegs (p : Key → Bool) : (b.clearRegs p).freeCtr = b.freeCtr := rfl
@[simp] theorem Blk.ports_clearRegs (p : Key → Bool) : (b.clearRegs p).ports = b.ports := rfl
@[simp] theorem Blk.acqs_clearRegs (p : Key → Bool) : (b.clearRegs p).acqs = b.acqs := rfl
@[simp] theorem Blk.dsc_clearRegs (p : Key → Bool) : (b.clearRegs p).dsc = b.dsc := rfl
@[simp] theorem Blk.seqs_clearRegs (p : Key → Bool) : (b.clearRegs p).seqs = b.seqs := rfl
@[simp] theorem Blk.gov_clearRegs (p : Key → Bool) : (b.clearRegs p).gov = b.gov := rfl
@[simp] theorem Blk.odrs_clearRegs (p : Key → Bool) : (b.clearRegs p).odrs = b.odrs := rfl
@[simp] theorem Blk.evf_clearRegs (p : Key → Bool) : (b.clearRegs p).evf = b.evf := rfl
@[simp] theorem Blk.bias_clearRegs (p : Key → Bool) : (b.clearRegs p).bias = b.bias := rfl
@[simp] theorem Blk.mram_clearRegs (p : Key → Bool) : (b.clearRegs p).mram = b.mram := rfl
@[simp] theorem Blk.frn_clearRegs (p : Key → Bool) : (b.clearRegs p).frn = b.frn := rfl
@[simp] theorem Blk.trg_clearRegs (p : Key → Bool) : (b.clearRegs p).trg = b.trg := rfl
@[simp] theorem Blk.pwr_clearRegs (p : Key → Bool) : (b.clearRegs p).pwr = b.pwr := rfl
@[simp] theorem Blk.ddr_clearRegs (p : Key → Bool) : (b.clearRegs p).ddr = b.ddr := rfl
@[simp] theorem Blk.lnk_clearRegs (p : Key → Bool) : (b.clearRegs p).lnk = b.lnk := rfl
@[simp] theorem Blk.net_clearRegs (p : Key → Bool) : (b.clearRegs p).net = b.net := rfl
@[simp] theorem Blk.cal_clearRegs (p : Key → Bool) : (b.clearRegs p).cal = b.cal := rfl
@[simp] theorem Blk.rcv_clearRegs (p : Key → Bool) : (b.clearRegs p).rcv = b.rcv := rfl
@[simp] theorem Blk.hif_clearRegs (p : Key → Bool) : (b.clearRegs p).hif = b.hif := rfl
@[simp] theorem Blk.port_clearRegs (p : Key → Bool) (p' : Nat) : (b.clearRegs p).port p' = b.port p' := rfl
@[simp] theorem Blk.acq_clearRegs (p : Key → Bool) (k' : Nat) : (b.clearRegs p).acq k' = b.acq k' := rfl
@[simp] theorem Blk.seq_clearRegs (p : Key → Bool) (q' : Nat) : (b.clearRegs p).seq q' = b.seq q' := rfl
@[simp] theorem Blk.odr_clearRegs (p : Key → Bool) (n' : Nat) : (b.clearRegs p).odr n' = b.odr n' := rfl
@[simp] theorem Blk.regRcv_clearRegs (p : Key → Bool) (r' : Nat) : (b.clearRegs p).regRcv r' = b.regRcv r' := rfl

/-! ### sched -/

@[simp] theorem Blk.regs_sched (dt : Nat) (c : Instr) : (b.sched dt c).regs = b.regs := rfl
@[simp] theorem Blk.force_sched (dt : Nat) (c : Instr) : (b.sched dt c).force = b.force := rfl
@[simp] theorem Blk.is32_sched (dt : Nat) (c : Instr) : (b.sched dt c).is32 = b.is32 := rfl
@[simp] theorem Blk.now_sched (dt : Nat) (c : Instr) : (b.sched dt c).now = b.now := rfl
@[simp] theorem Blk.elapsed_sched (dt : Nat) (c : Instr) : (b.sched dt c).elapsed = b.elapsed := rfl
@[simp] theorem Blk.tim_sched (dt : Nat) (c : Instr) : (b.sched dt c).tim = b.tim := rfl
@[simp] theorem Blk.dlq_sched (dt : Nat) (c : Instr) : (b.sched dt c).dlq = b.dlq := rfl
@[simp] theorem Blk.dlHeld_sched (dt : Nat) (c : Instr) : (b.sched dt c).dlHeld = b.dlHeld := rfl
@[simp] theorem Blk.dlOrd_sched (dt : Nat) (c : Instr) : (b.sched dt c).dlOrd = b.dlOrd := rfl
@[simp] theorem Blk.verdicts_sched (dt : Nat) (c : Instr) : (b.sched dt c).verdicts = b.verdicts := rfl
@[simp] theorem Blk.agenda_sched (dt : Nat) (c : Instr) : (b.sched dt c).agenda = b.agenda ++ [(b.elapsed + dt, c)] := rfl
@[simp] theorem Blk.tickStage_sched (dt : Nat) (c : Instr) : (b.sched dt c).tickStage = b.tickStage := rfl
@[simp] theorem Blk.out_sched (dt : Nat) (c : Instr) : (b.sched dt c).out = b.out := rfl
@[simp] theorem Blk.freeCtr_sched (dt : Nat) (c : Instr) : (b.sched dt c).freeCtr = b.freeCtr := rfl
@[simp] theorem Blk.ports_sched (dt : Nat) (c : Instr) : (b.sched dt c).ports = b.ports := rfl
@[simp] theorem Blk.acqs_sched (dt : Nat) (c : Instr) : (b.sched dt c).acqs = b.acqs := rfl
@[simp] theorem Blk.dsc_sched (dt : Nat) (c : Instr) : (b.sched dt c).dsc = b.dsc := rfl
@[simp] theorem Blk.seqs_sched (dt : Nat) (c : Instr) : (b.sched dt c).seqs = b.seqs := rfl
@[simp] theorem Blk.gov_sched (dt : Nat) (c : Instr) : (b.sched dt c).gov = b.gov := rfl
@[simp] theorem Blk.odrs_sched (dt : Nat) (c : Instr) : (b.sched dt c).odrs = b.odrs := rfl
@[simp] theorem Blk.evf_sched (dt : Nat) (c : Instr) : (b.sched dt c).evf = b.evf := rfl
@[simp] theorem Blk.bias_sched (dt : Nat) (c : Instr) : (b.sched dt c).bias = b.bias := rfl
@[simp] theorem Blk.mram_sched (dt : Nat) (c : Instr) : (b.sched dt c).mram = b.mram := rfl
@[simp] theorem Blk.frn_sched (dt : Nat) (c : Instr) : (b.sched dt c).frn = b.frn := rfl
@[simp] theorem Blk.trg_sched (dt : Nat) (c : Instr) : (b.sched dt c).trg = b.trg := rfl
@[simp] theorem Blk.pwr_sched (dt : Nat) (c : Instr) : (b.sched dt c).pwr = b.pwr := rfl
@[simp] theorem Blk.ddr_sched (dt : Nat) (c : Instr) : (b.sched dt c).ddr = b.ddr := rfl
@[simp] theorem Blk.lnk_sched (dt : Nat) (c : Instr) : (b.sched dt c).lnk = b.lnk := rfl
@[simp] theorem Blk.net_sched (dt : Nat) (c : Instr) : (b.sched dt c).net = b.net := rfl
@[simp] theorem Blk.cal_sched (dt : Nat) (c : Instr) : (b.sched dt c).cal = b.cal := rfl
@[simp] theorem Blk.rcv_sched (dt : Nat) (c : Instr) : (b.sched dt c).rcv = b.rcv := rfl
@[simp] theorem Blk.hif_sched (dt : Nat) (c : Instr) : (b.sched dt c).hif = b.hif := rfl
@[simp] theorem Blk.get_sched (dt : Nat) (c : Instr) (k' : Key) : (b.sched dt c).get k' = b.get k' := rfl
@[simp] theorem Blk.rd_sched (dt : Nat) (c : Instr) (g : Fld) (i' j' : Nat) : (b.sched dt c).rd g i' j' = b.rd g i' j' := rfl
@[simp] theorem Blk.act_sched (dt : Nat) (c : Instr) (g : Fld) (i' j' : Nat) : (b.sched dt c).act g i' j' = b.act g i' j' := rfl
@[simp] theorem Blk.on_sched (dt : Nat) (c : Instr) (g : Fld) (i' j' : Nat) : (b.sched dt c).on g i' j' = b.on g i' j' := rfl
@[simp] theorem Blk.actOn_sched (dt : Nat) (c : Instr) (g : Fld) (i' j' : Nat) : (b.sched dt c).actOn g i' j' = b.actOn g i' j' := rfl
@[simp] theorem Blk.port_sched (dt : Nat) (c : Instr) (p' : Nat) : (b.sched dt c).port p' = b.port p' := rfl
@[simp] theorem Blk.acq_sched (dt : Nat) (c : Instr) (k' : Nat) : (b.sched dt c).acq k' = b.acq k' := rfl
@[simp] theorem Blk.seq_sched (dt : Nat) (c : Instr) (q' : Nat) : (b.sched dt c).seq q' = b.seq q' := rfl
@[simp] theorem Blk.odr_sched (dt : Nat) (c : Instr) (n' : Nat) : (b.sched dt c).odr n' = b.odr n' := rfl
@[simp] theorem Blk.regRcv_sched (dt : Nat) (c : Instr) (r' : Nat) : (b.sched dt c).regRcv r' = b.regRcv r' := rfl

/-! ### schedAll -/

@[simp] theorem Blk.regs_schedAll (dt : Nat) (cs : List Instr) : (b.schedAll dt cs).regs = b.regs := rfl
@[simp] theorem Blk.force_schedAll (dt : Nat) (cs : List Instr) : (b.schedAll dt cs).force = b.force := rfl
@[simp] theorem Blk.is32_schedAll (dt : Nat) (cs : List Instr) : (b.schedAll dt cs).is32 = b.is32 := rfl
@[simp] theorem Blk.now_schedAll (dt : Nat) (cs : List Instr) : (b.schedAll dt cs).now = b.now := rfl
@[simp] theorem Blk.elapsed_schedAll (dt : Nat) (cs : List Instr) : (b.schedAll dt cs).elapsed = b.elapsed := rfl
@[simp] theorem Blk.tim_schedAll (dt : Nat) (cs : List Instr) : (b.schedAll dt cs).tim = b.tim := rfl
@[simp] theorem Blk.dlq_schedAll (dt : Nat) (cs : List Instr) : (b.schedAll dt cs).dlq = b.dlq := rfl
@[simp] theorem Blk.dlHeld_schedAll (dt : Nat) (cs : List Instr) : (b.schedAll dt cs).dlHeld = b.dlHeld := rfl
@[simp] theorem Blk.dlOrd_schedAll (dt : Nat) (cs : List Instr) : (b.schedAll dt cs).dlOrd = b.dlOrd := rfl
@[simp] theorem Blk.verdicts_schedAll (dt : Nat) (cs : List Instr) : (b.schedAll dt cs).verdicts = b.verdicts := rfl
@[simp] theorem Blk.agenda_schedAll (dt : Nat) (cs : List Instr) : (b.schedAll dt cs).agenda = b.agenda ++ cs.map (fun c => (b.elapsed + dt, c)) := rfl
@[simp] theorem Blk.tickStage_schedAll (dt : Nat) (cs : List Instr) : (b.schedAll dt cs).tickStage = b.tickStage := rfl
@[simp] theorem Blk.out_schedAll (dt : Nat) (cs : List Instr) : (b.schedAll dt cs).out = b.out := rfl
@[simp] theorem Blk.freeCtr_schedAll (dt : Nat) (cs : List Instr) : (b.schedAll dt cs).freeCtr = b.freeCtr := rfl
@[simp] theorem Blk.ports_schedAll (dt : Nat) (cs : List Instr) : (b.schedAll dt cs).ports = b.ports := rfl
@[simp] theorem Blk.acqs_schedAll (dt : Nat) (cs : List Instr) : (b.schedAll dt cs).acqs = b.acqs := rfl
@[simp] theorem Blk.dsc_schedAll (dt : Nat) (cs : List Instr) : (b.schedAll dt cs).dsc = b.dsc := rfl
@[simp] theorem Blk.seqs_schedAll (dt : Nat) (cs : List Instr) : (b.schedAll dt cs).seqs = b.seqs := rfl
@[simp] theorem Blk.gov_schedAll (dt : Nat) (cs : List Instr) : (b.schedAll dt cs).gov = b.gov := rfl
@[simp] theorem Blk.odrs_schedAll (dt : Nat) (cs : List Instr) : (b.schedAll dt cs).odrs = b.odrs := rfl
@[simp] theorem Blk.evf_schedAll (dt : Nat) (cs : List Instr) : (b.schedAll dt cs).evf = b.evf := rfl
@[simp] theorem Blk.bias_schedAll (dt : Nat) (cs : List Instr) : (b.schedAll dt cs).bias = b.bias := rfl
@[simp] theorem Blk.mram_schedAll (dt : Nat) (cs : List Instr) : (b.schedAll dt cs).mram = b.mram := rfl
@[simp] theorem Blk.frn_schedAll (dt : Nat) (cs : List Instr) : (b.schedAll dt cs).frn = b.frn := rfl
@[simp] theorem Blk.trg_schedAll (dt : Nat) (cs : List Instr) : (b.schedAll dt cs).trg = b.trg := rfl
@[simp] theorem Blk.pwr_schedAll (dt : Nat) (cs : List Instr) : (b.schedAll dt cs).pwr = b.pwr := rfl
@[simp] theorem Blk.ddr_schedAll (dt : Nat) (cs : List Instr) : (b.schedAll dt cs).ddr = b.ddr := rfl
@[simp] theorem Blk.lnk_schedAll (dt : Nat) (cs : List Instr) : (b.schedAll dt cs).lnk = b.lnk := rfl
@[simp] theorem Blk.net_schedAll (dt : Nat) (cs : List Instr) : (b.schedAll dt cs).net = b.net := rfl
@[simp] theorem Blk.cal_schedAll (dt : Nat) (cs : List Instr) : (b.schedAll dt cs).cal = b.cal := rfl
@[simp] theorem Blk.rcv_schedAll (dt : Nat) (cs : List Instr) : (b.schedAll dt cs).rcv = b.rcv := rfl
@[simp] theorem Blk.hif_schedAll (dt : Nat) (cs : List Instr) : (b.schedAll dt cs).hif = b.hif := rfl
@[simp] theorem Blk.get_schedAll (dt : Nat) (cs : List Instr) (k' : Key) : (b.schedAll dt cs).get k' = b.get k' := rfl
@[simp] theorem Blk.rd_schedAll (dt : Nat) (cs : List Instr) (g : Fld) (i' j' : Nat) : (b.schedAll dt cs).rd g i' j' = b.rd g i' j' := rfl
@[simp] theorem Blk.act_schedAll (dt : Nat) (cs : List Instr) (g : Fld) (i' j' : Nat) : (b.schedAll dt cs).act g i' j' = b.act g i' j' := rfl
@[simp] theorem Blk.on_schedAll (dt : Nat) (cs : List Instr) (g : Fld) (i' j' : Nat) : (b.schedAll dt cs).on g i' j' = b.on g i' j' := rfl
@[simp] theorem Blk.actOn_schedAll (dt : Nat) (cs : List Instr) (g : Fld) (i' j' : Nat) : (b.schedAll dt cs).actOn g i' j' = b.actOn g i' j' := rfl
@[simp] theorem Blk.port_schedAll (dt : Nat) (cs : List Instr) (p' : Nat) : (b.schedAll dt cs).port p' = b.port p' := rfl
@[simp] theorem Blk.acq_schedAll (dt : Nat) (cs : List Instr) (k' : Nat) : (b.schedAll dt cs).acq k' = b.acq k' := rfl
@[simp] theorem Blk.seq_schedAll (dt : Nat) (cs : List Instr) (q' : Nat) : (b.schedAll dt cs).seq q' = b.seq q' := rfl
@[simp] theorem Blk.odr_schedAll (dt : Nat) (cs : List Instr) (n' : Nat) : (b.schedAll dt cs).odr n' = b.odr n' := rfl
@[simp] theorem Blk.regRcv_schedAll (dt : Nat) (cs : List Instr) (r' : Nat) : (b.schedAll dt cs).regRcv r' = b.regRcv r' := rfl

/-! ### emit -/

@[simp] theorem Blk.regs_emit (o : Out) : (b.emit o).regs = b.regs := rfl
@[simp] theorem Blk.force_emit (o : Out) : (b.emit o).force = b.force := rfl
@[simp] theorem Blk.is32_emit (o : Out) : (b.emit o).is32 = b.is32 := rfl
@[simp] theorem Blk.now_emit (o : Out) : (b.emit o).now = b.now := rfl
@[simp] theorem Blk.elapsed_emit (o : Out) : (b.emit o).elapsed = b.elapsed := rfl
@[simp] theorem Blk.tim_emit (o : Out) : (b.emit o).tim = b.tim := rfl
@[simp] theorem Blk.dlq_emit (o : Out) : (b.emit o).dlq = b.dlq := rfl
@[simp] theorem Blk.dlHeld_emit (o : Out) : (b.emit o).dlHeld = b.dlHeld := rfl
@[simp] theorem Blk.dlOrd_emit (o : Out) : (b.emit o).dlOrd = b.dlOrd := rfl
@[simp] theorem Blk.verdicts_emit (o : Out) : (b.emit o).verdicts = b.verdicts := rfl
@[simp] theorem Blk.agenda_emit (o : Out) : (b.emit o).agenda = b.agenda := rfl
@[simp] theorem Blk.tickStage_emit (o : Out) : (b.emit o).tickStage = b.tickStage := rfl
@[simp] theorem Blk.out_emit (o : Out) : (b.emit o).out = o :: b.out := rfl
@[simp] theorem Blk.freeCtr_emit (o : Out) : (b.emit o).freeCtr = b.freeCtr := rfl
@[simp] theorem Blk.ports_emit (o : Out) : (b.emit o).ports = b.ports := rfl
@[simp] theorem Blk.acqs_emit (o : Out) : (b.emit o).acqs = b.acqs := rfl
@[simp] theorem Blk.dsc_emit (o : Out) : (b.emit o).dsc = b.dsc := rfl
@[simp] theorem Blk.seqs_emit (o : Out) : (b.emit o).seqs = b.seqs := rfl
@[simp] theorem Blk.gov_emit (o : Out) : (b.emit o).gov = b.gov := rfl
@[simp] theorem Blk.odrs_emit (o : Out) : (b.emit o).odrs = b.odrs := rfl
@[simp] theorem Blk.evf_emit (o : Out) : (b.emit o).evf = b.evf := rfl
@[simp] theorem Blk.bias_emit (o : Out) : (b.emit o).bias = b.bias := rfl
@[simp] theorem Blk.mram_emit (o : Out) : (b.emit o).mram = b.mram := rfl
@[simp] theorem Blk.frn_emit (o : Out) : (b.emit o).frn = b.frn := rfl
@[simp] theorem Blk.trg_emit (o : Out) : (b.emit o).trg = b.trg := rfl
@[simp] theorem Blk.pwr_emit (o : Out) : (b.emit o).pwr = b.pwr := rfl
@[simp] theorem Blk.ddr_emit (o : Out) : (b.emit o).ddr = b.ddr := rfl
@[simp] theorem Blk.lnk_emit (o : Out) : (b.emit o).lnk = b.lnk := rfl
@[simp] theorem Blk.net_emit (o : Out) : (b.emit o).net = b.net := rfl
@[simp] theorem Blk.cal_emit (o : Out) : (b.emit o).cal = b.cal := rfl
@[simp] theorem Blk.rcv_emit (o : Out) : (b.emit o).rcv = b.rcv := rfl
@[simp] theorem Blk.hif_emit (o : Out) : (b.emit o).hif = b.hif := rfl
@[simp] theorem Blk.get_emit (o : Out) (k' : Key) : (b.emit o).get k' = b.get k' := rfl
@[simp] theorem Blk.rd_emit (o : Out) (g : Fld) (i' j' : Nat) : (b.emit o).rd g i' j' = b.rd g i' j' := rfl
@[simp] theorem Blk.act_emit (o : Out) (g : Fld) (i' j' : Nat) : (b.emit o).act g i' j' = b.act g i' j' := rfl
@[simp] theorem Blk.on_emit (o : Out) (g : Fld) (i' j' : Nat) : (b.emit o).on g i' j' = b.on g i' j' := rfl
@[simp] theorem Blk.actOn_emit (o : Out) (g : Fld) (i' j' : Nat) : (b.emit o).actOn g i' j' = b.actOn g i' j' := rfl
@[simp] theorem Blk.port_emit (o : Out) (p' : Nat) : (b.emit o).port p' = b.port p' := rfl
@[simp] theorem Blk.acq_emit (o : Out) (k' : Nat) : (b.emit o).acq k' = b.acq k' := rfl
@[simp] theorem Blk.seq_emit (o : Out) (q' : Nat) : (b.emit o).seq q' = b.seq q' := rfl
@[simp] theorem Blk.odr_emit (o : Out) (n' : Nat) : (b.emit o).odr n' = b.odr n' := rfl
@[simp] theorem Blk.regRcv_emit (o : Out) (r' : Nat) : (b.emit o).regRcv r' = b.regRcv r' := rfl

/-! ### spend -/

@[simp] theorem Blk.regs_spend : (b.spend).regs = b.regs := rfl
@[simp] theorem Blk.force_spend : (b.spend).force = b.force := rfl
@[simp] theorem Blk.is32_spend : (b.spend).is32 = b.is32 := rfl
@[simp] theorem Blk.now_spend : (b.spend).now = b.now := rfl
@[simp] theorem Blk.elapsed_spend : (b.spend).elapsed = b.elapsed := rfl
@[simp] theorem Blk.tim_spend : (b.spend).tim = b.tim := rfl
@[simp] theorem Blk.dlq_spend : (b.spend).dlq = b.dlq := rfl
@[simp] theorem Blk.dlHeld_spend : (b.spend).dlHeld = b.dlHeld := rfl
@[simp] theorem Blk.dlOrd_spend : (b.spend).dlOrd = b.dlOrd := rfl
@[simp] theorem Blk.verdicts_spend : (b.spend).verdicts = b.verdicts := rfl
@[simp] theorem Blk.agenda_spend : (b.spend).agenda = b.agenda := rfl
@[simp] theorem Blk.tickStage_spend : (b.spend).tickStage = b.tickStage := rfl
@[simp] theorem Blk.out_spend : (b.spend).out = b.out := rfl
@[simp] theorem Blk.freeCtr_spend : (b.spend).freeCtr = b.freeCtr + 1 := rfl
@[simp] theorem Blk.ports_spend : (b.spend).ports = b.ports := rfl
@[simp] theorem Blk.acqs_spend : (b.spend).acqs = b.acqs := rfl
@[simp] theorem Blk.dsc_spend : (b.spend).dsc = b.dsc := rfl
@[simp] theorem Blk.seqs_spend : (b.spend).seqs = b.seqs := rfl
@[simp] theorem Blk.gov_spend : (b.spend).gov = b.gov := rfl
@[simp] theorem Blk.odrs_spend : (b.spend).odrs = b.odrs := rfl
@[simp] theorem Blk.evf_spend : (b.spend).evf = b.evf := rfl
@[simp] theorem Blk.bias_spend : (b.spend).bias = b.bias := rfl
@[simp] theorem Blk.mram_spend : (b.spend).mram = b.mram := rfl
@[simp] theorem Blk.frn_spend : (b.spend).frn = b.frn := rfl
@[simp] theorem Blk.trg_spend : (b.spend).trg = b.trg := rfl
@[simp] theorem Blk.pwr_spend : (b.spend).pwr = b.pwr := rfl
@[simp] theorem Blk.ddr_spend : (b.spend).ddr = b.ddr := rfl
@[simp] theorem Blk.lnk_spend : (b.spend).lnk = b.lnk := rfl
@[simp] theorem Blk.net_spend : (b.spend).net = b.net := rfl
@[simp] theorem Blk.cal_spend : (b.spend).cal = b.cal := rfl
@[simp] theorem Blk.rcv_spend : (b.spend).rcv = b.rcv := rfl
@[simp] theorem Blk.hif_spend : (b.spend).hif = b.hif := rfl
@[simp] theorem Blk.get_spend (k' : Key) : (b.spend).get k' = b.get k' := rfl
@[simp] theorem Blk.rd_spend (g : Fld) (i' j' : Nat) : (b.spend).rd g i' j' = b.rd g i' j' := rfl
@[simp] theorem Blk.act_spend (g : Fld) (i' j' : Nat) : (b.spend).act g i' j' = b.act g i' j' := rfl
@[simp] theorem Blk.on_spend (g : Fld) (i' j' : Nat) : (b.spend).on g i' j' = b.on g i' j' := rfl
@[simp] theorem Blk.actOn_spend (g : Fld) (i' j' : Nat) : (b.spend).actOn g i' j' = b.actOn g i' j' := rfl
@[simp] theorem Blk.port_spend (p' : Nat) : (b.spend).port p' = b.port p' := rfl
@[simp] theorem Blk.acq_spend (k' : Nat) : (b.spend).acq k' = b.acq k' := rfl
@[simp] theorem Blk.seq_spend (q' : Nat) : (b.spend).seq q' = b.seq q' := rfl
@[simp] theorem Blk.odr_spend (n' : Nat) : (b.spend).odr n' = b.odr n' := rfl
@[simp] theorem Blk.regRcv_spend (r' : Nat) : (b.spend).regRcv r' = b.regRcv r' := rfl

/-! ### setPort -/

@[simp] theorem Blk.regs_setPort (p : Nat) (x : PortSt) : (b.setPort p x).regs = b.regs := rfl
@[simp] theorem Blk.force_setPort (p : Nat) (x : PortSt) : (b.setPort p x).force = b.force := rfl
@[simp] theorem Blk.is32_setPort (p : Nat) (x : PortSt) : (b.setPort p x).is32 = b.is32 := rfl
@[simp] theorem Blk.now_setPort (p : Nat) (x : PortSt) : (b.setPort p x).now = b.now := rfl
@[simp] theorem Blk.elapsed_setPort (p : Nat) (x : PortSt) : (b.setPort p x).elapsed = b.elapsed := rfl
@[simp] theorem Blk.tim_setPort (p : Nat) (x : PortSt) : (b.setPort p x).tim = b.tim := rfl
@[simp] theorem Blk.dlq_setPort (p : Nat) (x : PortSt) : (b.setPort p x).dlq = b.dlq := rfl
@[simp] theorem Blk.dlHeld_setPort (p : Nat) (x : PortSt) : (b.setPort p x).dlHeld = b.dlHeld := rfl
@[simp] theorem Blk.dlOrd_setPort (p : Nat) (x : PortSt) : (b.setPort p x).dlOrd = b.dlOrd := rfl
@[simp] theorem Blk.verdicts_setPort (p : Nat) (x : PortSt) : (b.setPort p x).verdicts = b.verdicts := rfl
@[simp] theorem Blk.agenda_setPort (p : Nat) (x : PortSt) : (b.setPort p x).agenda = b.agenda := rfl
@[simp] theorem Blk.tickStage_setPort (p : Nat) (x : PortSt) : (b.setPort p x).tickStage = b.tickStage := rfl
@[simp] theorem Blk.out_setPort (p : Nat) (x : PortSt) : (b.setPort p x).out = b.out := rfl
@[simp] theorem Blk.freeCtr_setPort (p : Nat) (x : PortSt) : (b.setPort p x).freeCtr = b.freeCtr := rfl
@[simp] theorem Blk.ports_setPort (p : Nat) (x : PortSt) : (b.setPort p x).ports = b.ports.set p x := rfl
@[simp] theorem Blk.acqs_setPort (p : Nat) (x : PortSt) : (b.setPort p x).acqs = b.acqs := rfl
@[simp] theorem Blk.dsc_setPort (p : Nat) (x : PortSt) : (b.setPort p x).dsc = b.dsc := rfl
@[simp] theorem Blk.seqs_setPort (p : Nat) (x : PortSt) : (b.setPort p x).seqs = b.seqs := rfl
@[simp] theorem Blk.gov_setPort (p : Nat) (x : PortSt) : (b.setPort p x).gov = b.gov := rfl
@[simp] theorem Blk.odrs_setPort (p : Nat) (x : PortSt) : (b.setPort p x).odrs = b.odrs := rfl
@[simp] theorem Blk.evf_setPort (p : Nat) (x : PortSt) : (b.setPort p x).evf = b.evf := rfl
@[simp] theorem Blk.bias_setPort (p : Nat) (x : PortSt) : (b.setPort p x).bias = b.bias := rfl
@[simp] theorem Blk.mram_setPort (p : Nat) (x : PortSt) : (b.setPort p x).mram = b.mram := rfl
@[simp] theorem Blk.frn_setPort (p : Nat) (x : PortSt) : (b.setPort p x).frn = b.frn := rfl
@[simp] theorem Blk.trg_setPort (p : Nat) (x : PortSt) : (b.setPort p x).trg = b.trg := rfl
@[simp] theorem Blk.pwr_setPort (p : Nat) (x : PortSt) : (b.setPort p x).pwr = b.pwr := rfl
@[simp] theorem Blk.ddr_setPort (p : Nat) (x : PortSt) : (b.setPort p x).ddr = b.ddr := rfl
@[simp] theorem Blk.lnk_setPort (p : Nat) (x : PortSt) : (b.setPort p x).lnk = b.lnk := rfl
@[simp] theorem Blk.net_setPort (p : Nat) (x : PortSt) : (b.setPort p x).net = b.net := rfl
@[simp] theorem Blk.cal_setPort (p : Nat) (x : PortSt) : (b.setPort p x).cal = b.cal := rfl
@[simp] theorem Blk.rcv_setPort (p : Nat) (x : PortSt) : (b.setPort p x).rcv = b.rcv := rfl
@[simp] theorem Blk.hif_setPort (p : Nat) (x : PortSt) : (b.setPort p x).hif = b.hif := rfl
@[simp] theorem Blk.get_setPort (p : Nat) (x : PortSt) (k' : Key) : (b.setPort p x).get k' = b.get k' := rfl
@[simp] theorem Blk.rd_setPort (p : Nat) (x : PortSt) (g : Fld) (i' j' : Nat) : (b.setPort p x).rd g i' j' = b.rd g i' j' := rfl
@[simp] theorem Blk.act_setPort (p : Nat) (x : PortSt) (g : Fld) (i' j' : Nat) : (b.setPort p x).act g i' j' = b.act g i' j' := rfl
@[simp] theorem Blk.on_setPort (p : Nat) (x : PortSt) (g : Fld) (i' j' : Nat) : (b.setPort p x).on g i' j' = b.on g i' j' := rfl
@[simp] theorem Blk.actOn_setPort (p : Nat) (x : PortSt) (g : Fld) (i' j' : Nat) : (b.setPort p x).actOn g i' j' = b.actOn g i' j' := rfl
@[simp] theorem Blk.acq_setPort (p : Nat) (x : PortSt) (k' : Nat) : (b.setPort p x).acq k' = b.acq k' := rfl
@[simp] theorem Blk.seq_setPort (p : Nat) (x : PortSt) (q' : Nat) : (b.setPort p x).seq q' = b.seq q' := rfl
@[simp] theorem Blk.odr_setPort (p : Nat) (x : PortSt) (n' : Nat) : (b.setPort p x).odr n' = b.odr n' := rfl
@[simp] theorem Blk.regRcv_setPort (p : Nat) (x : PortSt) (r' : Nat) : (b.setPort p x).regRcv r' = b.regRcv r' := rfl

/-! ### setAcq -/

@[simp] theorem Blk.regs_setAcq (k : Nat) (x : AcqSt) : (b.setAcq k x).regs = b.regs := rfl
@[simp] theorem Blk.force_setAcq (k : Nat) (x : AcqSt) : (b.setAcq k x).force = b.force := rfl
@[simp] theorem Blk.is32_setAcq (k : Nat) (x : AcqSt) : (b.setAcq k x).is32 = b.is32 := rfl
@[simp] theorem Blk.now_setAcq (k : Nat) (x : AcqSt) : (b.setAcq k x).now = b.now := rfl
@[simp] theorem Blk.elapsed_setAcq (k : Nat) (x : AcqSt) : (b.setAcq k x).elapsed = b.elapsed := rfl
@[simp] theorem Blk.tim_setAcq (k : Nat) (x : AcqSt) : (b.setAcq k x).tim = b.tim := rfl
@[simp] theorem Blk.dlq_setAcq (k : Nat) (x : AcqSt) : (b.setAcq k x).dlq = b.dlq := rfl
@[simp] theorem Blk.dlHeld_setAcq (k : Nat) (x : AcqSt) : (b.setAcq k x).dlHeld = b.dlHeld := rfl
@[simp] theorem Blk.dlOrd_setAcq (k : Nat) (x : AcqSt) : (b.setAcq k x).dlOrd = b.dlOrd := rfl
@[simp] theorem Blk.verdicts_setAcq (k : Nat) (x : AcqSt) : (b.setAcq k x).verdicts = b.verdicts := rfl
@[simp] theorem Blk.agenda_setAcq (k : Nat) (x : AcqSt) : (b.setAcq k x).agenda = b.agenda := rfl
@[simp] theorem Blk.tickStage_setAcq (k : Nat) (x : AcqSt) : (b.setAcq k x).tickStage = b.tickStage := rfl
@[simp] theorem Blk.out_setAcq (k : Nat) (x : AcqSt) : (b.setAcq k x).out = b.out := rfl
@[simp] theorem Blk.freeCtr_setAcq (k : Nat) (x : AcqSt) : (b.setAcq k x).freeCtr = b.freeCtr := rfl
@[simp] theorem Blk.ports_setAcq (k : Nat) (x : AcqSt) : (b.setAcq k x).ports = b.ports := rfl
@[simp] theorem Blk.acqs_setAcq (k : Nat) (x : AcqSt) : (b.setAcq k x).acqs = b.acqs.set k x := rfl
@[simp] theorem Blk.dsc_setAcq (k : Nat) (x : AcqSt) : (b.setAcq k x).dsc = b.dsc := rfl
@[simp] theorem Blk.seqs_setAcq (k : Nat) (x : AcqSt) : (b.setAcq k x).seqs = b.seqs := rfl
@[simp] theorem Blk.gov_setAcq (k : Nat) (x : AcqSt) : (b.setAcq k x).gov = b.gov := rfl
@[simp] theorem Blk.odrs_setAcq (k : Nat) (x : AcqSt) : (b.setAcq k x).odrs = b.odrs := rfl
@[simp] theorem Blk.evf_setAcq (k : Nat) (x : AcqSt) : (b.setAcq k x).evf = b.evf := rfl
@[simp] theorem Blk.bias_setAcq (k : Nat) (x : AcqSt) : (b.setAcq k x).bias = b.bias := rfl
@[simp] theorem Blk.mram_setAcq (k : Nat) (x : AcqSt) : (b.setAcq k x).mram = b.mram := rfl
@[simp] theorem Blk.frn_setAcq (k : Nat) (x : AcqSt) : (b.setAcq k x).frn = b.frn := rfl
@[simp] theorem Blk.trg_setAcq (k : Nat) (x : AcqSt) : (b.setAcq k x).trg = b.trg := rfl
@[simp] theorem Blk.pwr_setAcq (k : Nat) (x : AcqSt) : (b.setAcq k x).pwr = b.pwr := rfl
@[simp] theorem Blk.ddr_setAcq (k : Nat) (x : AcqSt) : (b.setAcq k x).ddr = b.ddr := rfl
@[simp] theorem Blk.lnk_setAcq (k : Nat) (x : AcqSt) : (b.setAcq k x).lnk = b.lnk := rfl
@[simp] theorem Blk.net_setAcq (k : Nat) (x : AcqSt) : (b.setAcq k x).net = b.net := rfl
@[simp] theorem Blk.cal_setAcq (k : Nat) (x : AcqSt) : (b.setAcq k x).cal = b.cal := rfl
@[simp] theorem Blk.rcv_setAcq (k : Nat) (x : AcqSt) : (b.setAcq k x).rcv = b.rcv := rfl
@[simp] theorem Blk.hif_setAcq (k : Nat) (x : AcqSt) : (b.setAcq k x).hif = b.hif := rfl
@[simp] theorem Blk.get_setAcq (k : Nat) (x : AcqSt) (k' : Key) : (b.setAcq k x).get k' = b.get k' := rfl
@[simp] theorem Blk.rd_setAcq (k : Nat) (x : AcqSt) (g : Fld) (i' j' : Nat) : (b.setAcq k x).rd g i' j' = b.rd g i' j' := rfl
@[simp] theorem Blk.act_setAcq (k : Nat) (x : AcqSt) (g : Fld) (i' j' : Nat) : (b.setAcq k x).act g i' j' = b.act g i' j' := rfl
@[simp] theorem Blk.on_setAcq (k : Nat) (x : AcqSt) (g : Fld) (i' j' : Nat) : (b.setAcq k x).on g i' j' = b.on g i' j' := rfl
@[simp] theorem Blk.actOn_setAcq (k : Nat) (x : AcqSt) (g : Fld) (i' j' : Nat) : (b.setAcq k x).actOn g i' j' = b.actOn g i' j' := rfl
@[simp] theorem Blk.port_setAcq (k : Nat) (x : AcqSt) (p' : Nat) : (b.setAcq k x).port p' = b.port p' := rfl
@[simp] theorem Blk.seq_setAcq (k : Nat) (x : AcqSt) (q' : Nat) : (b.setAcq k x).seq q' = b.seq q' := rfl
@[simp] theorem Blk.odr_setAcq (k : Nat) (x : AcqSt) (n' : Nat) : (b.setAcq k x).odr n' = b.odr n' := rfl
@[simp] theorem Blk.regRcv_setAcq (k : Nat) (x : AcqSt) (r' : Nat) : (b.setAcq k x).regRcv r' = b.regRcv r' := rfl

/-! ### setSeq -/

@[simp] theorem Blk.regs_setSeq (q : Nat) (x : SeqSt) : (b.setSeq q x).regs = b.regs := rfl
@[simp] theorem Blk.force_setSeq (q : Nat) (x : SeqSt) : (b.setSeq q x).force = b.force := rfl
@[simp] theorem Blk.is32_setSeq (q : Nat) (x : SeqSt) : (b.setSeq q x).is32 = b.is32 := rfl
@[simp] theorem Blk.now_setSeq (q : Nat) (x : SeqSt) : (b.setSeq q x).now = b.now := rfl
@[simp] theorem Blk.elapsed_setSeq (q : Nat) (x : SeqSt) : (b.setSeq q x).elapsed = b.elapsed := rfl
@[simp] theorem Blk.tim_setSeq (q : Nat) (x : SeqSt) : (b.setSeq q x).tim = b.tim := rfl
@[simp] theorem Blk.dlq_setSeq (q : Nat) (x : SeqSt) : (b.setSeq q x).dlq = b.dlq := rfl
@[simp] theorem Blk.dlHeld_setSeq (q : Nat) (x : SeqSt) : (b.setSeq q x).dlHeld = b.dlHeld := rfl
@[simp] theorem Blk.dlOrd_setSeq (q : Nat) (x : SeqSt) : (b.setSeq q x).dlOrd = b.dlOrd := rfl
@[simp] theorem Blk.verdicts_setSeq (q : Nat) (x : SeqSt) : (b.setSeq q x).verdicts = b.verdicts := rfl
@[simp] theorem Blk.agenda_setSeq (q : Nat) (x : SeqSt) : (b.setSeq q x).agenda = b.agenda := rfl
@[simp] theorem Blk.tickStage_setSeq (q : Nat) (x : SeqSt) : (b.setSeq q x).tickStage = b.tickStage := rfl
@[simp] theorem Blk.out_setSeq (q : Nat) (x : SeqSt) : (b.setSeq q x).out = b.out := rfl
@[simp] theorem Blk.freeCtr_setSeq (q : Nat) (x : SeqSt) : (b.setSeq q x).freeCtr = b.freeCtr := rfl
@[simp] theorem Blk.ports_setSeq (q : Nat) (x : SeqSt) : (b.setSeq q x).ports = b.ports := rfl
@[simp] theorem Blk.acqs_setSeq (q : Nat) (x : SeqSt) : (b.setSeq q x).acqs = b.acqs := rfl
@[simp] theorem Blk.dsc_setSeq (q : Nat) (x : SeqSt) : (b.setSeq q x).dsc = b.dsc := rfl
@[simp] theorem Blk.seqs_setSeq (q : Nat) (x : SeqSt) : (b.setSeq q x).seqs = b.seqs.set q x := rfl
@[simp] theorem Blk.gov_setSeq (q : Nat) (x : SeqSt) : (b.setSeq q x).gov = b.gov := rfl
@[simp] theorem Blk.odrs_setSeq (q : Nat) (x : SeqSt) : (b.setSeq q x).odrs = b.odrs := rfl
@[simp] theorem Blk.evf_setSeq (q : Nat) (x : SeqSt) : (b.setSeq q x).evf = b.evf := rfl
@[simp] theorem Blk.bias_setSeq (q : Nat) (x : SeqSt) : (b.setSeq q x).bias = b.bias := rfl
@[simp] theorem Blk.mram_setSeq (q : Nat) (x : SeqSt) : (b.setSeq q x).mram = b.mram := rfl
@[simp] theorem Blk.frn_setSeq (q : Nat) (x : SeqSt) : (b.setSeq q x).frn = b.frn := rfl
@[simp] theorem Blk.trg_setSeq (q : Nat) (x : SeqSt) : (b.setSeq q x).trg = b.trg := rfl
@[simp] theorem Blk.pwr_setSeq (q : Nat) (x : SeqSt) : (b.setSeq q x).pwr = b.pwr := rfl
@[simp] theorem Blk.ddr_setSeq (q : Nat) (x : SeqSt) : (b.setSeq q x).ddr = b.ddr := rfl
@[simp] theorem Blk.lnk_setSeq (q : Nat) (x : SeqSt) : (b.setSeq q x).lnk = b.lnk := rfl
@[simp] theorem Blk.net_setSeq (q : Nat) (x : SeqSt) : (b.setSeq q x).net = b.net := rfl
@[simp] theorem Blk.cal_setSeq (q : Nat) (x : SeqSt) : (b.setSeq q x).cal = b.cal := rfl
@[simp] theorem Blk.rcv_setSeq (q : Nat) (x : SeqSt) : (b.setSeq q x).rcv = b.rcv := rfl
@[simp] theorem Blk.hif_setSeq (q : Nat) (x : SeqSt) : (b.setSeq q x).hif = b.hif := rfl
@[simp] theorem Blk.get_setSeq (q : Nat) (x : SeqSt) (k' : Key) : (b.setSeq q x).get k' = b.get k' := rfl
@[simp] theorem Blk.rd_setSeq (q : Nat) (x : SeqSt) (g : Fld) (i' j' : Nat) : (b.setSeq q x).rd g i' j' = b.rd g i' j' := rfl
@[simp] theorem Blk.act_setSeq (q : Nat) (x : SeqSt) (g : Fld) (i' j' : Nat) : (b.setSeq q x).act g i' j' = b.act g i' j' := rfl
@[simp] theorem Blk.on_setSeq (q : Nat) (x : SeqSt) (g : Fld) (i' j' : Nat) : (b.setSeq q x).on g i' j' = b.on g i' j' := rfl
@[simp] theorem Blk.actOn_setSeq (q : Nat) (x : SeqSt) (g : Fld) (i' j' : Nat) : (b.setSeq q x).actOn g i' j' = b.actOn g i' j' := rfl
@[simp] theorem Blk.port_setSeq (q : Nat) (x : SeqSt) (p' : Nat) : (b.setSeq q x).port p' = b.port p' := rfl
@[simp] theorem Blk.acq_setSeq (q : Nat) (x : SeqSt) (k' : Nat) : (b.setSeq q x).acq k' = b.acq k' := rfl
@[simp] theorem Blk.odr_setSeq (q : Nat) (x : SeqSt) (n' : Nat) : (b.setSeq q x).odr n' = b.odr n' := rfl
@[simp] theorem Blk.regRcv_setSeq (q : Nat) (x : SeqSt) (r' : Nat) : (b.setSeq q x).regRcv r' = b.regRcv r' := rfl

/-! ### setOdr -/

@[simp] theorem Blk.regs_setOdr (n : Nat) (x : OdrSt) : (b.setOdr n x).regs = b.regs := rfl
@[simp] theorem Blk.force_setOdr (n : Nat) (x : OdrSt) : (b.setOdr n x).force = b.force := rfl
@[simp] theorem Blk.is32_setOdr (n : Nat) (x : OdrSt) : (b.setOdr n x).is32 = b.is32 := rfl
@[simp] theorem Blk.now_setOdr (n : Nat) (x : OdrSt) : (b.setOdr n x).now = b.now := rfl
@[simp] theorem Blk.elapsed_setOdr (n : Nat) (x : OdrSt) : (b.setOdr n x).elapsed = b.elapsed := rfl
@[simp] theorem Blk.tim_setOdr (n : Nat) (x : OdrSt) : (b.setOdr n x).tim = b.tim := rfl
@[simp] theorem Blk.dlq_setOdr (n : Nat) (x : OdrSt) : (b.setOdr n x).dlq = b.dlq := rfl
@[simp] theorem Blk.dlHeld_setOdr (n : Nat) (x : OdrSt) : (b.setOdr n x).dlHeld = b.dlHeld := rfl
@[simp] theorem Blk.dlOrd_setOdr (n : Nat) (x : OdrSt) : (b.setOdr n x).dlOrd = b.dlOrd := rfl
@[simp] theorem Blk.verdicts_setOdr (n : Nat) (x : OdrSt) : (b.setOdr n x).verdicts = b.verdicts := rfl
@[simp] theorem Blk.agenda_setOdr (n : Nat) (x : OdrSt) : (b.setOdr n x).agenda = b.agenda := rfl
@[simp] theorem Blk.tickStage_setOdr (n : Nat) (x : OdrSt) : (b.setOdr n x).tickStage = b.tickStage := rfl
@[simp] theorem Blk.out_setOdr (n : Nat) (x : OdrSt) : (b.setOdr n x).out = b.out := rfl
@[simp] theorem Blk.freeCtr_setOdr (n : Nat) (x : OdrSt) : (b.setOdr n x).freeCtr = b.freeCtr := rfl
@[simp] theorem Blk.ports_setOdr (n : Nat) (x : OdrSt) : (b.setOdr n x).ports = b.ports := rfl
@[simp] theorem Blk.acqs_setOdr (n : Nat) (x : OdrSt) : (b.setOdr n x).acqs = b.acqs := rfl
@[simp] theorem Blk.dsc_setOdr (n : Nat) (x : OdrSt) : (b.setOdr n x).dsc = b.dsc := rfl
@[simp] theorem Blk.seqs_setOdr (n : Nat) (x : OdrSt) : (b.setOdr n x).seqs = b.seqs := rfl
@[simp] theorem Blk.gov_setOdr (n : Nat) (x : OdrSt) : (b.setOdr n x).gov = b.gov := rfl
@[simp] theorem Blk.odrs_setOdr (n : Nat) (x : OdrSt) : (b.setOdr n x).odrs = b.odrs.set n x := rfl
@[simp] theorem Blk.evf_setOdr (n : Nat) (x : OdrSt) : (b.setOdr n x).evf = b.evf := rfl
@[simp] theorem Blk.bias_setOdr (n : Nat) (x : OdrSt) : (b.setOdr n x).bias = b.bias := rfl
@[simp] theorem Blk.mram_setOdr (n : Nat) (x : OdrSt) : (b.setOdr n x).mram = b.mram := rfl
@[simp] theorem Blk.frn_setOdr (n : Nat) (x : OdrSt) : (b.setOdr n x).frn = b.frn := rfl
@[simp] theorem Blk.trg_setOdr (n : Nat) (x : OdrSt) : (b.setOdr n x).trg = b.trg := rfl
@[simp] theorem Blk.pwr_setOdr (n : Nat) (x : OdrSt) : (b.setOdr n x).pwr = b.pwr := rfl
@[simp] theorem Blk.ddr_setOdr (n : Nat) (x : OdrSt) : (b.setOdr n x).ddr = b.ddr := rfl
@[simp] theorem Blk.lnk_setOdr (n : Nat) (x : OdrSt) : (b.setOdr n x).lnk = b.lnk := rfl
@[simp] theorem Blk.net_setOdr (n : Nat) (x : OdrSt) : (b.setOdr n x).net = b.net := rfl
@[simp] theorem Blk.cal_setOdr (n : Nat) (x : OdrSt) : (b.setOdr n x).cal = b.cal := rfl
@[simp] theorem Blk.rcv_setOdr (n : Nat) (x : OdrSt) : (b.setOdr n x).rcv = b.rcv := rfl
@[simp] theorem Blk.hif_setOdr (n : Nat) (x : OdrSt) : (b.setOdr n x).hif = b.hif := rfl
@[simp] theorem Blk.get_setOdr (n : Nat) (x : OdrSt) (k' : Key) : (b.setOdr n x).get k' = b.get k' := rfl
@[simp] theorem Blk.rd_setOdr (n : Nat) (x : OdrSt) (g : Fld) (i' j' : Nat) : (b.setOdr n x).rd g i' j' = b.rd g i' j' := rfl
@[simp] theorem Blk.act_setOdr (n : Nat) (x : OdrSt) (g : Fld) (i' j' : Nat) : (b.setOdr n x).act g i' j' = b.act g i' j' := rfl
@[simp] theorem Blk.on_setOdr (n : Nat) (x : OdrSt) (g : Fld) (i' j' : Nat) : (b.setOdr n x).on g i' j' = b.on g i' j' := rfl
@[simp] theorem Blk.actOn_setOdr (n : Nat) (x : OdrSt) (g : Fld) (i' j' : Nat) : (b.setOdr n x).actOn g i' j' = b.actOn g i' j' := rfl
@[simp] theorem Blk.port_setOdr (n : Nat) (x : OdrSt) (p' : Nat) : (b.setOdr n x).port p' = b.port p' := rfl
@[simp] theorem Blk.acq_setOdr (n : Nat) (x : OdrSt) (k' : Nat) : (b.setOdr n x).acq k' = b.acq k' := rfl
@[simp] theorem Blk.seq_setOdr (n : Nat) (x : OdrSt) (q' : Nat) : (b.setOdr n x).seq q' = b.seq q' := rfl
@[simp] theorem Blk.regRcv_setOdr (n : Nat) (x : OdrSt) (r' : Nat) : (b.setOdr n x).regRcv r' = b.regRcv r' := rfl

/-! ### setEvf -/

@[simp] theorem Blk.regs_setEvf (x : EvfSt) : (b.setEvf x).regs = b.regs := rfl
@[simp] theorem Blk.force_setEvf (x : EvfSt) : (b.setEvf x).force = b.force := rfl
@[simp] theorem Blk.is32_setEvf (x : EvfSt) : (b.setEvf x).is32 = b.is32 := rfl
@[simp] theorem Blk.now_setEvf (x : EvfSt) : (b.setEvf x).now = b.now := rfl
@[simp] theorem Blk.elapsed_setEvf (x : EvfSt) : (b.setEvf x).elapsed = b.elapsed := rfl
@[simp] theorem Blk.tim_setEvf (x : EvfSt) : (b.setEvf x).tim = b.tim := rfl
@[simp] theorem Blk.dlq_setEvf (x : EvfSt) : (b.setEvf x).dlq = b.dlq := rfl
@[simp] theorem Blk.dlHeld_setEvf (x : EvfSt) : (b.setEvf x).dlHeld = b.dlHeld := rfl
@[simp] theorem Blk.dlOrd_setEvf (x : EvfSt) : (b.setEvf x).dlOrd = b.dlOrd := rfl
@[simp] theorem Blk.verdicts_setEvf (x : EvfSt) : (b.setEvf x).verdicts = b.verdicts := rfl
@[simp] theorem Blk.agenda_setEvf (x : EvfSt) : (b.setEvf x).agenda = b.agenda := rfl
@[simp] theorem Blk.tickStage_setEvf (x : EvfSt) : (b.setEvf x).tickStage = b.tickStage := rfl
@[simp] theorem Blk.out_setEvf (x : EvfSt) : (b.setEvf x).out = b.out := rfl
@[simp] theorem Blk.freeCtr_setEvf (x : EvfSt) : (b.setEvf x).freeCtr = b.freeCtr := rfl
@[simp] theorem Blk.ports_setEvf (x : EvfSt) : (b.setEvf x).ports = b.ports := rfl
@[simp] theorem Blk.acqs_setEvf (x : EvfSt) : (b.setEvf x).acqs = b.acqs := rfl
@[simp] theorem Blk.dsc_setEvf (x : EvfSt) : (b.setEvf x).dsc = b.dsc := rfl
@[simp] theorem Blk.seqs_setEvf (x : EvfSt) : (b.setEvf x).seqs = b.seqs := rfl
@[simp] theorem Blk.gov_setEvf (x : EvfSt) : (b.setEvf x).gov = b.gov := rfl
@[simp] theorem Blk.odrs_setEvf (x : EvfSt) : (b.setEvf x).odrs = b.odrs := rfl
@[simp] theorem Blk.evf_setEvf (x : EvfSt) : (b.setEvf x).evf = x := rfl
@[simp] theorem Blk.bias_setEvf (x : EvfSt) : (b.setEvf x).bias = b.bias := rfl
@[simp] theorem Blk.mram_setEvf (x : EvfSt) : (b.setEvf x).mram = b.mram := rfl
@[simp] theorem Blk.frn_setEvf (x : EvfSt) : (b.setEvf x).frn = b.frn := rfl
@[simp] theorem Blk.trg_setEvf (x : EvfSt) : (b.setEvf x).trg = b.trg := rfl
@[simp] theorem Blk.pwr_setEvf (x : EvfSt) : (b.setEvf x).pwr = b.pwr := rfl
@[simp] theorem Blk.ddr_setEvf (x : EvfSt) : (b.setEvf x).ddr = b.ddr := rfl
@[simp] theorem Blk.lnk_setEvf (x : EvfSt) : (b.setEvf x).lnk = b.lnk := rfl
@[simp] theorem Blk.net_setEvf (x : EvfSt) : (b.setEvf x).net = b.net := rfl
@[simp] theorem Blk.cal_setEvf (x : EvfSt) : (b.setEvf x).cal = b.cal := rfl
@[simp] theorem Blk.rcv_setEvf (x : EvfSt) : (b.setEvf x).rcv = b.rcv := rfl
@[simp] theorem Blk.hif_setEvf (x : EvfSt) : (b.setEvf x).hif = b.hif := rfl
@[simp] theorem Blk.get_setEvf (x : EvfSt) (k' : Key) : (b.setEvf x).get k' = b.get k' := rfl
@[simp] theorem Blk.rd_setEvf (x : EvfSt) (g : Fld) (i' j' : Nat) : (b.setEvf x).rd g i' j' = b.rd g i' j' := rfl
@[simp] theorem Blk.act_setEvf (x : EvfSt) (g : Fld) (i' j' : Nat) : (b.setEvf x).act g i' j' = b.act g i' j' := rfl
@[simp] theorem Blk.on_setEvf (x : EvfSt) (g : Fld) (i' j' : Nat) : (b.setEvf x).on g i' j' = b.on g i' j' := rfl
@[simp] theorem Blk.actOn_setEvf (x : EvfSt) (g : Fld) (i' j' : Nat) : (b.setEvf x).actOn g i' j' = b.actOn g i' j' := rfl
@[simp] theorem Blk.port_setEvf (x : EvfSt) (p' : Nat) : (b.setEvf x).port p' = b.port p' := rfl
@[simp] theorem Blk.acq_setEvf (x : EvfSt) (k' : Nat) : (b.setEvf x).acq k' = b.acq k' := rfl
@[simp] theorem Blk.seq_setEvf (x : EvfSt) (q' : Nat) : (b.setEvf x).seq q' = b.seq q' := rfl
@[simp] theorem Blk.odr_setEvf (x : EvfSt) (n' : Nat) : (b.setEvf x).odr n' = b.odr n' := rfl
@[simp] theorem Blk.regRcv_setEvf (x : EvfSt) (r' : Nat) : (b.setEvf x).regRcv r' = b.regRcv r' := rfl

/-! ### setRot -/

@[simp] theorem Blk.regs_setRot (r : Nat) (x : RotSt) : (b.setRot r x).regs = b.regs := rfl
@[simp] theorem Blk.force_setRot (r : Nat) (x : RotSt) : (b.setRot r x).force = b.force := rfl
@[simp] theorem Blk.is32_setRot (r : Nat) (x : RotSt) : (b.setRot r x).is32 = b.is32 := rfl
@[simp] theorem Blk.now_setRot (r : Nat) (x : RotSt) : (b.setRot r x).now = b.now := rfl
@[simp] theorem Blk.elapsed_setRot (r : Nat) (x : RotSt) : (b.setRot r x).elapsed = b.elapsed := rfl
@[simp] theorem Blk.tim_setRot (r : Nat) (x : RotSt) : (b.setRot r x).tim = b.tim := rfl
@[simp] theorem Blk.dlq_setRot (r : Nat) (x : RotSt) : (b.setRot r x).dlq = b.dlq := rfl
@[simp] theorem Blk.dlHeld_setRot (r : Nat) (x : RotSt) : (b.setRot r x).dlHeld = b.dlHeld := rfl
@[simp] theorem Blk.dlOrd_setRot (r : Nat) (x : RotSt) : (b.setRot r x).dlOrd = b.dlOrd := rfl
@[simp] theorem Blk.verdicts_setRot (r : Nat) (x : RotSt) : (b.setRot r x).verdicts = b.verdicts := rfl
@[simp] theorem Blk.agenda_setRot (r : Nat) (x : RotSt) : (b.setRot r x).agenda = b.agenda := rfl
@[simp] theorem Blk.tickStage_setRot (r : Nat) (x : RotSt) : (b.setRot r x).tickStage = b.tickStage := rfl
@[simp] theorem Blk.out_setRot (r : Nat) (x : RotSt) : (b.setRot r x).out = b.out := rfl
@[simp] theorem Blk.freeCtr_setRot (r : Nat) (x : RotSt) : (b.setRot r x).freeCtr = b.freeCtr := rfl
@[simp] theorem Blk.ports_setRot (r : Nat) (x : RotSt) : (b.setRot r x).ports = b.ports := rfl
@[simp] theorem Blk.acqs_setRot (r : Nat) (x : RotSt) : (b.setRot r x).acqs = b.acqs := rfl
@[simp] theorem Blk.dsc_setRot (r : Nat) (x : RotSt) : (b.setRot r x).dsc = b.dsc := rfl
@[simp] theorem Blk.seqs_setRot (r : Nat) (x : RotSt) : (b.setRot r x).seqs = b.seqs := rfl
@[simp] theorem Blk.gov_setRot (r : Nat) (x : RotSt) : (b.setRot r x).gov = b.gov := rfl
@[simp] theorem Blk.odrs_setRot (r : Nat) (x : RotSt) : (b.setRot r x).odrs = b.odrs := rfl
@[simp] theorem Blk.evf_setRot (r : Nat) (x : RotSt) : (b.setRot r x).evf = b.evf := rfl
@[simp] theorem Blk.bias_setRot (r : Nat) (x : RotSt) : (b.setRot r x).bias = b.bias := rfl
@[simp] theorem Blk.mram_setRot (r : Nat) (x : RotSt) : (b.setRot r x).mram = b.mram := rfl
@[simp] theorem Blk.frn_setRot (r : Nat) (x : RotSt) : (b.setRot r x).frn = b.frn := rfl
@[simp] theorem Blk.trg_setRot (r : Nat) (x : RotSt) : (b.setRot r x).trg = b.trg := rfl
@[simp] theorem Blk.pwr_setRot (r : Nat) (x : RotSt) : (b.setRot r x).pwr = b.pwr := rfl
@[simp] theorem Blk.ddr_setRot (r : Nat) (x : RotSt) : (b.setRot r x).ddr = b.ddr := rfl
@[simp] theorem Blk.lnk_setRot (r : Nat) (x : RotSt) : (b.setRot r x).lnk = b.lnk := rfl
@[simp] theorem Blk.net_setRot (r : Nat) (x : RotSt) : (b.setRot r x).net = b.net := rfl
@[simp] theorem Blk.cal_setRot (r : Nat) (x : RotSt) : (b.setRot r x).cal = { b.cal with rot := b.cal.rot.set r x } := rfl
@[simp] theorem Blk.rcv_setRot (r : Nat) (x : RotSt) : (b.setRot r x).rcv = b.rcv := rfl
@[simp] theorem Blk.hif_setRot (r : Nat) (x : RotSt) : (b.setRot r x).hif = b.hif := rfl
@[simp] theorem Blk.get_setRot (r : Nat) (x : RotSt) (k' : Key) : (b.setRot r x).get k' = b.get k' := rfl
@[simp] theorem Blk.rd_setRot (r : Nat) (x : RotSt) (g : Fld) (i' j' : Nat) : (b.setRot r x).rd g i' j' = b.rd g i' j' := rfl
@[simp] theorem Blk.act_setRot (r : Nat) (x : RotSt) (g : Fld) (i' j' : Nat) : (b.setRot r x).act g i' j' = b.act g i' j' := rfl
@[simp] theorem Blk.on_setRot (r : Nat) (x : RotSt) (g : Fld) (i' j' : Nat) : (b.setRot r x).on g i' j' = b.on g i' j' := rfl
@[simp] theorem Blk.actOn_setRot (r : Nat) (x : RotSt) (g : Fld) (i' j' : Nat) : (b.setRot r x).actOn g i' j' = b.actOn g i' j' := rfl
@[simp] theorem Blk.port_setRot (r : Nat) (x : RotSt) (p' : Nat) : (b.setRot r x).port p' = b.port p' := rfl
@[simp] theorem Blk.acq_setRot (r : Nat) (x : RotSt) (k' : Nat) : (b.setRot r x).acq k' = b.acq k' := rfl
@[simp] theorem Blk.seq_setRot (r : Nat) (x : RotSt) (q' : Nat) : (b.setRot r x).seq q' = b.seq q' := rfl
@[simp] theorem Blk.odr_setRot (r : Nat) (x : RotSt) (n' : Nat) : (b.setRot r x).odr n' = b.odr n' := rfl
@[simp] theorem Blk.regRcv_setRot (r : Nat) (x : RotSt) (r' : Nat) : (b.setRot r x).regRcv r' = b.regRcv r' := rfl

/-! ### setAdcCal -/

@[simp] theorem Blk.regs_setAdcCal (k : Nat) (x : AdcCal) : (b.setAdcCal k x).regs = b.regs := rfl
@[simp] theorem Blk.force_setAdcCal (k : Nat) (x : AdcCal) : (b.setAdcCal k x).force = b.force := rfl
@[simp] theorem Blk.is32_setAdcCal (k : Nat) (x : AdcCal) : (b.setAdcCal k x).is32 = b.is32 := rfl
@[simp] theorem Blk.now_setAdcCal (k : Nat) (x : AdcCal) : (b.setAdcCal k x).now = b.now := rfl
@[simp] theorem Blk.elapsed_setAdcCal (k : Nat) (x : AdcCal) : (b.setAdcCal k x).elapsed = b.elapsed := rfl
@[simp] theorem Blk.tim_setAdcCal (k : Nat) (x : AdcCal) : (b.setAdcCal k x).tim = b.tim := rfl
@[simp] theorem Blk.dlq_setAdcCal (k : Nat) (x : AdcCal) : (b.setAdcCal k x).dlq = b.dlq := rfl
@[simp] theorem Blk.dlHeld_setAdcCal (k : Nat) (x : AdcCal) : (b.setAdcCal k x).dlHeld = b.dlHeld := rfl
@[simp] theorem Blk.dlOrd_setAdcCal (k : Nat) (x : AdcCal) : (b.setAdcCal k x).dlOrd = b.dlOrd := rfl
@[simp] theorem Blk.verdicts_setAdcCal (k : Nat) (x : AdcCal) : (b.setAdcCal k x).verdicts = b.verdicts := rfl
@[simp] theorem Blk.agenda_setAdcCal (k : Nat) (x : AdcCal) : (b.setAdcCal k x).agenda = b.agenda := rfl
@[simp] theorem Blk.tickStage_setAdcCal (k : Nat) (x : AdcCal) : (b.setAdcCal k x).tickStage = b.tickStage := rfl
@[simp] theorem Blk.out_setAdcCal (k : Nat) (x : AdcCal) : (b.setAdcCal k x).out = b.out := rfl
@[simp] theorem Blk.freeCtr_setAdcCal (k : Nat) (x : AdcCal) : (b.setAdcCal k x).freeCtr = b.freeCtr := rfl
@[simp] theorem Blk.ports_setAdcCal (k : Nat) (x : AdcCal) : (b.setAdcCal k x).ports = b.ports := rfl
@[simp] theorem Blk.acqs_setAdcCal (k : Nat) (x : AdcCal) : (b.setAdcCal k x).acqs = b.acqs := rfl
@[simp] theorem Blk.dsc_setAdcCal (k : Nat) (x : AdcCal) : (b.setAdcCal k x).dsc = b.dsc := rfl
@[simp] theorem Blk.seqs_setAdcCal (k : Nat) (x : AdcCal) : (b.setAdcCal k x).seqs = b.seqs := rfl
@[simp] theorem Blk.gov_setAdcCal (k : Nat) (x : AdcCal) : (b.setAdcCal k x).gov = b.gov := rfl
@[simp] theorem Blk.odrs_setAdcCal (k : Nat) (x : AdcCal) : (b.setAdcCal k x).odrs = b.odrs := rfl
@[simp] theorem Blk.evf_setAdcCal (k : Nat) (x : AdcCal) : (b.setAdcCal k x).evf = b.evf := rfl
@[simp] theorem Blk.bias_setAdcCal (k : Nat) (x : AdcCal) : (b.setAdcCal k x).bias = b.bias := rfl
@[simp] theorem Blk.mram_setAdcCal (k : Nat) (x : AdcCal) : (b.setAdcCal k x).mram = b.mram := rfl
@[simp] theorem Blk.frn_setAdcCal (k : Nat) (x : AdcCal) : (b.setAdcCal k x).frn = b.frn := rfl
@[simp] theorem Blk.trg_setAdcCal (k : Nat) (x : AdcCal) : (b.setAdcCal k x).trg = b.trg := rfl
@[simp] theorem Blk.pwr_setAdcCal (k : Nat) (x : AdcCal) : (b.setAdcCal k x).pwr = b.pwr := rfl
@[simp] theorem Blk.ddr_setAdcCal (k : Nat) (x : AdcCal) : (b.setAdcCal k x).ddr = b.ddr := rfl
@[simp] theorem Blk.lnk_setAdcCal (k : Nat) (x : AdcCal) : (b.setAdcCal k x).lnk = b.lnk := rfl
@[simp] theorem Blk.net_setAdcCal (k : Nat) (x : AdcCal) : (b.setAdcCal k x).net = b.net := rfl
@[simp] theorem Blk.cal_setAdcCal (k : Nat) (x : AdcCal) : (b.setAdcCal k x).cal = { b.cal with adc := b.cal.adc.set k x } := rfl
@[simp] theorem Blk.rcv_setAdcCal (k : Nat) (x : AdcCal) : (b.setAdcCal k x).rcv = b.rcv := rfl
@[simp] theorem Blk.hif_setAdcCal (k : Nat) (x : AdcCal) : (b.setAdcCal k x).hif = b.hif := rfl
@[simp] theorem Blk.get_setAdcCal (k : Nat) (x : AdcCal) (k' : Key) : (b.setAdcCal k x).get k' = b.get k' := rfl
@[simp] theorem Blk.rd_setAdcCal (k : Nat) (x : AdcCal) (g : Fld) (i' j' : Nat) : (b.setAdcCal k x).rd g i' j' = b.rd g i' j' := rfl
@[simp] theorem Blk.act_setAdcCal (k : Nat) (x : AdcCal) (g : Fld) (i' j' : Nat) : (b.setAdcCal k x).act g i' j' = b.act g i' j' := rfl
@[simp] theorem Blk.on_setAdcCal (k : Nat) (x : AdcCal) (g : Fld) (i' j' : Nat) : (b.setAdcCal k x).on g i' j' = b.on g i' j' := rfl
@[simp] theorem Blk.actOn_setAdcCal (k : Nat) (x : AdcCal) (g : Fld) (i' j' : Nat) : (b.setAdcCal k x).actOn g i' j' = b.actOn g i' j' := rfl
@[simp] theorem Blk.port_setAdcCal (k : Nat) (x : AdcCal) (p' : Nat) : (b.setAdcCal k x).port p' = b.port p' := rfl
@[simp] theorem Blk.acq_setAdcCal (k : Nat) (x : AdcCal) (k' : Nat) : (b.setAdcCal k x).acq k' = b.acq k' := rfl
@[simp] theorem Blk.seq_setAdcCal (k : Nat) (x : AdcCal) (q' : Nat) : (b.setAdcCal k x).seq q' = b.seq q' := rfl
@[simp] theorem Blk.odr_setAdcCal (k : Nat) (x : AdcCal) (n' : Nat) : (b.setAdcCal k x).odr n' = b.odr n' := rfl
@[simp] theorem Blk.regRcv_setAdcCal (k : Nat) (x : AdcCal) (r' : Nat) : (b.setAdcCal k x).regRcv r' = b.regRcv r' := rfl

/-! ### setFmodCal -/

@[simp] theorem Blk.regs_setFmodCal (m : Nat) (x : FmodCal) : (b.setFmodCal m x).regs = b.regs := rfl
@[simp] theorem Blk.force_setFmodCal (m : Nat) (x : FmodCal) : (b.setFmodCal m x).force = b.force := rfl
@[simp] theorem Blk.is32_setFmodCal (m : Nat) (x : FmodCal) : (b.setFmodCal m x).is32 = b.is32 := rfl
@[simp] theorem Blk.now_setFmodCal (m : Nat) (x : FmodCal) : (b.setFmodCal m x).now = b.now := rfl
@[simp] theorem Blk.elapsed_setFmodCal (m : Nat) (x : FmodCal) : (b.setFmodCal m x).elapsed = b.elapsed := rfl
@[simp] theorem Blk.tim_setFmodCal (m : Nat) (x : FmodCal) : (b.setFmodCal m x).tim = b.tim := rfl
@[simp] theorem Blk.dlq_setFmodCal (m : Nat) (x : FmodCal) : (b.setFmodCal m x).dlq = b.dlq := rfl
@[simp] theorem Blk.dlHeld_setFmodCal (m : Nat) (x : FmodCal) : (b.setFmodCal m x).dlHeld = b.dlHeld := rfl
@[simp] theorem Blk.dlOrd_setFmodCal (m : Nat) (x : FmodCal) : (b.setFmodCal m x).dlOrd = b.dlOrd := rfl
@[simp] theorem Blk.verdicts_setFmodCal (m : Nat) (x : FmodCal) : (b.setFmodCal m x).verdicts = b.verdicts := rfl
@[simp] theorem Blk.agenda_setFmodCal (m : Nat) (x : FmodCal) : (b.setFmodCal m x).agenda = b.agenda := rfl
@[simp] theorem Blk.tickStage_setFmodCal (m : Nat) (x : FmodCal) : (b.setFmodCal m x).tickStage = b.tickStage := rfl
@[simp] theorem Blk.out_setFmodCal (m : Nat) (x : FmodCal) : (b.setFmodCal m x).out = b.out := rfl
@[simp] theorem Blk.freeCtr_setFmodCal (m : Nat) (x : FmodCal) : (b.setFmodCal m x).freeCtr = b.freeCtr := rfl
@[simp] theorem Blk.ports_setFmodCal (m : Nat) (x : FmodCal) : (b.setFmodCal m x).ports = b.ports := rfl
@[simp] theorem Blk.acqs_setFmodCal (m : Nat) (x : FmodCal) : (b.setFmodCal m x).acqs = b.acqs := rfl
@[simp] theorem Blk.dsc_setFmodCal (m : Nat) (x : FmodCal) : (b.setFmodCal m x).dsc = b.dsc := rfl
@[simp] theorem Blk.seqs_setFmodCal (m : Nat) (x : FmodCal) : (b.setFmodCal m x).seqs = b.seqs := rfl
@[simp] theorem Blk.gov_setFmodCal (m : Nat) (x : FmodCal) : (b.setFmodCal m x).gov = b.gov := rfl
@[simp] theorem Blk.odrs_setFmodCal (m : Nat) (x : FmodCal) : (b.setFmodCal m x).odrs = b.odrs := rfl
@[simp] theorem Blk.evf_setFmodCal (m : Nat) (x : FmodCal) : (b.setFmodCal m x).evf = b.evf := rfl
@[simp] theorem Blk.bias_setFmodCal (m : Nat) (x : FmodCal) : (b.setFmodCal m x).bias = b.bias := rfl
@[simp] theorem Blk.mram_setFmodCal (m : Nat) (x : FmodCal) : (b.setFmodCal m x).mram = b.mram := rfl
@[simp] theorem Blk.frn_setFmodCal (m : Nat) (x : FmodCal) : (b.setFmodCal m x).frn = b.frn := rfl
@[simp] theorem Blk.trg_setFmodCal (m : Nat) (x : FmodCal) : (b.setFmodCal m x).trg = b.trg := rfl
@[simp] theorem Blk.pwr_setFmodCal (m : Nat) (x : FmodCal) : (b.setFmodCal m x).pwr = b.pwr := rfl
@[simp] theorem Blk.ddr_setFmodCal (m : Nat) (x : FmodCal) : (b.setFmodCal m x).ddr = b.ddr := rfl
@[simp] theorem Blk.lnk_setFmodCal (m : Nat) (x : FmodCal) : (b.setFmodCal m x).lnk = b.lnk := rfl
@[simp] theorem Blk.net_setFmodCal (m : Nat) (x : FmodCal) : (b.setFmodCal m x).net = b.net := rfl
@[simp] theorem Blk.cal_setFmodCal (m : Nat) (x : FmodCal) : (b.setFmodCal m x).cal = { b.cal with fmod := b.cal.fmod.set m x } := rfl
@[simp] theorem Blk.rcv_setFmodCal (m : Nat) (x : FmodCal) : (b.setFmodCal m x).rcv = b.rcv := rfl
@[simp] theorem Blk.hif_setFmodCal (m : Nat) (x : FmodCal) : (b.setFmodCal m x).hif = b.hif := rfl
@[simp] theorem Blk.get_setFmodCal (m : Nat) (x : FmodCal) (k' : Key) : (b.setFmodCal m x).get k' = b.get k' := rfl
@[simp] theorem Blk.rd_setFmodCal (m : Nat) (x : FmodCal) (g : Fld) (i' j' : Nat) : (b.setFmodCal m x).rd g i' j' = b.rd g i' j' := rfl
@[simp] theorem Blk.act_setFmodCal (m : Nat) (x : FmodCal) (g : Fld) (i' j' : Nat) : (b.setFmodCal m x).act g i' j' = b.act g i' j' := rfl
@[simp] theorem Blk.on_setFmodCal (m : Nat) (x : FmodCal) (g : Fld) (i' j' : Nat) : (b.setFmodCal m x).on g i' j' = b.on g i' j' := rfl
@[simp] theorem Blk.actOn_setFmodCal (m : Nat) (x : FmodCal) (g : Fld) (i' j' : Nat) : (b.setFmodCal m x).actOn g i' j' = b.actOn g i' j' := rfl
@[simp] theorem Blk.port_setFmodCal (m : Nat) (x : FmodCal) (p' : Nat) : (b.setFmodCal m x).port p' = b.port p' := rfl
@[simp] theorem Blk.acq_setFmodCal (m : Nat) (x : FmodCal) (k' : Nat) : (b.setFmodCal m x).acq k' = b.acq k' := rfl
@[simp] theorem Blk.seq_setFmodCal (m : Nat) (x : FmodCal) (q' : Nat) : (b.setFmodCal m x).seq q' = b.seq q' := rfl
@[simp] theorem Blk.odr_setFmodCal (m : Nat) (x : FmodCal) (n' : Nat) : (b.setFmodCal m x).odr n' = b.odr n' := rfl
@[simp] theorem Blk.regRcv_setFmodCal (m : Nat) (x : FmodCal) (r' : Nat) : (b.setFmodCal m x).regRcv r' = b.regRcv r' := rfl

/-! ### setRegRcv -/

@[simp] theorem Blk.regs_setRegRcv (r : Nat) (x : RegRcv) : (b.setRegRcv r x).regs = b.regs := rfl
@[simp] theorem Blk.force_setRegRcv (r : Nat) (x : RegRcv) : (b.setRegRcv r x).force = b.force := rfl
@[simp] theorem Blk.is32_setRegRcv (r : Nat) (x : RegRcv) : (b.setRegRcv r x).is32 = b.is32 := rfl
@[simp] theorem Blk.now_setRegRcv (r : Nat) (x : RegRcv) : (b.setRegRcv r x).now = b.now := rfl
@[simp] theorem Blk.elapsed_setRegRcv (r : Nat) (x : RegRcv) : (b.setRegRcv r x).elapsed = b.elapsed := rfl
@[simp] theorem Blk.tim_setRegRcv (r : Nat) (x : RegRcv) : (b.setRegRcv r x).tim = b.tim := rfl
@[simp] theorem Blk.dlq_setRegRcv (r : Nat) (x : RegRcv) : (b.setRegRcv r x).dlq = b.dlq := rfl
@[simp] theorem Blk.dlHeld_setRegRcv (r : Nat) (x : RegRcv) : (b.setRegRcv r x).dlHeld = b.dlHeld := rfl
@[simp] theorem Blk.dlOrd_setRegRcv (r : Nat) (x : RegRcv) : (b.setRegRcv r x).dlOrd = b.dlOrd := rfl
@[simp] theorem Blk.verdicts_setRegRcv (r : Nat) (x : RegRcv) : (b.setRegRcv r x).verdicts = b.verdicts := rfl
@[simp] theorem Blk.agenda_setRegRcv (r : Nat) (x : RegRcv) : (b.setRegRcv r x).agenda = b.agenda := rfl
@[simp] theorem Blk.tickStage_setRegRcv (r : Nat) (x : RegRcv) : (b.setRegRcv r x).tickStage = b.tickStage := rfl
@[simp] theorem Blk.out_setRegRcv (r : Nat) (x : RegRcv) : (b.setRegRcv r x).out = b.out := rfl
@[simp] theorem Blk.freeCtr_setRegRcv (r : Nat) (x : RegRcv) : (b.setRegRcv r x).freeCtr = b.freeCtr := rfl
@[simp] theorem Blk.ports_setRegRcv (r : Nat) (x : RegRcv) : (b.setRegRcv r x).ports = b.ports := rfl
@[simp] theorem Blk.acqs_setRegRcv (r : Nat) (x : RegRcv) : (b.setRegRcv r x).acqs = b.acqs := rfl
@[simp] theorem Blk.dsc_setRegRcv (r : Nat) (x : RegRcv) : (b.setRegRcv r x).dsc = b.dsc := rfl
@[simp] theorem Blk.seqs_setRegRcv (r : Nat) (x : RegRcv) : (b.setRegRcv r x).seqs = b.seqs := rfl
@[simp] theorem Blk.gov_setRegRcv (r : Nat) (x : RegRcv) : (b.setRegRcv r x).gov = b.gov := rfl
@[simp] theorem Blk.odrs_setRegRcv (r : Nat) (x : RegRcv) : (b.setRegRcv r x).odrs = b.odrs := rfl
@[simp] theorem Blk.evf_setRegRcv (r : Nat) (x : RegRcv) : (b.setRegRcv r x).evf = b.evf := rfl
@[simp] theorem Blk.bias_setRegRcv (r : Nat) (x : RegRcv) : (b.setRegRcv r x).bias = b.bias := rfl
@[simp] theorem Blk.mram_setRegRcv (r : Nat) (x : RegRcv) : (b.setRegRcv r x).mram = b.mram := rfl
@[simp] theorem Blk.frn_setRegRcv (r : Nat) (x : RegRcv) : (b.setRegRcv r x).frn = b.frn := rfl
@[simp] theorem Blk.trg_setRegRcv (r : Nat) (x : RegRcv) : (b.setRegRcv r x).trg = b.trg := rfl
@[simp] theorem Blk.pwr_setRegRcv (r : Nat) (x : RegRcv) : (b.setRegRcv r x).pwr = b.pwr := rfl
@[simp] theorem Blk.ddr_setRegRcv (r : Nat) (x : RegRcv) : (b.setRegRcv r x).ddr = b.ddr := rfl
@[simp] theorem Blk.lnk_setRegRcv (r : Nat) (x : RegRcv) : (b.setRegRcv r x).lnk = b.lnk := rfl
@[simp] theorem Blk.net_setRegRcv (r : Nat) (x : RegRcv) : (b.setRegRcv r x).net = b.net := rfl
@[simp] theorem Blk.cal_setRegRcv (r : Nat) (x : RegRcv) : (b.setRegRcv r x).cal = b.cal := rfl
@[simp] theorem Blk.rcv_setRegRcv (r : Nat) (x : RegRcv) : (b.setRegRcv r x).rcv = { b.rcv with regs := b.rcv.regs.set r x } := rfl
@[simp] theorem Blk.hif_setRegRcv (r : Nat) (x : RegRcv) : (b.setRegRcv r x).hif = b.hif := rfl
@[simp] theorem Blk.get_setRegRcv (r : Nat) (x : RegRcv) (k' : Key) : (b.setRegRcv r x).get k' = b.get k' := rfl
@[simp] theorem Blk.rd_setRegRcv (r : Nat) (x : RegRcv) (g : Fld) (i' j' : Nat) : (b.setRegRcv r x).rd g i' j' = b.rd g i' j' := rfl
@[simp] theorem Blk.act_setRegRcv (r : Nat) (x : RegRcv) (g : Fld) (i' j' : Nat) : (b.setRegRcv r x).act g i' j' = b.act g i' j' := rfl
@[simp] theorem Blk.on_setRegRcv (r : Nat) (x : RegRcv) (g : Fld) (i' j' : Nat) : (b.setRegRcv r x).on g i' j' = b.on g i' j' := rfl
@[simp] theorem Blk.actOn_setRegRcv (r : Nat) (x : RegRcv) (g : Fld) (i' j' : Nat) : (b.setRegRcv r x).actOn g i' j' = b.actOn g i' j' := rfl
@[simp] theorem Blk.port_setRegRcv (r : Nat) (x : RegRcv) (p' : Nat) : (b.setRegRcv r x).port p' = b.port p' := rfl
@[simp] theorem Blk.acq_setRegRcv (r : Nat) (x : RegRcv) (k' : Nat) : (b.setRegRcv r x).acq k' = b.acq k' := rfl
@[simp] theorem Blk.seq_setRegRcv (r : Nat) (x : RegRcv) (q' : Nat) : (b.setRegRcv r x).seq q' = b.seq q' := rfl
@[simp] theorem Blk.odr_setRegRcv (r : Nat) (x : RegRcv) (n' : Nat) : (b.setRegRcv r x).odr n' = b.odr n' := rfl

/-! ### setTally -/

@[simp] theorem Blk.regs_setTally (x w tile : Nat) (t : Tally) : (b.setTally x w tile t).regs = b.regs := rfl
@[simp] theorem Blk.force_setTally (x w tile : Nat) (t : Tally) : (b.setTally x w tile t).force = b.force := rfl
@[simp] theorem Blk.is32_setTally (x w tile : Nat) (t : Tally) : (b.setTally x w tile t).is32 = b.is32 := rfl
@[simp] theorem Blk.now_setTally (x w tile : Nat) (t : Tally) : (b.setTally x w tile t).now = b.now := rfl
@[simp] theorem Blk.elapsed_setTally (x w tile : Nat) (t : Tally) : (b.setTally x w tile t).elapsed = b.elapsed := rfl
@[simp] theorem Blk.tim_setTally (x w tile : Nat) (t : Tally) : (b.setTally x w tile t).tim = b.tim := rfl
@[simp] theorem Blk.dlq_setTally (x w tile : Nat) (t : Tally) : (b.setTally x w tile t).dlq = b.dlq := rfl
@[simp] theorem Blk.dlHeld_setTally (x w tile : Nat) (t : Tally) : (b.setTally x w tile t).dlHeld = b.dlHeld := rfl
@[simp] theorem Blk.dlOrd_setTally (x w tile : Nat) (t : Tally) : (b.setTally x w tile t).dlOrd = b.dlOrd := rfl
@[simp] theorem Blk.verdicts_setTally (x w tile : Nat) (t : Tally) : (b.setTally x w tile t).verdicts = b.verdicts := rfl
@[simp] theorem Blk.agenda_setTally (x w tile : Nat) (t : Tally) : (b.setTally x w tile t).agenda = b.agenda := rfl
@[simp] theorem Blk.tickStage_setTally (x w tile : Nat) (t : Tally) : (b.setTally x w tile t).tickStage = b.tickStage := rfl
@[simp] theorem Blk.out_setTally (x w tile : Nat) (t : Tally) : (b.setTally x w tile t).out = b.out := rfl
@[simp] theorem Blk.freeCtr_setTally (x w tile : Nat) (t : Tally) : (b.setTally x w tile t).freeCtr = b.freeCtr := rfl
@[simp] theorem Blk.ports_setTally (x w tile : Nat) (t : Tally) : (b.setTally x w tile t).ports = b.ports := rfl
@[simp] theorem Blk.acqs_setTally (x w tile : Nat) (t : Tally) : (b.setTally x w tile t).acqs = b.acqs := rfl
@[simp] theorem Blk.dsc_setTally (x w tile : Nat) (t : Tally) : (b.setTally x w tile t).dsc = b.dsc := rfl
@[simp] theorem Blk.seqs_setTally (x w tile : Nat) (t : Tally) : (b.setTally x w tile t).seqs = b.seqs := rfl
@[simp] theorem Blk.gov_setTally (x w tile : Nat) (t : Tally) : (b.setTally x w tile t).gov = { b.gov with tal := b.gov.tal.set (4 * x + 2 * w + tile) t } := rfl
@[simp] theorem Blk.odrs_setTally (x w tile : Nat) (t : Tally) : (b.setTally x w tile t).odrs = b.odrs := rfl
@[simp] theorem Blk.evf_setTally (x w tile : Nat) (t : Tally) : (b.setTally x w tile t).evf = b.evf := rfl
@[simp] theorem Blk.bias_setTally (x w tile : Nat) (t : Tally) : (b.setTally x w tile t).bias = b.bias := rfl
@[simp] theorem Blk.mram_setTally (x w tile : Nat) (t : Tally) : (b.setTally x w tile t).mram = b.mram := rfl
@[simp] theorem Blk.frn_setTally (x w tile : Nat) (t : Tally) : (b.setTally x w tile t).frn = b.frn := rfl
@[simp] theorem Blk.trg_setTally (x w tile : Nat) (t : Tally) : (b.setTally x w tile t).trg = b.trg := rfl
@[simp] theorem Blk.pwr_setTally (x w tile : Nat) (t : Tally) : (b.setTally x w tile t).pwr = b.pwr := rfl
@[simp] theorem Blk.ddr_setTally (x w tile : Nat) (t : Tally) : (b.setTally x w tile t).ddr = b.ddr := rfl
@[simp] theorem Blk.lnk_setTally (x w tile : Nat) (t : Tally) : (b.setTally x w tile t).lnk = b.lnk := rfl
@[simp] theorem Blk.net_setTally (x w tile : Nat) (t : Tally) : (b.setTally x w tile t).net = b.net := rfl
@[simp] theorem Blk.cal_setTally (x w tile : Nat) (t : Tally) : (b.setTally x w tile t).cal = b.cal := rfl
@[simp] theorem Blk.rcv_setTally (x w tile : Nat) (t : Tally) : (b.setTally x w tile t).rcv = b.rcv := rfl
@[simp] theorem Blk.hif_setTally (x w tile : Nat) (t : Tally) : (b.setTally x w tile t).hif = b.hif := rfl
@[simp] theorem Blk.get_setTally (x w tile : Nat) (t : Tally) (k' : Key) : (b.setTally x w tile t).get k' = b.get k' := rfl
@[simp] theorem Blk.rd_setTally (x w tile : Nat) (t : Tally) (g : Fld) (i' j' : Nat) : (b.setTally x w tile t).rd g i' j' = b.rd g i' j' := rfl
@[simp] theorem Blk.act_setTally (x w tile : Nat) (t : Tally) (g : Fld) (i' j' : Nat) : (b.setTally x w tile t).act g i' j' = b.act g i' j' := rfl
@[simp] theorem Blk.on_setTally (x w tile : Nat) (t : Tally) (g : Fld) (i' j' : Nat) : (b.setTally x w tile t).on g i' j' = b.on g i' j' := rfl
@[simp] theorem Blk.actOn_setTally (x w tile : Nat) (t : Tally) (g : Fld) (i' j' : Nat) : (b.setTally x w tile t).actOn g i' j' = b.actOn g i' j' := rfl
@[simp] theorem Blk.port_setTally (x w tile : Nat) (t : Tally) (p' : Nat) : (b.setTally x w tile t).port p' = b.port p' := rfl
@[simp] theorem Blk.acq_setTally (x w tile : Nat) (t : Tally) (k' : Nat) : (b.setTally x w tile t).acq k' = b.acq k' := rfl
@[simp] theorem Blk.seq_setTally (x w tile : Nat) (t : Tally) (q' : Nat) : (b.setTally x w tile t).seq q' = b.seq q' := rfl
@[simp] theorem Blk.odr_setTally (x w tile : Nat) (t : Tally) (n' : Nat) : (b.setTally x w tile t).odr n' = b.odr n' := rfl
@[simp] theorem Blk.regRcv_setTally (x w tile : Nat) (t : Tally) (r' : Nat) : (b.setTally x w tile t).regRcv r' = b.regRcv r' := rfl

/-! ### Reading what was written -/

theorem Blk.get_wr (f : Fld) (v i j : Nat) (k : Key) :
    (b.wr f v i j).get k = if k = f.key i j then v % 2 ^ f.wid else b.get k := by
  by_cases h : k = f.key i j
  · subst h
    simp only [Blk.get, Blk.regs_wr, Tab.find_set_self, if_true]
  · simp only [Blk.get, Blk.regs_wr, Tab.find_set_ne _ _ (Ne.symm h), h, if_false, Blk.is32_wr]

/-- A field reads as last written; every other field reads as before. -/
theorem Blk.rd_wr (f g : Fld) (v i j i' j' : Nat) :
    (b.wr f v i j).rd g i' j' = if f.key i j = g.key i' j' then v % 2 ^ f.wid % 2 ^ g.wid else b.rd g i' j' := by
  by_cases h : f.key i j = g.key i' j'
  · simp only [Blk.rd, Blk.get_wr, h, if_true]
  · simp only [Blk.rd, Blk.get_wr, h, Ne.symm h, if_false]

@[simp] theorem Blk.rd_wr_self (f : Fld) (v i j : Nat) : (b.wr f v i j).rd f i j = v % 2 ^ f.wid := by
  simp [Blk.rd_wr]

theorem Blk.rd_wr_ne (f g : Fld) (v i j i' j' : Nat) (h : f.key i j ≠ g.key i' j') :
    (b.wr f v i j).rd g i' j' = b.rd g i' j' := by
  rw [Blk.rd_wr, if_neg h]

theorem Blk.rd_lt (f : Fld) (i j : Nat) : b.rd f i j < 2 ^ f.wid := Nat.mod_lt _ (Nat.two_pow_pos _)

/-- A write that takes hold at once is in force, unless a host write is pending. -/
theorem Blk.act_wr (f g : Fld) (v i j i' j' : Nat) :
    (b.wr f v i j).act g i' j' =
      match b.force.find (g.key i' j') with
      | some x => x % 2 ^ g.wid
      | none => (b.wr f v i j).rd g i' j' := rfl

/-- R11: a pending field reads as written. -/
theorem Blk.rd_stage (f g : Fld) (v i j i' j' : Nat) :
    (b.stage f v i j).rd g i' j' =
      if f.key i j = g.key i' j' then v % 2 ^ f.wid % 2 ^ g.wid else b.rd g i' j' := by
  by_cases h : f.key i j = g.key i' j'
  · simp only [Blk.rd, Blk.get, Blk.regs_stage, ← h, Tab.find_set_self, if_true]
  · simp only [Blk.rd, Blk.get, Blk.regs_stage, Tab.find_set_ne _ _ h, h, if_false, Blk.is32_stage]

/-- R11: the value in force stays while a write is pending. -/
theorem Blk.act_stage_self (f : Fld) (v i j : Nat) : (b.stage f v i j).act f i j = b.act f i j := by
  have h : b.act f i j < 2 ^ f.wid := by
    unfold Blk.act
    split
    · exact Nat.mod_lt _ (Nat.two_pow_pos _)
    · exact Blk.rd_lt b f i j
  simp only [Blk.act, Blk.force_stage, Tab.find_set_self] at h ⊢
  exact Nat.mod_eq_of_lt h

/-- When a pending write takes hold, the value in force is the value that reads. -/
theorem Blk.act_commit (f g : Fld) (i j i' j' : Nat) :
    (b.commit (f.key i j)).act g i' j' = if f.key i j = g.key i' j' then b.rd g i' j' else b.act g i' j' := by
  by_cases h : f.key i j = g.key i' j'
  · simp only [Blk.act, Blk.force_commit, h, Tab.find_erase_self, if_true, Blk.rd_commit]
  · simp only [Blk.act, Blk.force_commit, Tab.find_erase_ne _ h, h, if_false, Blk.rd_commit]

/-! ### Sticky bits and counters -/

theorem Blk.rd_stick (f g : Fld) (i j i' j' : Nat) :
    (b.stick f i j).rd g i' j' =
      if f.key i j = g.key i' j' then 1 % 2 ^ f.wid % 2 ^ g.wid else b.rd g i' j' := Blk.rd_wr b f g 1 i j i' j'

theorem Blk.rd_inc (f g : Fld) (n i j i' j' : Nat) :
    (b.inc f n i j).rd g i' j' =
      if f.key i j = g.key i' j' then satAdd f.wid (b.rd f i j) n % 2 ^ f.wid % 2 ^ g.wid else b.rd g i' j' :=
  Blk.rd_wr b f g _ i j i' j'

theorem satAdd_lt (w n k : Nat) : satAdd w n k < 2 ^ w := by
  have := Nat.two_pow_pos w
  simp only [satAdd]
  omega

@[simp] theorem Blk.rd_inc_self (f : Fld) (n i j : Nat) : (b.inc f n i j).rd f i j = satAdd f.wid (b.rd f i j) n := by
  rw [Blk.rd_inc, if_pos rfl, Nat.mod_mod, Nat.mod_eq_of_lt (satAdd_lt _ _ _)]

/-! ### Units -/

theorem Blk.port_setPort (p q : Nat) (x : PortSt) : (b.setPort p x).port q = if p = q then x else b.port q :=
  Tab.get_set _ _ _ _ _

theorem Blk.acq_setAcq (p q : Nat) (x : AcqSt) : (b.setAcq p x).acq q = if p = q then x else b.acq q :=
  Tab.get_set _ _ _ _ _

theorem Blk.seq_setSeq (p q : Nat) (x : SeqSt) : (b.setSeq p x).seq q = if p = q then x else b.seq q :=
  Tab.get_set _ _ _ _ _

theorem Blk.odr_setOdr (p q : Nat) (x : OdrSt) : (b.setOdr p x).odr q = if p = q then x else b.odr q :=
  Tab.get_set _ _ _ _ _

theorem Blk.regRcv_setRegRcv (p q : Nat) (x : RegRcv) :
    (b.setRegRcv p x).regRcv q = if p = q then x else b.regRcv q := Tab.get_set _ _ _ _ _

end Sys2Proof.Machine
end

