-- ==== Sys2Proof/Laws/Frames.lean ====
section
/-!
SUPPORT. Laws of the frames that claims are stated with, and of values in force.
-/

namespace Sys2Proof.Machine

theorem Keeps.refl (ks : List Key) (b : Blk) : Keeps ks b b := fun _ _ => ⟨rfl, rfl⟩

theorem Keeps.trans {ks : List Key} {a b c : Blk} (h : Keeps ks a b) (h' : Keeps ks b c) : Keeps ks a c :=
  fun k hk => ⟨(h' k hk).1.trans (h k hk).1, (h' k hk).2.trans (h k hk).2⟩

theorem Keeps.mono {ks ks' : List Key} {a b : Blk} (h : Keeps ks a b) (hs : ∀ k ∈ ks, k ∈ ks') : Keeps ks' a b :=
  fun k hk => h k (fun hm => hk (hs k hm))

theorem Keeps.wr {ks : List Key} {a b : Blk} (h : Keeps ks a b) (f : Fld) (v i j : Nat) (hk : f.key i j ∈ ks) :
    Keeps ks a (b.wr f v i j) := by
  refine h.trans fun k hn => ⟨?_, rfl⟩
  rw [Blk.get_wr, if_neg]
  rintro rfl
  exact hn hk

/-- Only registers count: an update of anything else keeps a frame. -/
theorem Keeps.of_eq {ks : List Key} {a b c : Blk} (h : Keeps ks a b) (h1 : c.regs = b.regs)
    (h2 : c.force = b.force) (h3 : c.is32 = b.is32) : Keeps ks a c := by
  intro k hk
  simpa [Blk.get, h1, h2, h3] using h k hk

theorem Blk.on_eq_true {b : Blk} {f : Fld} {i j : Nat} : b.on f i j = true ↔ b.rd f i j = 1 := by simp [Blk.on]

theorem Blk.on_eq_false {b : Blk} {f : Fld} {i j : Nat} : b.on f i j = false ↔ b.rd f i j ≠ 1 := by simp [Blk.on]

theorem Blk.act_lt (b : Blk) (f : Fld) (i j : Nat) : b.act f i j < 2 ^ f.wid := by
  unfold Blk.act
  split
  · exact Nat.mod_lt _ (Nat.two_pow_pos _)
  · exact Blk.rd_lt b f i j

@[simp] theorem Blk.act_mod (b : Blk) (f : Fld) (i j : Nat) : b.act f i j % 2 ^ f.wid = b.act f i j :=
  Nat.mod_eq_of_lt (Blk.act_lt b f i j)

@[simp] theorem Blk.rd_mod (b : Blk) (f : Fld) (i j : Nat) : b.rd f i j % 2 ^ f.wid = b.rd f i j :=
  Nat.mod_eq_of_lt (Blk.rd_lt b f i j)

/-! ### What a meaning of either form answers -/

theorem onBlk_eq (f : Mem → Blk → Blk) (s : State) : onBlk f s = .next { s with blk := f s.mem s.blk } := rfl

theorem onBoth_eq (f : Mem → Blk → Blk × Mem) (s : State) :
    onBoth f s = .next { s with blk := (f s.mem s.blk).1, mem := (f s.mem s.blk).2 } := rfl

/-! ### What a read shows of queued messages (R11) -/

/-- Waiting is a matter of the register and the lowest bit. -/
theorem waits_key (f g : Fld) (hr : f.reg = g.reg) (hl : f.lsb = g.lsb) : waits f = waits g := by
  simp only [waits, effOf, hr, hl]

/-- One message changes at most one register field, and one that can wait. -/
theorem showMsg_spec (later : List DlEnt) (b : Blk) (m : DlMsg) (ord : Nat) :
    { showMsg later b m ord with regs := b.regs } = b ∧
      ∀ k : Key, waits ⟨k.reg, k.lsb, 0⟩ = false → (showMsg later b m ord).get k = b.get k := by
  unfold showMsg
  split
  · rename_i f v i j _
    split
    · exact ⟨rfl, fun _ _ => rfl⟩
    · rename_i hw
      refine ⟨rfl, fun k hk => ?_⟩
      rw [Blk.get_wr, if_neg]
      rintro rfl
      have : waits f = false := (waits_key f _ rfl rfl).trans hk
      simp [this] at hw
  · exact ⟨rfl, fun _ _ => rfl⟩

theorem showMsg_fold {α : Type} (g : Blk → α → Blk) (l : List α)
    (hg : ∀ b a, { g b a with regs := b.regs } = b ∧
      ∀ k : Key, waits ⟨k.reg, k.lsb, 0⟩ = false → (g b a).get k = b.get k) (b : Blk) :
    { l.foldl g b with regs := b.regs } = b ∧
      ∀ k : Key, waits ⟨k.reg, k.lsb, 0⟩ = false → (l.foldl g b).get k = b.get k := by
  induction l generalizing b with
  | nil => exact ⟨rfl, fun _ _ => rfl⟩
  | cons a l ih =>
    refine ⟨?_, fun k hk => ((ih (g b a)).2 k hk).trans ((hg b a).2 k hk)⟩
    have h1 := (ih (g b a)).1
    have h2 := (hg b a).1
    rw [List.foldl_cons]
    calc { (l.foldl g (g b a)) with regs := b.regs }
        = { { (l.foldl g (g b a)) with regs := (g b a).regs } with regs := b.regs } := rfl
      _ = { g b a with regs := b.regs } := by rw [h1]
      _ = b := h2

/-- The view a read takes differs from the block in register fields that can wait, and in nothing else. -/
theorem showQueued_spec (b : Blk) : { showQueued b with regs := b.regs } = b ∧
    ∀ k : Key, waits ⟨k.reg, k.lsb, 0⟩ = false → (showQueued b).get k = b.get k := by
  have h1 := showMsg_fold (fun (c : Blk) (q : Nat × List DlEnt) => q.2.foldl (fun c e => showMsg q.2 c e.msg e.ord) c)
    b.dlq (fun c q => showMsg_fold (fun c e => showMsg q.2 c e.msg e.ord) q.2
      (fun c e => showMsg_spec q.2 c e.msg e.ord) c) b
  have h2 := showMsg_fold (fun (c : Blk) (m : DlMsg) => showMsg [] c m 0) b.dlHeld
    (fun c m => showMsg_spec [] c m 0)
    (b.dlq.foldl (fun (c : Blk) (q : Nat × List DlEnt) => q.2.foldl (fun c e => showMsg q.2 c e.msg e.ord) c) b)
  unfold showQueued
  refine ⟨?_, fun k hk => (h2.2 k hk).trans (h1.2 k hk)⟩
  generalize b.dlq.foldl (fun (c : Blk) (q : Nat × List DlEnt) => q.2.foldl (fun c e => showMsg q.2 c e.msg e.ord) c) b = c at h1 h2
  calc { (b.dlHeld.foldl (fun c m => showMsg [] c m 0) c) with regs := b.regs }
      = { { (b.dlHeld.foldl (fun c m => showMsg [] c m 0) c) with regs := c.regs } with regs := b.regs } := rfl
    _ = { c with regs := b.regs } := by rw [h2.1]
    _ = b := h1.1

end Sys2Proof.Machine
end

