-- ==== Sys2Proof/Laws/Mem.lean ====
section
/-!
SUPPORT. Laws of the stores: a byte that was written reads back, every other byte reads as before, and every
operation keeps the canonical form.
-/

namespace Sys2Proof.Machine

/-! ### One byte -/

theorem cellsWf_mono (l : List Host.Cell) (x y : Nat) (hxy : x ≤ y) (h : cellsWf y l = true) :
    cellsWf x l = true := by
  cases l with
  | nil => rfl
  | cons e t =>
    simp only [cellsWf, Bool.and_eq_true, decide_eq_true_eq] at h ⊢
    exact ⟨⟨by omega, h.1.2⟩, h.2⟩

theorem cellsWf_filter (l : List Host.Cell) (lo : Nat) (p : Host.Cell → Bool) (h : cellsWf lo l = true) :
    cellsWf lo (l.filter p) = true := by
  induction l generalizing lo with
  | nil => rfl
  | cons e t ih =>
    obtain ⟨k, w⟩ := e
    simp only [cellsWf, Bool.and_eq_true, decide_eq_true_eq] at h
    by_cases hp : p (k, w) = true
    · simp only [List.filter, hp, cellsWf, Bool.and_eq_true, decide_eq_true_eq]
      exact ⟨h.1, ih (k + 1) h.2⟩
    · simp only [List.filter, hp]
      exact cellsWf_mono _ lo (k + 1) (by omega) (ih (k + 1) h.2)

theorem cellGet_filter (l : List Host.Cell) (p : Nat → Bool) (a : Nat) :
    cellGet (l.filter (fun c => p c.1)) a = if p a then cellGet l a else 0 := by
  induction l with
  | nil => simp [cellGet]
  | cons e t ih =>
    obtain ⟨k, w⟩ := e
    by_cases hk : p k = true
    · by_cases ha : a = k
      · subst ha; simp [List.filter, hk, cellGet]
      · simp [List.filter, hk, cellGet, ha, ih]
    · by_cases ha : a = k
      · subst ha; simp [List.filter, hk, cellGet, ih]
      · simp [List.filter, hk, cellGet, ha, ih]

theorem cellGet_cellPut (l : List Host.Cell) (a c : Nat) (v : Byte) :
    cellGet (cellPut l a v) c = if c = a then v else cellGet l c := by
  induction l with
  | nil => simp [cellPut, cellGet]
  | cons e t ih =>
    obtain ⟨k, w⟩ := e
    by_cases h1 : a < k
    · simp [cellPut, h1, cellGet]
    · by_cases h2 : a = k
      · subst h2
        by_cases hc : c = a <;> simp [cellPut, cellGet, hc]
      · by_cases hc : c = k
        · subst hc
          simp [cellPut, h1, h2, cellGet, Ne.symm h2]
        · simp [cellPut, h1, h2, cellGet, hc, ih]

/-- A byte that was set reads back, and every other reads as before, in whatever list. -/
theorem cellGet_cellSet (l : List Host.Cell) (a c : Nat) (v : Byte) :
    cellGet (cellSet l a v) c = if c = a then v else cellGet l c := by
  by_cases hv : v = 0
  · rw [cellSet, if_pos hv, cellGet_filter l (fun x => !decide (x = a)) c]
    by_cases hc : c = a <;> simp [hc, hv]
  · rw [cellSet, if_neg hv]; exact cellGet_cellPut l a c v

theorem cellsWf_cellPut (l : List Host.Cell) (lo a : Nat) (v : Byte) (hv : v ≠ 0) (h : cellsWf lo l = true)
    (ha : lo ≤ a) : cellsWf lo (cellPut l a v) = true := by
  induction l generalizing lo with
  | nil => simp [cellPut, cellsWf, ha]; exact hv
  | cons e t ih =>
    obtain ⟨k, w⟩ := e
    simp only [cellsWf, Bool.and_eq_true, decide_eq_true_eq] at h
    by_cases h1 : a < k
    · simp only [cellPut, h1, if_true, cellsWf, Bool.and_eq_true, decide_eq_true_eq]
      exact ⟨⟨ha, hv⟩, ⟨by omega, h.1.2⟩, h.2⟩
    · by_cases h2 : a = k
      · subst h2
        simp only [cellPut, Nat.lt_irrefl, if_false, if_true, cellsWf, Bool.and_eq_true, decide_eq_true_eq]
        exact ⟨⟨ha, hv⟩, h.2⟩
      · simp only [cellPut, h1, h2, if_false, cellsWf, Bool.and_eq_true, decide_eq_true_eq]
        exact ⟨⟨h.1.1, h.1.2⟩, ih (k + 1) h.2 (by omega)⟩

theorem cellsWf_cellSet (l : List Host.Cell) (lo a : Nat) (v : Byte) (h : cellsWf lo l = true) (ha : lo ≤ a) :
    cellsWf lo (cellSet l a v) = true := by
  by_cases hv : v = 0
  · rw [cellSet, if_pos hv]; exact cellsWf_filter l lo _ h
  · rw [cellSet, if_neg hv]; exact cellsWf_cellPut l lo a v hv h ha

theorem Mem.byte_setByte (m : Mem) (a c : Nat) (v : Byte) :
    (m.setByte a v).byte c = if c = a then v else m.byte c := cellGet_cellSet m.cells a c v

theorem Mem.byte_setByte_self (m : Mem) (a : Nat) (v : Byte) : (m.setByte a v).byte a = v := by
  simp [Mem.byte_setByte]

@[simp] theorem Mem.byte_setByte_ne (m : Mem) (a c : Nat) (v : Byte) (h : c ≠ a) :
    (m.setByte a v).byte c = m.byte c := by
  simp [Mem.byte_setByte, h]

@[simp] theorem Mem.poison_setByte (m : Mem) (a : Nat) (v : Byte) : (m.setByte a v).poison = m.poison := rfl

theorem Mem.wf_setByte (m : Mem) (a : Nat) (v : Byte) (h : m.wf = true) : (m.setByte a v).wf = true := by
  simp only [Mem.wf, Bool.and_eq_true] at h ⊢
  exact ⟨cellsWf_cellSet m.cells 0 a v h.1 (Nat.zero_le a), h.2⟩

/-! ### Several bytes -/

theorem Mem.wf_put (m : Mem) (a : Nat) (l : List Byte) (h : m.wf = true) : (m.put a l).wf = true := by
  induction l generalizing m a with
  | nil => exact h
  | cons v t ih => exact ih (m.setByte a v) (a + 1) (Mem.wf_setByte m a v h)

@[simp] theorem Mem.poison_put (m : Mem) (a : Nat) (l : List Byte) : (m.put a l).poison = m.poison := by
  induction l generalizing m a with
  | nil => rfl
  | cons v t ih => simp [Mem.put, ih]

/-- Bytes outside the written range read as before. -/
theorem Mem.byte_put_out (m : Mem) (a c : Nat) (l : List Byte) (h : c < a ∨ a + l.length ≤ c) :
    (m.put a l).byte c = m.byte c := by
  induction l generalizing m a with
  | nil => rfl
  | cons v t ih =>
    simp only [List.length_cons] at h
    rw [Mem.put, ih (m.setByte a v) (a + 1) (by omega)]
    exact Mem.byte_setByte_ne m a c v (by omega)

/-- Bytes of the written range read as written. -/
theorem Mem.byte_put_in (m : Mem) (a i : Nat) (l : List Byte) (h : i < l.length) :
    (m.put a l).byte (a + i) = l[i] := by
  induction l generalizing m a i with
  | nil => simp at h
  | cons v t ih =>
    cases i with
    | zero =>
      rw [Mem.put, Mem.byte_put_out _ _ _ _ (by omega)]
      exact Mem.byte_setByte_self m a v
    | succ i =>
      have := ih (m.setByte a v) (a + 1) i (by simpa using h)
      rw [Mem.put, show a + (i + 1) = a + 1 + i by omega]
      simpa using this

/-! ### Poison -/

theorem risingFrom_mono (l : List Nat) (x y : Nat) (hxy : x ≤ y) (h : risingFrom y l = true) :
    risingFrom x l = true := by
  cases l with
  | nil => rfl
  | cons k t =>
    simp only [risingFrom, Bool.and_eq_true, decide_eq_true_eq] at h ⊢
    exact ⟨by omega, h.2⟩

theorem risingFrom_natInsert (l : List Nat) (lo a : Nat) (h : risingFrom lo l = true) (ha : lo ≤ a) :
    risingFrom lo (natInsert l a) = true := by
  induction l generalizing lo with
  | nil => simp [natInsert, risingFrom, ha]
  | cons k t ih =>
    have h0 := h
    simp only [risingFrom, Bool.and_eq_true, decide_eq_true_eq] at h
    by_cases h1 : a < k
    · simp [natInsert, h1, risingFrom, ha, h.2] <;> omega
    · by_cases h2 : a = k
      · subst h2; simpa [natInsert] using h0
      · simp only [natInsert, h1, h2, if_false, risingFrom, Bool.and_eq_true, decide_eq_true_eq]
        exact ⟨h.1, ih (k + 1) h.2 (by omega)⟩

theorem risingFrom_filter (l : List Nat) (lo : Nat) (p : Nat → Bool) (h : risingFrom lo l = true) :
    risingFrom lo (l.filter p) = true := by
  induction l generalizing lo with
  | nil => rfl
  | cons k t ih =>
    simp only [risingFrom, Bool.and_eq_true, decide_eq_true_eq] at h
    by_cases hp : p k = true
    · simp [List.filter, hp, risingFrom, h.1, ih (k + 1) h.2]
    · simp [List.filter, hp, risingFrom_mono _ lo (k + 1) (by omega) (ih (k + 1) h.2)]

theorem Mem.wf_setPoison (m : Mem) (a : Nat) (h : m.wf = true) : (m.setPoison a).wf = true := by
  simp only [Mem.wf, Bool.and_eq_true] at h ⊢
  exact ⟨h.1, risingFrom_natInsert m.poison 0 (a / 8) h.2 (Nat.zero_le _)⟩

theorem Mem.wf_clearPoison (m : Mem) (w : Nat) (h : m.wf = true) : (m.clearPoison w).wf = true := by
  simp only [Mem.wf, Bool.and_eq_true] at h ⊢
  exact ⟨h.1, risingFrom_filter m.poison 0 _ h.2⟩

theorem Mem.wf_sweep (m : Mem) (a n : Nat) (h : m.wf = true) : (m.sweep a n).wf = true := by
  simp only [Mem.wf, Bool.and_eq_true] at h ⊢
  exact ⟨cellsWf_filter m.cells 0 _ h.1, risingFrom_filter m.poison 0 _ h.2⟩

@[simp] theorem Mem.byte_setPoison (m : Mem) (a c : Nat) : (m.setPoison a).byte c = m.byte c := rfl

@[simp] theorem Mem.byte_clearPoison (m : Mem) (w c : Nat) : (m.clearPoison w).byte c = m.byte c := rfl

/-- A swept byte reads 0, every other one as before (R581). -/
theorem Mem.byte_sweep (m : Mem) (a n c : Nat) :
    (m.sweep a n).byte c = if a ≤ c ∧ c < a + n then 0 else m.byte c := by
  have := cellGet_filter m.cells (fun x => !(decide (a ≤ x) && decide (x < a + n))) c
  simp only [Mem.byte, Mem.sweep]
  rw [this]
  by_cases h : a ≤ c ∧ c < a + n
  · simp [h]
  · simp only [h, if_false]
    have : (!(decide (a ≤ c) && decide (c < a + n))) = true := by
      simp only [Bool.not_eq_true', Bool.and_eq_false_iff, decide_eq_false_iff_not]
      omega
    simp [this]

theorem wf_foldl {α : Type} (f : Blk × Mem → α → Blk × Mem) (l : List α) (s : Blk × Mem)
    (hf : ∀ s x, s.2.wf = true → (f s x).2.wf = true) (h : s.2.wf = true) : (l.foldl f s).2.wf = true := by
  induction l generalizing s with
  | nil => exact h
  | cons x t ih => exact ih (f s x) (hf s x h)

theorem storeWrite_wf (b : Blk) (m : Mem) (a : Nat) (bs : List Byte) (h : m.wf = true) :
    (storeWrite b m a bs).2.wf = true := by
  refine wf_foldl _ _ _ ?_ h
  intro s k hs
  simp only []
  split
  · exact Mem.wf_put _ _ _ (Mem.wf_clearPoison _ _ hs)
  · split
    · exact hs
    · exact Mem.wf_put _ _ _ hs

end Sys2Proof.Machine
end

