-- ==== Sys2Proof/Tests/Slice0.lean ====
section
/-!
SUPPORT. The model's own tests: a smoke test of well-formedness, single steps against the spec's own numbers,
and for every statement with hypotheses a state and operands that meet them (`wit_<statement>`, one conjunct for
each clause, in the order of the clauses).
-/

namespace Sys2Proof.Tests

/-! One theorem after another: a queue of kernel evaluations would take a thread each. -/

set_option Elab.async false
open Sys2Proof Sys2Proof.Machine

/-- The state after reset with a change to the block. -/
def rs (f : Blk → Blk) : State := { State.reset with blk := f Blk.reset }

/-- Register fields set: field, value, indices. -/
def sets (l : List (Fld × Nat × Nat × Nat)) (b : Blk) : Blk :=
  l.foldl (fun b x => b.wr x.1 x.2.1 x.2.2.1 x.2.2.2) b

/-- The state after reset with register fields set. -/
def rw_ (l : List (Fld × Nat × Nat × Nat)) : State := rs (sets l)

/-! ### Well-formedness -/

def msg0 : DlMsg := ⟨none, 0, 0, 0, .tick, none, false, none, false, .snap⟩

/-- One ill-formed command for each check. -/
theorem wf_refuses_accesses :
    ∀ c ∈ ([.registerWrite 0 0 0 0 0, .registerWrite 0 0x401000 4 15 0, .registerWrite 0 0 4 16 0,
        .registerWrite 0 0 4 15 (2 ^ 32), .readClear 0 0 0, .readClear 0 0x400FFF 2, .viewDataAccess 0 true 2 4 0,
        .viewDataAccess 0 true 0 0 0, .viewDataAccess 0 true 1 5 0, .viewDataAccess 0 true 0 4 (2 ^ 32),
        .apertureAccess 0 true 0x7FFD 4 15 0, .apertureAccess 0 true 0 4 16 0, .apertureAccess 0 true 0 1 1 256,
        .bar2Access 0 true (2 ^ 36 - 3) 4 15 0, .bar2Access 0 true 0 4 16 0, .bar2Access 0 true 0 1 1 256] : List Instr),
      c.wf = false := by decide +kernel

theorem wf_refuses_messages :
    ∀ m ∈ ([{ msg0 with deadline := some (2 ^ 48) }, { msg0 with cls := 7 }, { msg0 with isl := 3 },
        { msg0 with target := .host ⟨.glbScratch, 0, 0, 0⟩ 65 }, { msg0 with target := .host ⟨.glbScratch, 0, 0, 0⟩ 0 },
        { msg0 with target := .param ⟨.glbScratch, 0, 0, 0⟩ 0 0 }, { msg0 with target := .param ⟨.glbScratch, 0, 0, 0⟩ 65 0 },
        { msg0 with target := .param ⟨.glbScratch, 0, 0, 0⟩ 4 16 }, { msg0 with target := .start 0 4096 0 },
        { msg0 with target := .start 0 0 (2 ^ 32) }, { msg0 with target := .branch 0 4096 }, { msg0 with target := .sreg 0 16 0 },
        { msg0 with target := .sreg 0 0 (2 ^ 32) }, { msg0 with target := .phrst 31 16 }, { msg0 with target := .phrst 47 32 },
        { msg0 with target := .fire 0 256 }] : List DlMsg), (Instr.deadlineMsgArrive m).wf = false := by decide +kernel

theorem wf_refuses_operands :
    ∀ c ∈ ([.phrst 31 16, .earlyToneStop 31 0 0, .earlyToneStop 32 0 (2 ^ 64), .dvOwnTileUpdate 0 0 0 false (2 ^ 64),
        .dvOtherTileUpdate 0 0 0 false (2 ^ 64), .exportLatchSet 0 0 false false (2 ^ 64), .shotSummary 0 (2 ^ 32),
        .startTrigger 0 (2 ^ 64), .sreg 0 0 (2 ^ 32), .mailboxNotice 0 0 0 0 false false (2 ^ 64), .biasUpdateSlot (2 ^ 64) 0 0,
        .biasUpdateSlot 0 (2 ^ 64) 0, .biasUpdateSlot 0 0 (2 ^ 64), .wake 0 0, .wake 1 128, .captureTrigger 0 (2 ^ 68) 0,
        .markerPatternStart 0 0 65, .eventPublish 0 (2 ^ 64) 0 0, .eventPublish 0 0 (2 ^ 64) 0, .eventPublish 0 0 0 (2 ^ 48)]
        : List Instr), c.wf = false := by decide +kernel

theorem wf_refuses_counts :
    ∀ f ∈ ([.cmdNop 0, .load 0, fun i => .loadAcqConfig 0 i [], .readback 0, .run 0, .setparam 0, .fence 0, .fenceComplete 0,
        .descCaptureArm 0, .biasset 0, .stop 0, fun i => .dmaComplete 0 i true []] : List (Nat → Instr)),
      (f (2 ^ 32)).wf = false ∧ (f (2 ^ 32 - 1)).wf = true := by decide +kernel

/-- Written values wider than their registers. -/
theorem wf_refuses_values :
    (∀ f ∈ ([.refCfgWrite, .colqWrite 0, .ucsCustomerWrite 0 false 0, .govLcfgWrite 0 0, .biaCodeWrite 0, .biaTrimWrite 0,
        .frnCmpWrite 0, .evfChcfgWrite 0 0, .evfSrcmapWrite 0 0, .evfLogqWrite 0, .cntCfgWrite 0 0, .dbCmdWrite 0,
        .dbRingConsWrite 0 0, .ringEnable 0 0, .memTrainRun] : List (Nat → Instr)),
      (f (2 ^ 32)).wf = false ∧ (f (2 ^ 32 - 1)).wf = true) ∧
    (∀ f ∈ ([.govWinWrite, .frnSeqWrite 0, .trgGcfgWrite 0 0, .hifOwnWrite 0, .partitionWrite true 0, .incrWrite,
        .adjWrite, fun v => .tallyReceive 0 0 v true, fun v => .decisionBlockReceive 0 0 v true,
        fun v => .alignReceive 0 0 v true 0, fun v => .exchangeRequestReceive 0 0 v true 0 0,
        fun v => .exchangeAnswerReceive 0 0 v true 0, fun v => .parameterPacket 0 v 0, .parameterPacket 0 0]
        : List (Nat → Instr)), (f (2 ^ 64)).wf = false ∧ (f (2 ^ 64 - 1)).wf = true) := by decide +kernel

theorem wf_refuses_the_rest :
    ∀ c ∈ ([.dramSweepComplete 256 0, .dramSweepComplete 0 256, .exchangeStart 0 (2 ^ 68), .fomUpdate 0 0 256, .faultDetected 0 0,
        .faultDetected 15 0, .ucsCustomerWrite 0 false 8192 0, .smbSetPointer 65536, .pcieLinkUp 2 1, .pcieLinkUp 4 0, .pcieLinkUp 4 6,
        .descriptorFetch 0 [], .scrubWord 4 0, .dramRetrain 0 [], .alignReceive 0 0 0 true 256,
        .exchangeRequestReceive 0 0 0 true (2 ^ 68) 0, .exchangeRequestReceive 0 0 0 true 0 (2 ^ 68),
        .exchangeAnswerReceive 0 0 0 true (2 ^ 68), .packetReceive 0 0 [] true, .packetReceive 0 256 (List.replicate 8 0) true,
        .packetReceive 0 0 (List.replicate 9 0) true] : List Instr), c.wf = false := by decide +kernel
/-! ### Time -/

/-- Region 0's staged drive map with entry 63 equal to entry 0. -/
def dupDrv : State := rw_ [(F.GLB_CHMAP_CTRL_STATUS, 1, 0, 0), (F.GLB_CHMAP_STAGE_DRV_IDX, 0, 0, 63)]

theorem wit_ChannelMapIsCheckedAndApplied :
    (chmapBusy State.reset.blk 0 = false ∧ State.reset.blk.regionIdle 0 = true) ∧
    (let s := rw_ [(F.SEQ_STATUS_STATE, 1, 63, 0)];
      chmapBusy s.blk 7 = false ∧ s.blk.regionIdle 7 = false) ∧
    (let s := rw_ [(F.GLB_CHMAP_CTRL_STATUS, 1, 7, 0)];
      chmapBusy s.blk 7 = true ∧ chmapDup s.blk F.GLB_CHMAP_STAGE_DRV_IDX 7 = none ∧
        chmapDup s.blk F.GLB_CHMAP_STAGE_RD_IDX 7 = none) ∧
    (chmapBusy dupDrv.blk 0 = true ∧ chmapDup dupDrv.blk F.GLB_CHMAP_STAGE_DRV_IDX 0 = some 63) ∧
    (let s := rw_ [(F.GLB_CHMAP_CTRL_STATUS, 1, 0, 0), (F.GLB_CHMAP_STAGE_RD_IDX, 0, 0, 1)];
      chmapBusy s.blk 0 = true ∧ chmapDup s.blk F.GLB_CHMAP_STAGE_DRV_IDX 0 = none ∧
        chmapDup s.blk F.GLB_CHMAP_STAGE_RD_IDX 0 = some 1) := by
  and_intros <;> decide +kernel

/-- The reference in use since elapsed tick `t`, at elapsed tick `e`, with registers set. -/
def locked (t e : Nat) (l : List (Fld × Nat × Nat × Nat)) : State :=
  rs (fun b => { sets l b with tim := { b.tim with matchSince := some t }, elapsed := e })

theorem wit_ReferenceIsFollowed :
    refMatches State.reset.blk .m100 = true ∧ refMatches State.reset.blk .m10 = true ∧
    refMatches State.reset.blk .other = false ∧ refMatches (rw_ [(F.TIM_REF_CFG_REF_SEL, 2, 0, 0)]).blk .m100 = false ∧
    (rw_ [(F.TIM_STATUS_SCLK_LOCK, 1, 0, 0)]).blk.on F.TIM_STATUS_SCLK_LOCK = true ∧
    (let s := locked 0 5 [(F.TIM_STATUS_REF_IS_10M, 1, 0, 0)];
      s.blk.tim.matchSince.isSome = true ∧ s.blk.on F.TIM_STATUS_REF_IS_10M = true) ∧
    (let s := locked 7 800007 [(F.TIM_STATUS_HOLDOVER, 1, 0, 0)];
      s.blk.tim.matchSince = some 7 ∧ s.blk.on F.TIM_STATUS_HOLDOVER = true ∧ s.blk.allDisabled = true ∧
        7 + 800000 ≤ s.blk.elapsed) ∧
    field 3 0 2 = 3 ∧
    (let s := rw_ [(F.SEQ_STATUS_STATE, 1, 63, 0)];
      field 33 5 1 ≠ s.blk.rd F.TIM_REF_CFG_CLEAN_100 ∧ s.blk.allDisabled = false) ∧
    (let s := State.reset;
      field 64 0 2 ≠ 3 ∧ field 64 0 2 = s.blk.rd F.TIM_REF_CFG_REF_SEL ∧
        field 64 5 1 = s.blk.rd F.TIM_REF_CFG_CLEAN_100) := by
  and_intros <;> decide +kernel

/-- The counter at `n`, with a load tick, the fall of an MSYNC_OUT pulse, and registers set. -/
def counting (n : Nat) (ld fall : Option Nat) (l : List (Fld × Nat × Nat × Nat)) : State :=
  rs (fun b => { sets l b with now := n, tim := { b.tim with running := true, loadAt := ld, outFall := fall } })

theorem wit_CounterAndMsync :
    (let s := rw_ [(F.TIM_STATUS_SCLK_LOCK, 1, 0, 0)];
      s.blk.tim.running = false ∧ s.blk.on F.TIM_STATUS_SCLK_LOCK = true) ∧
    (2 : Fin 4).val ≠ 3 ∧
    (2 ≤ 2 ∧ (rw_ [(F.TIM_MSYNC_CTRL_ARM, 2, 0, 0)]).blk.rd F.TIM_MSYNC_CTRL_ARM = 2) ∧
    (let s := counting 1000 none none [(F.TIM_MSYNC_CTRL_ARM, 1, 0, 0)];
      s.blk.rd F.TIM_MSYNC_CTRL_ARM = 1 ∧
        (s.blk.now : Int) < loadTick s.blk (16 * s.blk.now + (15 : Fin 16) - s.blk.rdS F.TIM_MSYNC_CTRL_COMP)) ∧
    (let s := counting 1016 (some 1016) none [(F.TIM_MSYNC_LOAD_LOAD, 80, 0, 0)];
      s.blk.tim.loadAt = some 1016 ∧ 1016 ≤ s.blk.now ∧ s.blk.allDisabled = true ∧
        s.blk.rd F.TIM_MSYNC_LOAD_LOAD % refp s.blk = 0) ∧
    (let s := counting 1016 (some 1016) none [(F.TIM_MSYNC_LOAD_LOAD, 81, 0, 0)];
      s.blk.tim.loadAt = some 1016 ∧ 1016 ≤ s.blk.now ∧ s.blk.rd F.TIM_MSYNC_LOAD_LOAD % refp s.blk ≠ 0) ∧
    (let s := counting 1016 (some 1016) none [(F.SEQ_STATUS_STATE, 1, 0, 0)];
      s.blk.tim.loadAt = some 1016 ∧ 1016 ≤ s.blk.now ∧ s.blk.allDisabled = false) ∧
    (let s := counting 9 none none [(F.TIM_MSYNC_OUT_AT_OUT_AT, 10, 0, 0)];
      s.blk.now < s.blk.rd F.TIM_MSYNC_OUT_AT_OUT_AT) ∧
    (let s := counting 11 none none [(F.TIM_MSYNC_OUT_AT_OUT_AT, 10, 0, 0)];
      s.blk.rd F.TIM_MSYNC_OUT_AT_OUT_AT < s.blk.now) ∧
    (let s := counting 10 none none [(F.TIM_MSYNC_OUT_AT_OUT_AT, 10, 0, 0), (F.TIM_MSYNC_CTRL_OUT_MODE, 1, 0, 0)];
      s.blk.tim.outFall = none ∧ s.blk.rd F.TIM_MSYNC_CTRL_OUT_MODE = 1 ∧
        s.blk.now = s.blk.rd F.TIM_MSYNC_OUT_AT_OUT_AT) ∧
    (let s := counting 10 none (some 0) [];
      s.blk.tim.outFall = some 0 ∧ 0 ≤ s.blk.elapsed) := by
  and_intros <;> decide +kernel

/-- A message for drive port 0's PSCALE with a deadline. -/
def dlMsg (v : Option Nat) : DlMsg :=
  ⟨v, 0, 0, 0, .gran, some 0, true, none, false, .param (F.DRV_PSCALE_PSCALE.key 0 0) F.DRV_PSCALE_PSCALE.wid 5⟩

/-- A branch request that waits in island 0's queue, due at tick 0. -/
def brEnt : DlEnt := ⟨⟨none, 4, 0, 0, .tick, some 3, true, none, false, .branch 3 77⟩, 0, 0⟩

/-- The miss policy of class 0. -/
def policy (p : Nat) : State :=
  rs (fun b => { sets [(⟨.timDlPolicy, 0, 2⟩, p, 0, 0)] b with now := 100 })

theorem wit_DeadlineMessagesAreJudged :
    (let s := policy 0;
      (s.blk.queueOf 0).length < dlCap 0 ∧ (s.blk.now : Int) + 2 ≤ fullTick s.blk.now 102 ∧
        fullTick s.blk.now 102 ≤ (s.blk.now : Int) + 2 ^ 30) ∧
    (let s := policy 0;
      (s.blk.now : Int) + 2 ≤ fullTick s.blk.now (100 + 2 ^ 30) ∧
        fullTick s.blk.now (100 + 2 ^ 30) ≤ (s.blk.now : Int) + 2 ^ 30) ∧
    (let s := policy 0;
      (s.blk.queueOf 0).length < dlCap 0 ∧ (dlMsg (some 101)).deadline = some 101 ∧
        fullTick s.blk.now 101 < (s.blk.now : Int) + 2 ∧ dlPolicy s.blk 0 = 0) ∧
    (let s := policy 1;
      (s.blk.queueOf 0).length < dlCap 0 ∧ fullTick s.blk.now 101 < (s.blk.now : Int) + 2 ∧ dlPolicy s.blk 0 = 1) ∧
    (let s := policy 2;
      (s.blk.queueOf 0).length < dlCap 0 ∧ fullTick s.blk.now 101 < (s.blk.now : Int) + 2 ∧
        2 ≤ dlPolicy s.blk 0 ∧ targetRes s.blk (dlMsg none).target = some 0) ∧
    (let s := policy 0;
      (s.blk.queueOf 0).length < dlCap 0 ∧
        (s.blk.now : Int) + 2 ^ 30 < fullTick s.blk.now (101 + 2 ^ 30)) ∧
    (let s := rs (fun b => { b with dlq := [(2, List.replicate 64 brEnt)] });
      dlCap 2 ≤ (s.blk.queueOf 2).length) ∧
    (let s := rs (fun b => { b with dlHeld := [dlMsg none] });
      (s.blk.queueOf 0).length < dlCap 0 ∧ takeHeld 0 s.blk.dlHeld = some (dlMsg none, []) ∧
        (dlMsg none).deadline = none) ∧
    (∀ q pc shot, (dlMsg none).target ≠ .start q pc shot) ∧
    (let s := rs (fun b => { b with dlq := [(0, [brEnt])] });
      s.blk.queueOf 0 = [brEnt] ∧ dlDue s.blk brEnt = true ∧ brEnt.msg.target = .branch 3 77 ∧
        brEnt.msg.poison = false) := by
  and_intros <;> first | decide +kernel | (intro _ _ _ h; cases h)

/-! ### DAC ports -/

/-- A port with registers set and its own state changed. -/
def prt (p : Nat) (f : PortSt → PortSt) (l : List (Fld × Nat × Nat × Nat)) : State :=
  rs (fun b => let b := sets l b; b.setPort p (f (b.port p)))

theorem wit_DacRampsFollowEnable :
    (let s := rw_ [(F.DRV_CTRL_EN, 1, 47, 0), (F.TIM_STATUS_SCLK_LOCK, 1, 0, 0)];
      s.blk.actOn F.DRV_CTRL_EN 47 = true ∧ s.blk.rd F.GLB_LC_STATE ≠ 3 ∧
        s.blk.on F.TIM_STATUS_SCLK_LOCK = true ∧ s.blk.ostate 47 = oMuted) ∧
    (let s := prt 0 (fun x => { x with rampEnd := 300 }) [(F.DRV_CTRL_EN, 1, 0, 0),
        (F.TIM_STATUS_SCLK_LOCK, 1, 0, 0), (F.DRV_STATUS_OSTATE, 3, 0, 0)];
      s.blk.actOn F.DRV_CTRL_EN 0 = true ∧ s.blk.rd F.GLB_LC_STATE ≠ 3 ∧
        s.blk.on F.TIM_STATUS_SCLK_LOCK = true ∧ s.blk.ostate 0 = oRampDown) ∧
    (let s := rw_ [(F.DRV_STATUS_OSTATE, 2, 0, 0)]; s.blk.actOn F.DRV_CTRL_EN 0 = false ∧ s.blk.ostate 0 = oOn) ∧
    (let s := rw_ [(F.DRV_STATUS_OSTATE, 1, 0, 0)]; s.blk.actOn F.DRV_CTRL_EN 0 = false ∧ s.blk.ostate 0 = oRampUp) ∧
    (let s := rw_ [(F.DRV_STATUS_OSTATE, 4, 0, 0)];
      s.blk.actOn F.DRV_CTRL_EN 0 = false ∧ s.blk.ostate 0 = oHold ∧ s.blk.on F.DRV_STATUS_LEVEL_PEND 0 = false) ∧
    (let s := rw_ [(F.DRV_STATUS_OSTATE, 1, 0, 0)]; (s.blk.port 0).rampEnd ≤ s.blk.now ∧ s.blk.ostate 0 = oRampUp) ∧
    (let s := rw_ [(F.DRV_STATUS_OSTATE, 3, 0, 0)];
      (s.blk.port 0).rampEnd ≤ s.blk.now ∧ s.blk.ostate 0 = oRampDown) := by
  and_intros <;> decide +kernel

theorem wit_DacLevelsAreStagedAndAdopted :
    (let s := rw_ [(F.DRV_LEVEL_ACT_FSCODE, 9, 0, 0), (F.DRV_LEVEL_FSCODE, 9, 0, 0), (F.DRV_LEVEL_ACT_ATT, 3, 0, 0),
        (F.DRV_LEVEL_ATT, 3, 0, 0)];
      s.blk.act F.DRV_LEVEL_FSCODE 0 = s.blk.rd F.DRV_LEVEL_ACT_FSCODE 0 ∧
        s.blk.act F.DRV_LEVEL_ATT 0 = s.blk.rd F.DRV_LEVEL_ACT_ATT 0) ∧
    (let s := rw_ [(F.DRV_LEVEL_ACT_ATT, 3, 0, 0), (F.DRV_LEVEL_ATT, 4, 0, 0)];
      levelSame s.blk 0 = false ∧ s.blk.ostate 0 = oMuted) ∧
    (let s := rw_ [(F.DRV_LEVEL_ACT_ATT, 3, 0, 0), (F.DRV_LEVEL_ATT, 4, 0, 0), (F.DRV_STATUS_OSTATE, 5, 0, 0)];
      levelSame s.blk 0 = false ∧ s.blk.ostate 0 = oHard) ∧
    (let s := rw_ [(F.DRV_LEVEL_ACT_ATT, 3, 0, 0), (F.DRV_LEVEL_ATT, 4, 0, 0), (F.DRV_STATUS_OSTATE, 2, 0, 0)];
      levelSame s.blk 0 = false ∧ s.blk.ostate 0 ≠ oMuted ∧ s.blk.ostate 0 ≠ oHard) ∧
    (let s := rw_ [(F.DRV_STATUS_LEVEL_PEND, 1, 0, 0), (F.DRV_STATUS_OSTATE, 2, 0, 0)];
      s.blk.on F.DRV_STATUS_LEVEL_PEND 0 = true ∧ s.blk.ostate 0 = oOn ∧ s.blk.now % 4 = 0 ∧
        portSilent s.blk 0 = true) ∧
    (let s := rw_ [(F.DRV_STATUS_OSTATE, 4, 0, 0)];
      s.blk.ostate 0 = oHold ∧ s.blk.on F.DRV_STATUS_LEVEL_PEND 0 = false) := by
  and_intros <;> decide +kernel

theorem wit_DacModeSwitchAndPhaseReset :
    (let s := rw_ [(F.SEQ_STATUS_STATE, 1, 0, 0)];
      (2 : Fin 4).val ≠ 3 ∧ ¬ ((2 : Fin 4).val = 2 ∧ 32 ≤ (0 : DacPort).val) ∧
        (2 : Fin 4).val ≠ s.blk.rd F.DRV_CTRL_MODE 0 ∧ s.blk.seqState (portSeq 0) ≠ sDisabled) ∧
    (let s := State.reset;
      (1 : Fin 4).val ≠ 3 ∧ ¬ ((1 : Fin 4).val = 2 ∧ 32 ≤ (47 : DacPort).val) ∧
        (1 : Fin 4).val ≠ s.blk.rd F.DRV_CTRL_MODE 47 ∧ s.blk.seqState (portSeq 47) = sDisabled) ∧
    (let s := prt 0 (fun x => { x with busyEnd := some 0 }) [];
      (s.blk.port 0).busyEnd = some 0 ∧ 0 ≤ s.blk.now) ∧
    (let s := State.reset;
      (15 : Fin 32).val < nSlots (31 : DacPort) ∧ (31 : Fin 32).val < nSlots (32 : DacPort) ∧
        s.blk.act F.DRV_SCTRL_PMODE 31 15 ≠ 1) := by
  and_intros <;> decide +kernel

/-- A flat-top segment part of 100 granules from tick 4,000. -/
def flatSeg : SegSlot := ⟨0, 4000, 400, false, true, 10, true, false, none⟩

theorem wit_DacStreamsAndStops :
    (let s := prt 0 (fun x => { x with streamEnd := 4, streamLeft := 64 }) [(F.DRV_STATUS_STREAM_ACT, 1, 0, 0), (F.DRV_STREAM_SMODE, 1, 0, 0)];
      underruns s.blk 0 = true ∧ (s.blk.seq (portSeq 0)).line = []) ∧
    (let s := prt 32 (fun x => { x with slots := [(31, { SlotSt.reset with seg := some flatSeg })] }) [];
      (s.blk.slot 32 31).seg = some flatSeg ∧ flatSeg.flat = true ∧ flatSeg.estop = true ∧ flatSeg.start ≤ 4358 ∧
        flatSeg.stop = none ∧ granule (4351 + 2) < flatSeg.start + flatSeg.len ∧
        (granule (4351 + 2) - flatSeg.start) / 4 < flatSeg.len / 4 - min flatSeg.ramp (flatSeg.len / 8)) ∧
    (let s := prt 0 (fun x => { x with mute := some .gov, enSeen := true })
        [(F.DRV_STATUS_OSTATE, 5, 0, 0), (F.DRV_CTRL_EN, 1, 0, 0)];
      s.blk.ostate 0 = oHard ∧ (s.blk.port 0).mute = some .gov ∧ (s.blk.port 0).enSeen = true ∧
        s.blk.actOn F.DRV_CTRL_EN 0 = true ∧ tallyLow s.blk 0 = true ∧ s.blk.now % 4 = 0) := by
  and_intros <;> decide +kernel

/-! ### Acquisition -/

/-- An acquisition port with registers set and its own state changed. -/
def acqs_ (k : Nat) (f : AcqSt → AcqSt) (l : List (Fld × Nat × Nat × Nat)) : State :=
  rs (fun b => let b := sets l b; b.setAcq k (f (b.acq k)))

/-- A two-way configuration of a discriminator. -/
def dcfg : DCfg := ⟨false, false, true, 0, 1, 1, 0, 0, 0, 0, 0, 0, 0, 100, -100, 0, 0, 0, 0⟩

/-- A window of eight bin steps from bin step 250, of which `n` are done. -/
def win (n : Nat) : Win := ⟨250, 8, 1, 19, 0, 0, 0, 32, dcfg, 1, 0, 0, n, decide (n = 8), 0, 0, false, false⟩

theorem wit_AcqPortIsConfigured :
    (rw_ [(F.ACQ_CTRL_EN, 1, 15, 0)]).blk.actOn F.ACQ_CTRL_EN 15 = true ∧
    State.reset.blk.actOn F.ACQ_CTRL_EN 0 = false ∧
    (let s := acqs_ 0 (fun a => { a with gainEnd := some 0 }) [];
      (s.blk.acq 0).gainEnd = some 0 ∧ 0 ≤ s.blk.now) ∧
    State.reset.blk.rd F.ACQ_CFG_CTRL_STATUS 0 ≠ 1 ∧
    (rw_ [(F.ACQ_CFG_CTRL_STATUS, 1, 15, 0)]).blk.rd F.ACQ_CFG_CTRL_STATUS 15 = 1 ∧
    (rw_ [(F.ACQ_DTRK_TRK_EN, 1, 0, 31)]).blk.actOn F.ACQ_DTRK_TRK_EN 0 31 = true := by
  and_intros <;> decide +kernel

theorem wit_WindowsDecideAndCrevassesRun :
    (let s := acqs_ 1 (fun a => { a with slots := [(0, { DemodSt.reset with wins := [win 7] })] }) [];
      (s.blk.demod 1 0).wins = win 7 :: [] ∧ (win 7).due = false ∧ (win 7).n < (win 7).klen) ∧
    (let s := acqs_ 1 (fun a => { a with slots := [(0, { DemodSt.reset with wins := [win 8] })] }) [];
      (s.blk.demod 1 0).wins = win 8 :: [] ∧ (win 8).due = true) ∧
    (let s := (rs (fun b => (sets [(F.SEQ_STATUS_STATE, 2, acqSeq 0, 0)] b).setSeq (acqSeq 0) { SeqSt.reset with
        line := [⟨{ Entry.empty with kind := .wait, len := 1600 }, 0, some 1600, true, 256, false, 0, none⟩] }));
      (s.blk.acq 0).crev = none ∧ anyWindow s.blk 0 = false ∧ crevGap s.blk 0 = some 1600 ∧ 1600 ≤ 1600) ∧
    (let s := acqs_ 0 (fun a => { a with crev := some (some 0) }) [];
      (s.blk.acq 0).crev = some (some 0) ∧ 0 ≤ s.blk.now) := by
  and_intros <;> decide +kernel

/-! ### Decisions and the collector -/

theorem wit_DecisionVectorCopiesFollow :
    (511 : Fin 768).val < 512 ∧ (2 : Fin 4).val ≠ 1 ∧ (1 : Fin 4).val = 1 := by
  and_intros <;> decide

/-- A locked Habor port 0 that exports channel 511, with a latch ready. -/
def lnk0 : State :=
  rs (fun b => let b := sets [(F.DSC_XMASK_MASK, 2 ^ 63, 0, 7), (F.LNK_PSTAT_STATE, 3, 0, 0)] b;
    { b with dsc := { b.dsc with latch := [(511, ⟨0, 1, false, false, false, 5⟩)] } })

theorem wit_DecisionsCrossModules :
    ((0 : HabPort).val ∈ exporters lnk0.blk 511 ∧ lnk0.blk.rd F.LNK_PSTAT_STATE 0 = lnkLocked) ∧
    (forwardRun lnk0.blk.now (lnk0.blk.dsc.fwd.get [] 0) = [] ∧ readyLatches lnk0.blk 0 ≠ []) ∧
    (field (2 ^ 60 + 2 ^ 15) 60 4 = 1 ∧ bit (field (2 ^ 60 + 2 ^ 15) (16 * 0) 16) 15 = true) ∧
    (let s := rw_ [(F.DSC_IMPORT_VALID, 1, 255, 0), (F.DSC_IMPORT_ORIGIN, 63, 255, 0), (F.DSC_IMPORT_CHANNEL, 511, 255, 0)];
      s.blk.actOn F.DSC_IMPORT_VALID 255 = true ∧ s.blk.act F.DSC_IMPORT_ORIGIN 255 = (63 : Fin 64) ∧
        s.blk.act F.DSC_IMPORT_CHANNEL 255 = (511 : Chan)) := by
  and_intros <;> decide +kernel

/-- A record of channel 0 and shot 7, decided at tick 100. -/
def aRec : Rec := ⟨0, 0, 7, 1, 0, 8, 5, -5, 100⟩

/-- The result ring of function 0 on. -/
def ring0 (f : Blk → Blk) : State :=
  rs (fun b => f (sets [(F.HIF_RCFG_EN, 1, 0, 2), (F.HIF_RCFG_LOG2N, 4, 0, 2)] b))

/-- An ended shot of sequencer 0. -/
def endedShot : Shot := ⟨7, 4000, 0, 256, false, false⟩

theorem wit_CollectorKeepsItsOrder :
    (let s := rs (fun b => { b with now := 103, dsc := { b.dsc with arriving := [aRec] } });
      s.blk.dsc.arriving = [aRec] ∧ aRec.dtick + 3 ≤ s.blk.now ∧ s.blk.dsc.intake = [] ∧
        fill s.blk (s.blk.chanOwner aRec.chan) < s.blk.rd F.DSC_COLQ_QUOTA (s.blk.chanOwner aRec.chan)) ∧
    (let s := ring0 (fun b => { b with dsc := { b.dsc with buffer := [(0, aRec)] } });
      ringRoom s.blk 0 2 = true ∧ markerDue s.blk 0 = false ∧
        s.blk.dsc.buffer.find? (fun x => x.1 == (0 : Func).val) = some (0, aRec)) ∧
    (let s := ring0 (fun b => { b with dsc := { b.dsc with marker := [(0, ⟨7, 100, 1, 0⟩)] } });
      ringRoom s.blk 0 2 = true ∧ s.blk.dsc.marker.find (0 : Func).val = some ⟨7, 100, 1, 0⟩) ∧
    (let s := rs (fun b => (sets [(F.HIF_FCTRL_SUMMARY_EN, 1, 0, 0)] b).setSeq 0
        { SeqSt.reset with ended := [(endedShot, 5000)] });
      (s.blk.seq 0).ended.find? (fun e => e.1.no == 7) = some (endedShot, 5000) ∧ seqKind 0 ≠ .acq ∧
        s.blk.on F.HIF_FCTRL_SUMMARY_EN (s.blk.seqOwner 0) = true ∧
        fill s.blk (s.blk.seqOwner 0) < s.blk.rd F.DSC_COLQ_QUOTA (s.blk.seqOwner 0)) ∧
    (let s := rw_ [(F.DSC_COLQ_QUOTA, 512, 0, 0)];
      1024 < ((List.range 16).filter (fun g => g ≠ (1 : Func).val)).foldl
        (fun n g => n + s.blk.rd F.DSC_COLQ_QUOTA g) 0 + 513 % 2048) ∧
    (let s := rw_ [(F.DSC_COLQ_QUOTA, 512, 0, 0)];
      ((List.range 16).filter (fun g => g ≠ (1 : Func).val)).foldl
        (fun n g => n + s.blk.rd F.DSC_COLQ_QUOTA g) 0 + 512 % 2048 ≤ 1024) := by
  and_intros <;> decide +kernel

/-! ### Sequencers -/

/-- A sequencer with registers set and its own state changed. -/
def sq (q : Nat) (f : SeqSt → SeqSt) (l : List (Fld × Nat × Nat × Nat)) : State :=
  rs (fun b => let b := sets l b; b.setSeq q (f (b.seq q)))

theorem wit_SequencersStart :
    (let s := rw_ [(F.SEQ_CTRL_EN, 1, 63, 0), (F.UCS_STATUS_VIMG_READY, 1, 7, 0)];
      s.blk.actOn F.SEQ_CTRL_EN 63 = true ∧ s.blk.seqState 63 = 0 ∧ s.blk.rd F.GLB_LC_STATE ≠ 2 ∧
        enReady s.blk 63 = true) ∧
    (let s := rw_ [(F.SEQ_CTRL_EN, 1, 0, 0), (F.UCS_STATUS_VIMG_READY, 1, 0, 0), (F.GLB_LC_STATE, 2, 0, 0),
        (F.GOV_CTRL_LOCK, 1, 0, 0), (F.RCV_RSTAT_STATE, 1, 0, 0)];
      s.blk.actOn F.SEQ_CTRL_EN 0 = true ∧ s.blk.seqState 0 = 0 ∧ s.blk.on F.GOV_CTRL_LOCK = true ∧
        enReady s.blk 0 = false) ∧
    (let s := rw_ [(F.SEQ_CTRL_EN, 1, 0, 0), (F.GLB_LC_STATE, 2, 0, 0)];
      s.blk.actOn F.SEQ_CTRL_EN 0 = true ∧ s.blk.seqState 0 = 0 ∧ s.blk.rd F.GLB_LC_STATE = 2 ∧
        s.blk.on F.GOV_CTRL_LOCK = false) ∧
    (let s := rw_ [(F.SEQ_STATUS_STATE, 1, 0, 0), (F.SEQ_CTRL_TRIG_EN, 1, 0, 0)];
      s.blk.seqState 0 = 1 ∧ (s.blk.seq 0).pendStart = none ∧ (s.blk.seq 0).stopAt = none ∧
        regionHeld s.blk 0 = false ∧ s.blk.on F.SEQ_CTRL_TRIG_EN 0 = true ∧ (s.blk.seq 0).halted = false) ∧
    (State.reset.blk.seqState 0 = 0 ∧ State.reset.blk.on F.RCV_RESUME_VALID 0 = false) ∧
    (let s := rw_ [(F.RCV_RSTAT_STATE, 1, 7, 0)]; s.blk.seqState 63 = 0 ∧ regionHeld s.blk (63 / 8) = true) ∧
    State.reset.blk.on F.SEQ_CTRL_TRIG_EN 0 = false ∧
    (let r : StartReq := ⟨0, some 5, some 9, true, none⟩;
      let s := sq 0 (fun x => { x with pendStart := some r }) [(F.SEQ_STATUS_STATE, 1, 0, 0), (F.SEQ_CTRL_EN, 1, 0, 0)];
      (s.blk.seq 0).pendStart = some r ∧ r.at_ ≤ s.blk.now ∧ s.blk.seqState 0 = 1 ∧
        s.blk.actOn F.SEQ_CTRL_EN 0 = true) := by
  and_intros <;> decide +kernel

/-- A committed entry of a kind from tick 0, started or not. -/
def cent (k : EKind) (stop : Option Nat) (st : Bool) : CEntry :=
  ⟨{ Entry.empty with kind := k, len := 16, tmo := 20, ch := 7, fb := 40, ttgt := 41 }, 0, stop, st, 256, false, 0, none⟩

theorem wit_SequencersStop :
    (let s := rw_ [(F.SEQ_STATUS_STATE, 1, 0, 0)];
      s.blk.actOn F.SEQ_CTRL_EN 0 = false ∧ (s.blk.seq 0).held = none ∧ (s.blk.seq 0).pendStart = none ∧
        s.blk.seqState 0 = 1) ∧
    (let s := rw_ [(F.SEQ_STATUS_STATE, 2, 0, 0)];
      s.blk.actOn F.SEQ_CTRL_EN 0 = false ∧ s.blk.seqState 0 = 2 ∧ (s.blk.seq 0).stopAt = none) ∧
    State.reset.blk.seqState 0 ≠ 2 ∧
    (let s := sq 0 (fun x => { x with stopAt := some 0 }) [(F.SEQ_STATUS_STATE, 2, 0, 0)];
      s.blk.seqState 0 = 2 ∧ (s.blk.seq 0).stopAt = some 0 ∧ 0 ≤ s.blk.now) ∧
    (let s := rw_ [(F.SEQ_STATUS_STATE, 3, 6, 0)];
      s.blk.seqState 6 = 3 ∧ regionHeld s.blk 0 = false ∧ anyWindow s.blk (seqPort 6) = false) ∧
    (let s := rs (fun b => (sets [(F.SEQ_STATUS_STATE, 3, 6, 0)] b).setAcq 0
        { AcqSt.reset with slots := [(0, { DemodSt.reset with wins := [win 3] })] });
      s.blk.seqState 6 = 3 ∧ regionHeld s.blk (6 / 8) = false ∧ seqKind 6 = .acq ∧
        anyWindow s.blk (seqPort 6) = true) ∧
    (let s := sq 0 (fun x => { x with line := [cent .halt (some 0) true] }) [(F.SEQ_STATUS_STATE, 2, 0, 0)];
      (s.blk.seq 0).line = cent .halt (some 0) true :: [] ∧ (cent .halt (some 0) true).started = true ∧
        (cent .halt (some 0) true).e.kind = .halt ∧ s.blk.seqState 0 = 2) := by
  and_intros <;> decide +kernel

theorem wit_EntriesCommitAndStart :
    (let e := { Entry.empty with kind := .wait, len := 16 };
      let s := sq 0 (fun x => { x with next := some (e, 0), lastEnd := some 11 }) [(F.SEQ_STATUS_STATE, 2, 0, 0)];
      s.blk.seqState 0 = 2 ∧ (s.blk.seq 0).stopAt = none ∧ (s.blk.seq 0).next = some (e, 0) ∧
        commitPoint (s.blk.seq 0) 0 ≤ s.blk.now ∧ (s.blk.seq 0).lastEnd = some 11 ∧ 11 < s.blk.now + 12) ∧
    (let c := cent .waitd none false;
      let s := sq 0 (fun x => { x with line := [c] }) [(F.SEQ_STATUS_STATE, 2, 0, 0)];
      s.blk.seqState 0 = 2 ∧ lineFrom s.blk.now (s.blk.seq 0).line = some (c, [])) ∧
    (let x : Member := ⟨15, 0, [], false⟩;
      let c := { cent .seg (some 16) false with e := { Entry.empty with kind := .seg, len := 4, members := [x] } };
      let s := sq 0 (fun x => { x with line := [c] }) [(F.SEQ_STATUS_STATE, 2, 0, 0)];
      s.blk.seqState 0 = 2 ∧ lineFrom s.blk.now (s.blk.seq 0).line = some (c, []) ∧ c.e.acts = [] ∧
        c.e.kind = .seg ∧ seqKind 0 ≠ .acq ∧ c.veto = false ∧ c.e.members = [x] ∧ x.denied = false ∧
        c.e.stream = false ∧ s.blk.rd F.DRV_STATUS_MODE_ACT (seqPort 0) ≠ 2) := by
  and_intros <;> decide +kernel

/-- Sequencer 0 RUNNING in an open wait of a kind at tick `n`. -/
def waiting (k : EKind) (n : Nat) (u : Option Nat) : State :=
  rs (fun b => let b := sets [(F.SEQ_STATUS_STATE, 2, 0, 0)] b;
    { b.setSeq 0 { SeqSt.reset with line := [cent k none true], satU := u } with now := n })

theorem wit_WaitsEnd :
    (let s := waiting .waitd 20 (some 5);
      s.blk.seqState 0 = 2 ∧ openOf (s.blk.seq 0) .waitd = some (cent .waitd none true) ∧
        (s.blk.seq 0).satU.isSome = true) ∧
    (let s := waiting .waitd 20 none;
      s.blk.seqState 0 = 2 ∧ openOf (s.blk.seq 0) .waitd = some (cent .waitd none true) ∧
        (s.blk.seq 0).satU = none ∧ (cent .waitd none true).e.tmo ≠ 0 ∧
        (cent .waitd none true).start + (cent .waitd none true).e.tmo ≤ s.blk.now ∧
        isHead s.blk 0 (progWord s.mem 0 (cent .waitd none true).e.fb) = false) ∧
    (let s := waiting .waitev 20 none;
      openOf (s.blk.seq 0) .waitev = some (cent .waitev none true) ∧
        (cent .waitev none true).e.ch = (7 : Fin 256) ∧ (cent .waitev none true).e.ch ≠ (8 : Fin 256) ∧
        isHead s.blk 0 (progWord s.mem 0 (s.blk.seq 0).pc) = false ∧ (cent .waitev none true).e.tmo ≠ 0 ∧
        (cent .waitev none true).start + (cent .waitev none true).e.tmo ≤ s.blk.now ∧
        isHead s.blk 0 (progWord s.mem 0 (cent .waitev none true).e.ttgt) = false) := by
  and_intros <;> decide +kernel

/-- A routine at its entry that has read register 3 at tick 1. -/
def aRt : Rt := ⟨6144, 6145, 0, [], 1, [(3, 1)], Entry.empty, [], false, false, none⟩

theorem wit_RequestsAndRegisters :
    State.reset.blk.seqState 0 ≠ 2 ∧
    (let s := sq 0 (fun x => { x with line := [cent .wait (some 12) true] }) [(F.SEQ_STATUS_STATE, 2, 0, 0)];
      s.blk.seqState 0 = 2 ∧ regionHeld s.blk 0 = false ∧ inProgress s.blk (s.blk.seq 0) = .ends 12 ∧
        12 ≤ s.blk.now + 12) ∧
    (let s := sq 0 (fun x => { x with line := [cent .wait (some 13) true] }) [(F.SEQ_STATUS_STATE, 2, 0, 0)];
      s.blk.seqState 0 = 2 ∧ inProgress s.blk (s.blk.seq 0) = .ends 13 ∧ s.blk.now + 12 < 13 ∧
        isHead s.blk 0 (progWord s.mem 0 (4095 : Fin 4096)) = false) ∧
    (let s := rw_ [(F.SEQ_STATUS_STATE, 2, 0, 0)]; s.blk.seqState 0 = 2 ∧ hasRead s.mem s.blk 0 15 = false) ∧
    (let s := rs (fun b => let b := sets [(F.SEQ_STATUS_STATE, 2, 0, 0)] b;
        { b.setSeq 0 { SeqSt.reset with rt := some aRt } with now := 2 });
      s.blk.seqState 0 = 2 ∧ (s.blk.seq 0).rt = some aRt ∧ aRt.committed = false ∧ hasRead s.mem s.blk 0 3 = true) := by
  and_intros <;> decide +kernel

/-! ### Instructions -/

/-- The instruction word with opcode `op` and operand bits `v` (R223). -/
def iw (op v : Nat) : Nat := op * 2 ^ 57 + v

/-- Sequencer `q` RUNNING at word 0 of its program memory, which holds `w`. -/
def ins (q w : Nat) (f : SeqSt → SeqSt) : State :=
  { sq q f [(F.SEQ_STATUS_STATE, 2, q, 0)] with mem := (⟨[], []⟩ : Mem).put (pgmBase q) (leBytes 8 w) }

/-- The entry under construction is of a kind. -/
def building (e : Entry) (x : SeqSt) : SeqSt := { x with build := e }

def waitEntry : Entry := { Entry.empty with kind := .wait, len := 5 }

theorem wit_ProgramFlowInstructions :
    AtWord (ins 63 (iw 0 0) id) 63 0x00 (iw 0 0) ∧
    AtWord (ins 0 (iw 7 4095) id) 0 0x07 (iw 7 4095) ∧
    AtWord (ins 0 (iw 8 (15 * 2 ^ 52 + 5 * 2 ^ 49 + 4095)) id) 0 0x08 (iw 8 (15 * 2 ^ 52 + 5 * 2 ^ 49 + 4095)) ∧
    (let s := ins 0 (iw 9 9) (fun x => { x with calls := [1, 2, 3, 4, 5, 6, 7] });
      AtWord s 0 0x09 (iw 9 9) ∧ (s.blk.seq 0).calls.length < 8) ∧
    (let s := ins 0 (iw 9 9) (fun x => { x with calls := [1, 2, 3, 4, 5, 6, 7, 8] });
      AtWord s 0 0x09 (iw 9 9) ∧ 8 ≤ (s.blk.seq 0).calls.length) ∧
    (let s := ins 0 (iw 10 0) (fun x => { x with calls := [4095] });
      AtWord s 0 0x0A (iw 10 0) ∧ (s.blk.seq 0).calls = 4095 :: []) ∧
    (AtWord (ins 0 (iw 10 0) id) 0 0x0A (iw 10 0) ∧ ((ins 0 (iw 10 0) id).blk.seq 0).calls = []) ∧
    (let w := iw 11 (4095 * 2 ^ 44); AtWord (ins 0 w id) 0 0x0B w ∧ field w 0 24 % 2 ^ 24 = 0) ∧
    (let w := iw 11 (2 ^ 24 - 1);
      let s := ins 0 w (fun x => { x with loops := [(1, 1), (2, 2), (3, 3)] });
      AtWord s 0 0x0B w ∧ field w 0 24 % 2 ^ 24 ≠ 0 ∧ (s.blk.seq 0).loops.length < 4) ∧
    (let w := iw 11 1;
      let s := ins 0 w (fun x => { x with loops := [(1, 1), (2, 2), (3, 3), (4, 4)] });
      AtWord s 0 0x0B w ∧ field w 0 24 % 2 ^ 24 ≠ 0 ∧ 4 ≤ (s.blk.seq 0).loops.length) ∧
    (let s := ins 0 (iw 12 0) (fun x => { x with loops := [(2, 7)] });
      AtWord s 0 0x0C (iw 12 0) ∧ (s.blk.seq 0).loops = (2, 7) :: [] ∧ 2 % 2 ^ 24 ≠ 1) ∧
    (let s := ins 0 (iw 12 0) (fun x => { x with loops := [(1, 7)] });
      AtWord s 0 0x0C (iw 12 0) ∧ (s.blk.seq 0).loops = (1, 7) :: []) ∧
    (AtWord (ins 0 (iw 12 0) id) 0 0x0C (iw 12 0) ∧ ((ins 0 (iw 12 0) id).blk.seq 0).loops = []) ∧
    (let w := iw 0x16 (15 * 2 ^ 52 + 8 * 2 ^ 40 + 2 ^ 39 + 5); AtWord (ins 0 w id) 0 0x16 w) := by
  unfold AtWord
  and_intros <;> decide +kernel

theorem wit_EntryInstructions :
    (AtWord (ins 0 (iw 1 0) id) 0 0x01 (iw 1 0) ∧ ((ins 0 (iw 1 0) id).blk.seq 0).build.kind = .none) ∧
    (let s := ins 0 (iw 1 0) (building waitEntry); AtWord s 0 0x01 (iw 1 0) ∧ (s.blk.seq 0).build.kind ≠ .none) ∧
    (let w := iw 2 (15 * 2 ^ 50 + 4);
      AtWord (ins 0 w id) 0 0x02 w ∧ ((ins 0 w id).blk.seq 0).build.kind = .none ∧
        ((ins 0 w id).blk.seq 0).build.members.any (fun y => y.slot == field w 50 5) = false) ∧
    (let w := iw 2 (2 ^ 56 + 15 * 2 ^ 50 + 65535);
      let s := ins 0 w (building { Entry.empty with kind := .seg, len := 65535, members := [⟨14, 0, [], false⟩] });
      AtWord s 0 0x02 w ∧ (s.blk.seq 0).build.kind = .seg ∧ (s.blk.seq 0).build.len = field w 0 16 ∧
        (s.blk.seq 0).build.members.any (fun y => y.slot == field w 50 5) = false) ∧
    (let w := iw 2 4;
      let s := ins 0 w (building { Entry.empty with kind := .seg, len := 5 });
      AtWord s 0 0x02 w ∧ (s.blk.seq 0).build.kind = .seg ∧ (s.blk.seq 0).build.len ≠ field w 0 16) ∧
    (let w := iw 2 4;
      let s := ins 0 w (building { Entry.empty with kind := .seg, len := 4, members := [⟨0, 0, [], false⟩] });
      AtWord s 0 0x02 w ∧ (s.blk.seq 0).build.members.any (fun y => y.slot == field w 50 5) = true) ∧
    (let s := ins 0 (iw 3 5) (building waitEntry); AtWord s 0 0x03 (iw 3 5) ∧ (s.blk.seq 0).build.kind ≠ .none) ∧
    (AtWord (ins 0 (iw 3 0) id) 0 0x03 (iw 3 0) ∧ ((ins 0 (iw 3 0) id).blk.seq 0).build.kind = .none ∧
      field (iw 3 0) 0 32 = 0) ∧
    (let w := iw 3 (2 ^ 32 - 1); AtWord (ins 0 w id) 0 0x03 w ∧ field w 0 32 ≠ 0) ∧
    (∀ c ∈ [(0x04, 7), (0x05, 7), (0x06, 2 ^ 44), (0x13, 2)],
      AtWord (ins 0 (iw c.1 c.2) (building waitEntry)) 0 c.1 (iw c.1 c.2) ∧ AtWord (ins 0 (iw c.1 c.2) id) 0 c.1 (iw c.1 c.2)) ∧
    (let w := iw 0x14 4;
      let d : FetchD := ⟨0, 4, 64, 0, false, false⟩;
      (AtWord (ins 0 w id) 0 0x14 w ∧ bit w 56 = false ∧ (queued ((ins 0 w id).blk.seq 0)).length < 4) ∧
      (let s := ins 0 w (fun x => { x with fetchq := [d, d, d, d] });
        AtWord s 0 0x14 w ∧ 4 ≤ (queued (s.blk.seq 0)).length) ∧
      (let s := ins 0 w (fun x => { x with fetchq := [d, d, d] }); (queued (s.blk.seq 0)).length < 4)) ∧
    (let w := iw 0x14 (2 ^ 56);
      let s := ins 0 w (building waitEntry);
      AtWord s 0 0x14 w ∧ bit w 56 = true ∧ addStream (s.blk.seq 0) (s.blk.seq 0).build = none) ∧
    (let w := iw 0x14 (2 ^ 56);
      AtWord (ins 0 w id) 0 0x14 w ∧ bit w 55 = false ∧
        addStream ((ins 0 w id).blk.seq 0) ((ins 0 w id).blk.seq 0).build =
          some { Entry.empty with kind := .seg, len := 4, stream := true }) ∧
    (let w := iw 0x14 (2 ^ 56 + 2 ^ 55);
      AtWord (ins 0 w id) 0 0x14 w ∧ bit w 55 = true ∧
        addStream ((ins 0 w id).blk.seq 0) ((ins 0 w id).blk.seq 0).build =
          some { Entry.empty with kind := .seg, len := 4, stream := true }) := by
  unfold AtWord
  and_intros <;> decide +kernel

theorem wit_AttachedActions :
    (∀ c ∈ [(0x0D, 31 * 2 ^ 50 + 2 ^ 48 - 1), (0x0E, 31 * 2 ^ 50 + 2 ^ 48 + 1), (0x0F, 31 * 2 ^ 50 + 1),
        (0x10, 31 * 2 ^ 50 + 65535), (0x10, 2 ^ 55 + 65535), (0x11, 3), (0x12, 15), (0x17, 1), (0x18, 15 * 2 ^ 8 + 255)],
      AtWord (ins 4 (iw c.1 c.2) id) 4 c.1 (iw c.1 c.2)) ∧
    (let w := iw 0x15 (3 * 2 ^ 32 + 2 ^ 32 - 1); AtWord (ins 6 w id) 6 0x15 w) := by
  unfold AtWord
  and_intros <;> decide +kernel

theorem wit_OtherWords :
    (let s := ins 6 (iw 2 4) id;
      let w := progWord s.mem 6 (s.blk.seq 6).pc;
      feReady s.blk 6 = true ∧ (0x02, Instr.play 6) ∈ vendorRows 6 ∧ opOf w = 0x02 ∧
        wordPoisoned s.mem s.blk 6 = false ∧ wordIllegal s.blk 6 w = true) ∧
    (let s := { ins 0 0 id with mem := ⟨[], [pgmBase 0 / 8]⟩ };
      feReady s.blk 0 = true ∧ (0x00, Instr.nop 0) ∈ vendorRows 0 ∧
        opOf (progWord s.mem 0 (s.blk.seq 0).pc) = 0x00 ∧ wordPoisoned s.mem s.blk 0 = true) ∧
    (let s := ins 0 (iw 0x7F 5) id;
      let t := { s with blk := sets [(F.UCS_DISP_VALID, 1, 0, 127), (F.UCS_DISP_KINDS, 7, 0, 127),
        (F.UCS_STATUS_VERIFIED, 1, 0, 0)] s.blk };
      feReady t.blk 0 = true ∧ 0x40 ≤ opOf (progWord t.mem 0 (t.blk.seq 0).pc) ∧
        wordPoisoned t.mem t.blk 0 = false ∧ customerOk t.blk 0 (opOf (progWord t.mem 0 (t.blk.seq 0).pc)) = true) ∧
    (∀ op ∈ [0x19, 0x3F, 0x40],
      let s := ins 0 (iw op 0) id;
      feReady s.blk 0 = true ∧ vendorOp (progWord s.mem 0 (s.blk.seq 0).pc) = false ∧
        customerOk s.blk 0 (opOf (progWord s.mem 0 (s.blk.seq 0).pc)) = false ∧ wordPoisoned s.mem s.blk 0 = false) := by
  and_intros <;> decide +kernel

/-! ### Micro-ops -/

/-- Sequencer `q` in the routine `r`, whose next microword is `w`. -/
def ust (q w : Nat) (r : Rt) (f : SeqSt → SeqSt) : State :=
  sq q (fun x => f { x with rt := some r }) [(F.SEQ_STATUS_STATE, 2, q, 0), (F.UCS_WORD_WORD, w, q / 8, r.upc)]

/-- A microword with code `c` and operand bits `v`. -/
def uw (c v : Nat) : Nat := c * 2 ^ 26 + v

/-- A routine at word 6,145 with the instruction register `m` and a commit buffer. -/
def rtOf (m : Nat) (l : List CEff) : Rt := { aRt with mir := m, cbuf := l }

/-- The routine is about to issue `w`, which is not the LAST. -/
def Issues (q w c m : Nat) (f : SeqSt → SeqSt) : Bool :=
  let s := ust q w (rtOf m []) f
  (s.blk.seq q).rt == some (rtOf m []) && s.blk.seqState q == 2 && ucsWord s.blk (q / 8) (rtOf m []).upc == w &&
    uRow w == c && !s.mem.poisoned (ucsPoisonBase (q / 8) + 4 * (rtOf m []).upc) && !uLast w

theorem issues_at (q : SeqNo) (w c m : Nat) (f : SeqSt → SeqSt) (h : Issues q w c m f = true) :
    AtUop (ust q w (rtOf m []) f) q c w (rtOf m []) ∧ uLast w = false := by
  simp only [Issues, Bool.and_eq_true, beq_iff_eq, Bool.not_eq_true'] at h
  exact ⟨⟨h.1.1.1.1.1, h.1.1.1.1.2, h.1.1.1.2, h.1.1.2, h.1.2⟩, h.2⟩

theorem wit_ComputingMicroOps :
    (∀ c ∈ [0x00, 0x01, 0x02, 0x03, 0x04, 0x05, 0x06, 0x07, 0x08, 0x09, 0x0A, 0x1D, 0x30],
      Issues 63 (uw c (31 * 2 ^ 20)) c 0 id = true) ∧
    (Issues 0 (uw 0x30 0) 0x30 (iw 0 1) id = true ∧ vendorOp (iw 0 1) = true ∧ reservedSet (iw 0 1) = true ∧
      reservedSet (iw 0 0) = false ∧ vendorOp (iw 0x40 0) = false) ∧
    (∀ c ∈ [0, 1, 2, 3], Issues 0 (uw 0x0B c) 0x0B 0 id = true ∧ field (uw 0x0B c) 0 4 = c) ∧
    (let s := rs (fun b => let b := sets [(F.SEQ_SREG_VALUE, 767, 0, 5)] b; b);
      uRead s.blk 0 (rtOf 0 []) 5 % 1024 < 768 ∧ Issues 0 (uw 0x11 (5 * 2 ^ 15)) 0x11 0 id = true) ∧
    (let s := rw_ [(F.SEQ_SREG_VALUE, 768, 0, 5)]; 768 ≤ uRead s.blk 0 (rtOf 0 []) 5 % 1024) := by
  and_intros <;> decide +kernel

theorem wit_StackMicroOpsAndRetirement :
    (let f := fun (x : SeqSt) => { x with calls := [1, 2, 3, 4, 5, 6, 7, 8], loops := [(1, 1), (2, 2), (3, 3), (4, 4)] };
      let s := ust 0 (uw 0x0C 0) (rtOf 0 []) f;
      Issues 0 (uw 0x0C 0) 0x0C 0 f = true ∧ 8 ≤ (rtCalls s.blk 0 (rtOf 0 [])).length ∧
        Issues 0 (uw 0x0E 0) 0x0E 0 f = true ∧ 4 ≤ (rtLoops s.blk 0 (rtOf 0 [])).length ∧
        Issues 0 (uw 0x0D 0) 0x0D 0 f = true ∧ rtCalls s.blk 0 (rtOf 0 []) = 1 :: [2, 3, 4, 5, 6, 7, 8] ∧
        Issues 0 (uw 0x0F 0) 0x0F 0 f = true ∧ rtLoops s.blk 0 (rtOf 0 []) = (1, 1) :: [(2, 2), (3, 3), (4, 4)]) ∧
    (let f := fun (x : SeqSt) => { x with calls := [1, 2, 3, 4, 5, 6, 7], loops := [(1, 1), (2, 2), (3, 3)] };
      let s := ust 0 (uw 0x0C 0) (rtOf 0 []) f;
      Issues 0 (uw 0x0C 0) 0x0C 0 f = true ∧ (rtCalls s.blk 0 (rtOf 0 [])).length < 8 ∧
        Issues 0 (uw 0x0C 1) 0x0C 0 f = true ∧ field (uw 0x0C 1) 0 4 ≠ 0 ∧
        Issues 0 (uw 0x0E 0) 0x0E 0 f = true ∧ (rtLoops s.blk 0 (rtOf 0 [])).length < 4) ∧
    (let s := ust 0 0 (rtOf 0 []) id;
      Issues 0 (uw 0x0D 0) 0x0D 0 id = true ∧ rtCalls s.blk 0 (rtOf 0 []) = [] ∧
        Issues 0 (uw 0x0F 0) 0x0F 0 id = true ∧ rtLoops s.blk 0 (rtOf 0 []) = []) ∧
    (Issues 0 (uw 0x10 0) 0x10 0 id = true ∧ Issues 0 (uw 0x1C 0) 0x1C 0 id = true ∧ seqKind 0 ≠ .acq ∧
      Issues 6 (uw 0x1C 0) 0x1C 0 id = true ∧ seqKind 6 = .acq) ∧
    (∀ l ∈ [[], [CEff.pushc 7], [.lpush 3 9], [.sreg 15 8]],
      let s := ust 0 (uw 1 (2 ^ 25)) (rtOf 0 l) id;
      (s.blk.seq 0).rt = some (rtOf 0 l) ∧ s.blk.seqState 0 = 2 ∧
        ucsWord s.blk 0 (rtOf 0 l).upc = uw 1 (2 ^ 25) ∧ uRow (uw 1 (2 ^ 25)) = 1 ∧ uLast (uw 1 (2 ^ 25)) = true ∧
        (rtOf 0 l).brd = none ∧ fetches (rtOf 0 l) = 0 ∧ (s.blk.seq 0).build.kind = .none) ∧
    (∀ c ∈ [true, false],
      let r := { rtOf 0 [] with closed := c };
      let s := ust 0 (uw 1 (2 ^ 25)) r (building waitEntry);
      (s.blk.seq 0).rt = some r ∧ s.blk.seqState 0 = 2 ∧ ucsWord s.blk 0 r.upc = uw 1 (2 ^ 25) ∧ r.brd = none ∧
        fetches r = 0 ∧ (s.blk.seq 0).build.kind = .wait ∧ (s.blk.seq 0).build.len ≠ 0 ∧ r.closed = c) := by
  and_intros <;> decide +kernel

theorem wit_EntryMicroOps :
    (∀ c ∈ [(1, EKind.wait), (2, .waitev), (3, .waitd), (4, .sync), (5, .halt)],
      Issues 0 (uw 0x12 c.1) 0x12 0 id = true ∧ field (uw 0x12 c.1) 0 4 = c.1 ∧ Entry.empty.members = [] ∧
        Entry.empty.stream = false ∧ Entry.empty.len = 0 ∧ Entry.empty.kind = .none ∧
        ({ Entry.empty with kind := c.2 } : Entry).kind = c.2 ∧ ({ Entry.empty with kind := .seg } : Entry).kind ≠ c.2) ∧
    (let e := { Entry.empty with kind := .sync };
      Issues 0 (uw 0x13 0) 0x13 0 (building e) = true ∧ (rtOf 0 []).mark.kind ≠ .seg ∧ e.kind ≠ .none ∧
        lenOk e.kind 31 = true ∧ lenOk e.kind 2 = true ∧ lenOk e.kind 1 = false ∧ lenOk e.kind 32 = false) ∧
    (let s := ust 4 (uw 0x14 0) (rtOf 0 []) id;
      let e := { Entry.empty with kind := .seg, members := [⟨0, 0, [], false⟩] };
      Issues 4 (uw 0x14 0) 0x14 0 id = true ∧ seqKind 4 ≠ .acq ∧
        slotOk s.blk 4 (uRead s.blk 4 (rtOf 0 []) (uD (uw 0x14 0)) % 32) = true ∧ (s.blk.seq 4).build.len = 0 ∧
        (s.blk.seq 4).build.kind = .none ∧
        (s.blk.seq 4).build.members.any (fun y => y.slot == uRead s.blk 4 (rtOf 0 []) (uD (uw 0x14 0)) % 32) = false ∧
        Issues 4 (uw 0x14 0) 0x14 0 (building e) = true ∧ e.kind = .seg ∧
        e.members.any (fun y => y.slot == uRead s.blk 4 (rtOf 0 []) (uD (uw 0x14 0)) % 32) = true) ∧
    (∀ c ∈ [0, 1],
      let m := iw 2 (15 * 2 ^ 50 + 4);
      let s := ust 0 (uw 0x15 c) (rtOf m []) id;
      Issues 0 (uw 0x15 c) 0x15 m id = true ∧ slotOk s.blk 0 (field m 50 5) = true ∧ 4 ≤ field m 0 16 ∧
        (s.blk.seq 0).build.kind = .none ∧ (s.blk.seq 0).build.members.any (fun y => y.slot == field m 50 5) = false ∧
        field (uw 0x15 c) 0 4 = c) ∧
    (Issues 0 (uw 0x16 1) 0x16 0 id = true ∧
      addStream (((ust 0 (uw 0x16 1) (rtOf 0 []) id)).blk.seq 0) Entry.empty =
        some { Entry.empty with kind := .seg, len := 4, stream := true } ∧
      Issues 0 (uw 0x16 1) 0x16 0 (building waitEntry) = true ∧
      addStream (((ust 0 (uw 0x16 1) (rtOf 0 []) (building waitEntry))).blk.seq 0) waitEntry = none) ∧
    Issues 0 (uw 0x17 1) 0x17 0 id = true ∧
    (∀ c ∈ [0, 1, 2, 3, 4, 5], Issues 0 (uw 0x18 c) 0x18 0 id = true ∧ seqKind 0 ≠ .acq ∧
      field (uw 0x18 c) 0 4 = c ∧
      uRead (ust 0 (uw 0x18 c) (rtOf 0 []) id).blk 0 (rtOf 0 []) (uC (uw 0x18 c)) % 32 < nSlots (seqPort 0)) ∧
    (∀ c ∈ [0, 1, 2, 3, 4], Issues 0 (uw 0x19 c) 0x19 0 id = true ∧ field (uw 0x19 c) 0 4 = c ∧ seqKind 0 ≠ .acq ∧
      Issues 6 (uw 0x19 c) 0x19 0 id = true ∧ seqKind 6 = .acq) ∧
    (∀ c ∈ [0, 1, 2, 3], Issues 0 (uw 0x1A c) 0x1A 0 id = true ∧ field (uw 0x1A c) 0 4 = c) ∧
    Issues 0 (uw 0x1B 0) 0x1B 0 id = true := by
  and_intros <;> decide +kernel

theorem wit_CustomerArea :
    State.reset.blk.rd F.UCS_STATUS_STATUS 0 ≠ 1 ∧
    (let s := rw_ [(F.UCS_STATUS_STATUS, 1, 7, 0)];
      s.blk.rd F.UCS_STATUS_STATUS 7 = 1 ∧ verifyAll s.blk 7 = none) ∧
    (let s := rw_ [(F.UCS_STATUS_STATUS, 1, 0, 0), (F.UCS_DISP_VALID, 1, 0, 127)];
      s.blk.rd F.UCS_STATUS_STATUS 0 = 1 ∧ (verifyAll s.blk 0).isSome = true) ∧
    (6144 ≤ 6144 ∧ 6144 ≤ 8191 ∧ 8191 < 8192 ∧ 64 ≤ 127 ∧ 127 < 128) ∧
    (let s := State.reset;
      (s.blk.regionIdle 0 && !s.blk.on F.UCS_STATUS_LOCKED 0 && s.blk.rd F.UCS_STATUS_STATUS 0 != 1) = true) ∧
    (let s := rw_ [(F.UCS_STATUS_LOCKED, 1, 0, 0)];
      (s.blk.regionIdle 0 && !s.blk.on F.UCS_STATUS_LOCKED 0 && s.blk.rd F.UCS_STATUS_STATUS 0 != 1) = false) ∧
    (∀ q < 64, (State.reset.blk.seq q).enWait = false) := by
  and_intros <;> decide +kernel

/-! ### Odric cores -/

/-- Core `n` RUNNING at word 0 of its program memory, which holds `w`, with registers set. -/
def core (n w : Nat) (f : OdrSt → OdrSt) (l : List (Fld × Nat × Nat × Nat)) : State :=
  { rs (fun b => (sets ((F.ODR_STATUS_STATE, 1, n, 0) :: l) b).setOdr n (f OdrSt.reset)) with
    mem := (⟨[], []⟩ : Mem).put (odrPmem n) (leBytes 4 w) }

/-- A PAR word without parallel moves. -/
def par (op d a c : Nat) : Nat := op * 2 ^ 25 + d * 2 ^ 21 + a * 2 ^ 17 + c * 2 ^ 13
/-- An IMM word. -/
def imm_ (op d a v : Nat) : Nat := 4 * 2 ^ 29 + op * 2 ^ 24 + d * 2 ^ 20 + a * 2 ^ 16 + v
/-- A CTRL word. -/
def ctl (op v : Nat) : Nat := 7 * 2 ^ 29 + op * 2 ^ 24 + v
/-- An LS word: store or load, space X, address register 0, data register `r`, offset `v`. -/
def lsw (st r v : Nat) : Nat := 5 * 2 ^ 29 + st * 2 ^ 28 + r * 2 ^ 20 + v

/-- The core is about to issue the word, undisturbed, with registers set. -/
def Cores (n w : Nat) (l : List (Fld × Nat × Nat × Nat)) : Bool :=
  let s := core n w id l
  let o := s.blk.odr n
  coreWord s.mem s.blk n == w && s.blk.coreState n == 1 && o.held == none && o.wait == none && o.loads == [] &&
    o.rep == none && o.jump == none && !o.halt && !s.mem.poisoned (odrPmem n + 4 * (o.pc % 65536)) && fieldsOk w

theorem cores_at (n : CoreNo) (w : Nat) (l : List (Fld × Nat × Nat × Nat)) (h : Cores n w l = true) :
    AtCore (core n w id l) n w := by
  simp only [Cores, Bool.and_eq_true, beq_iff_eq, Bool.not_eq_true'] at h
  exact ⟨h.1.1.1.1.1.1.1.1.1, h.1.1.1.1.1.1.1.1.2, h.1.1.1.1.1.1.1.2, h.1.1.1.1.1.1.2, h.1.1.1.1.1.2, h.1.1.1.1.2,
    h.1.1.1.2, h.1.1.2, h.1.2, h.2⟩

theorem wit_OdricIntegerOperations :
    (∀ op < 0x1D, Cores 15 (par op 15 14 13) [] = true ∧ noMoves (par op 15 14 13) = true ∧
      isOp op (par op 15 14 13) = true) ∧
    (∀ op < 0x19, Cores 0 (imm_ op 15 14 65535) [] = true ∧ noMoves (imm_ op 15 14 65535) = true ∧
      isOp op (imm_ op 15 14 65535) = true) := by
  and_intros <;> decide +kernel

theorem wit_OdricComplexOperations :
    (∀ op ∈ [0x20, 0x21, 0x22, 0x23, 0x24, 0x25, 0x26, 0x27, 0x33, 0x34],
      Cores 0 (par op 3 14 13) [] = true ∧ noMoves (par op 3 14 13) = true ∧ isPar (par op 3 14 13) = true ∧
        odrOp (par op 3 14 13) = op) ∧
    (∀ op ∈ [0x30, 0x31, 0x32], ∀ sh ∈ [0, 15],
      Cores 0 (par op 14 3 sh) [] = true ∧ noMoves (par op 14 3 sh) = true ∧ isPar (par op 14 3 sh) = true ∧
        odrOp (par op 14 3 sh) = op ∧ odrB (par op 14 3 sh) = sh) := by
  and_intros <;> decide +kernel

/-- A NOP with an MX move of a kind by a0 and g8. -/
def mx (k : Nat) : Nat := k * 2 ^ 11

/-- Address register a0 of core 0. -/
def a0 (v : Nat) : List (Fld × Nat × Nat × Nat) := [(F.ODR_MAIN_A_VAL, v, 0, 0)]

theorem wit_OdricMovesAndMemory :
    (∀ k ∈ [1, 2, 3], let s := core 0 (mx k) id (a0 0x3FFFF);
      Cores 0 (mx k) (a0 0x3FFFF) = true ∧ isPar (mx k) = true ∧ odrOp (mx k) = 0 ∧ field (mx k) 5 2 = 0 ∧
        aRd s.blk 0 (field (mx k) 9 2) < 0x40000 ∧
        dmemByte s.blk 0 0 (aRd s.blk 0 (field (mx k) 9 2)) = some (odrDmem 0 + 0xFFFFC) ∧
        s.mem.poisoned (odrDmem 0 + 0xFFFFC) = false ∧ field (mx k) 11 2 = k ∧
        postMod (aRd s.blk 0 0) (s.blk.rd F.ODR_M_VAL 0 0) = some 0x3FFFF) ∧
    (let l := (F.ODR_CTRL_MODE, 1, 0, 0) :: a0 0x20000;
      Cores 0 (mx 1) l = true ∧ dmemByte (core 0 (mx 1) id l).blk 0 0 (aRd (core 0 (mx 1) id l).blk 0 0) = none ∧
        field (mx 1) 11 2 ≠ 0) ∧
    (let l := [(F.ODR_M_VAL, 2 ^ 31, 0, 0)];
      let s := core 0 (mx 1) id l;
      Cores 0 (mx 1) l = true ∧ dmemByte s.blk 0 0 (aRd s.blk 0 0) = some (odrDmem 0) ∧
        postMod (aRd s.blk 0 0) (s.blk.rd F.ODR_M_VAL 0 0) = none) ∧
    (∀ st ∈ [0, 1], let w := lsw st 15 5;
      let s := core 0 w id (a0 0x3FFFA);
      Cores 0 w (a0 0x3FFFA) = true ∧ isLs w = true ∧ lsAddr s.blk 0 w < 0x40000 ∧
        dmemByte s.blk 0 (field w 27 1) (lsAddr s.blk 0 w) = some (odrDmem 0 + 0xFFFFC) ∧
        s.mem.poisoned (odrDmem 0 + 0xFFFFC) = false ∧ bit w 28 = (st == 1)) ∧
    (∀ v ∈ [0, 0xBF], let w := lsw 0 15 v;
      let s := core 0 w id (a0 0x40000);
      Cores 0 w (a0 0x40000) = true ∧ 0x40000 ≤ lsAddr s.blk 0 w ∧ lsAddr s.blk 0 w ≤ 0x400BF ∧ bit w 28 = false) ∧
    (let w := lsw 1 0 0x21;
      Cores 0 w (a0 0x41000) = true ∧ bit w 28 = true ∧ lsAddr (core 0 w id (a0 0x41000)).blk 0 w = 0x41021) ∧
    (∀ st ∈ [0, 1], let w := lsw st 15 0;
      let l := (F.HIF_SPART_SIZE, 1, 0, 0) :: a0 0x403FFF;
      let s := core 0 w id l;
      Cores 0 w l = true ∧ 0x400000 ≤ lsAddr s.blk 0 w ∧
        scratchByte s.blk 0 (lsAddr s.blk 0 w) = some (scratchBase + 0xFFFC) ∧
        s.mem.poisoned (scratchBase + 0xFFFC) = false ∧ bit w 28 = (st == 1)) ∧
    (∀ st ∈ [0, 1], let w := lsw st 15 0;
      let l := (F.HIF_SPART_SIZE, 1, 0, 0) :: a0 0x404000;
      let s := core 0 w id l;
      Cores 0 w l = true ∧ 0x400000 ≤ lsAddr s.blk 0 w ∧ scratchByte s.blk 0 (lsAddr s.blk 0 w) = none) ∧
    (∀ d ∈ [0, 15, 16, 23, 24, 31], let w := 6 * 2 ^ 29 + d * 2 ^ 24 + 5;
      Cores 0 w [] = true ∧ isLdi w = true ∧ field w 24 5 = d) := by
  and_intros <;> decide +kernel

/-- Core 0 at a CTRL word with its own state changed. -/
def ctlAt (w : Nat) (f : OdrSt → OdrSt) (l : List (Fld × Nat × Nat × Nat)) : State := core 0 w f l

theorem wit_OdricFlow :
    (∀ op < 0x0B, Cores 0 (ctl op 0) [] = true ∧ isCtrl (ctl op 0) = true ∧ cop (ctl op 0) = op) ∧
    (ctrlCond (core 0 (ctl 2 (6 * 2 ^ 16)) id []).blk 0 (ctl 2 (6 * 2 ^ 16)) = true ∧
      Cores 0 (ctl 2 (6 * 2 ^ 16)) [] = true ∧ Cores 0 (ctl 2 (2 ^ 16)) [] = true ∧
      ctrlCond (core 0 (ctl 2 (2 ^ 16)) id []).blk 0 (ctl 2 (2 ^ 16)) = false) ∧
    (let s := core 0 (ctl 2 (6 * 2 ^ 16)) (fun o => { o with calls := List.replicate 15 1 }) [];
      AtCore s 0 (ctl 2 (6 * 2 ^ 16)) ∧ (s.blk.odr 0).calls.length < 16) ∧
    (let s := core 0 (ctl 2 (6 * 2 ^ 16)) (fun o => { o with calls := List.replicate 16 1 }) [];
      AtCore s 0 (ctl 2 (6 * 2 ^ 16)) ∧ 16 ≤ (s.blk.odr 0).calls.length) ∧
    (let s := core 0 (ctl 3 0) (fun o => { o with calls := [65535] }) [];
      AtCore s 0 (ctl 3 0) ∧ (s.blk.odr 0).calls = 65535 :: []) ∧
    (let l := [(F.ODR_STATUS_BANK, 1, 0, 0)];
      Cores 0 (ctl 4 0) l = true ∧ Cores 0 (ctl 8 0) l = true ∧ shadowOn (core 0 (ctl 4 0) id l).blk 0 = true ∧
        shadowOn (core 0 (ctl 4 0) id []).blk 0 = false) ∧
    (Cores 0 (ctl 5 4096) [] = true ∧ field (ctl 5 4096) 0 13 ≠ 0 ∧ field (ctl 5 0) 0 13 = 0) ∧
    (∀ v ∈ [1, 4096], let l := [(F.ODR_MAIN_G_VAL, v, 0, 15)];
      Cores 0 (ctl 6 (15 * 2 ^ 20)) l = true ∧ gRd (core 0 0 id l).blk 0 15 = v) ∧
    (let l := [(F.ODR_MAIN_G_VAL, 4097, 0, 15)];
      Cores 0 (ctl 6 (15 * 2 ^ 20)) l = true ∧ 4096 < gRd (core 0 0 id l).blk 0 15 ∧ gRd (core 0 0 id []).blk 0 15 = 0) ∧
    (∀ w ∈ [par 0x1D 0 0 0, par 0x28 0 0 0, par 0x3F 0 0 0, imm_ 0x19 0 0 0, ctl 0x0B 0],
      Cores 0 w [] = true ∧ opAssigned w = false) ∧
    (let w := ctl 0 0;
      let s := core 0 w (fun o => { o with jump := some (65535, false) }) [];
      let o := s.blk.odr 0;
      coreWord s.mem s.blk 0 = w ∧ s.blk.coreState 0 = 1 ∧ o.held = none ∧ o.wait = none ∧ o.halt = false ∧
        s.mem.poisoned (odrPmem 0 + 4 * (o.pc % 65536)) = false ∧ isCtrl w = true ∧ cop w = 0 ∧ field w 0 24 = 0 ∧
        o.rep = none ∧ o.jump = some (65535, false) ∧ o.loads = []) ∧
    (∀ k ∈ [1, 2],
      let s := core 0 (ctl 0 0) (fun o => { o with loads := [⟨k, false, 15, 7⟩] }) [];
      let o := s.blk.odr 0;
      o.jump = none ∧ o.loads = [⟨k, false, 15, 7⟩] ∧ false = shadowOn s.blk 0) := by
  unfold AtCore
  and_intros <;> decide +kernel

/-- The 16 queued handoffs that fill a queue. -/
def fullQ (o : OdrSt) : OdrSt := { o with handq := List.replicate 16 (0, 0, dlMsg none) }

theorem wit_OdricHandoffs :
    (let w := par 0x38 1 2 3;
      let l := [(F.ODR_MAIN_G_VAL, 63 + 15 * 2 ^ 8, 0, 1)];
      let s := core 0 w id l;
      let t := gRd s.blk 0 (odrD w);
      Cores 0 w l = true ∧ noMoves w = true ∧ isPar w = true ∧ odrOp w = 0x38 ∧ field t 6 2 = 0 ∧ field t 12 20 = 0 ∧
        (s.blk.seqOwner (field t 0 6) == s.blk.owner 64) = true ∧ (s.blk.odr 0).handq.length < 16 ∧
        AtCore (core 0 w fullQ l) 0 w ∧ 16 ≤ ((core 0 w fullQ l).blk.odr 0).handq.length) ∧
    (let w := par 0x38 1 2 3;
      let l := [(F.ODR_MAIN_G_VAL, 64, 0, 1)];
      Cores 0 w l = true ∧ field (gRd (core 0 w id l).blk 0 (odrD w)) 6 2 ≠ 0) ∧
    (let w := par 0x3A 1 2 3;
      let l := [(F.ODR_MAIN_G_VAL, 63 + 4095 * 2 ^ 16, 0, 2)];
      let s := core 0 w id l;
      let va := gRd s.blk 0 (odrA w);
      Cores 0 w l = true ∧ odrOp w = 0x3A ∧ field va 6 10 = 0 ∧ field va 28 4 = 0 ∧
        (s.blk.seqOwner (field va 0 6) == s.blk.owner 64) = true) ∧
    (let w := par 0x3A 1 2 3;
      let l := [(F.ODR_MAIN_G_VAL, 2 ^ 28, 0, 2)];
      Cores 0 w l = true ∧ field (gRd (core 0 w id l).blk 0 (odrA w)) 28 4 ≠ 0) ∧
    (∀ sl ∈ [15, 16], let w := par 0x39 1 2 3;
      let l := [(F.ODR_MAIN_G_VAL, 1 + sl * 2 ^ 16 + 31 * 2 ^ 24, 0, 1)];
      let s := core 0 w id l;
      let t := gRd s.blk 0 (odrD w);
      Cores 0 w l = true ∧ odrOp w = 0x39 ∧ field t 0 4 = 1 ∧ field t 30 2 = 0 ∧ bit t 29 = false ∧
        field t 21 3 = 0 ∧ field t 4 12 = 0 ∧ field t 16 5 = sl ∧
        (s.blk.seqOwner (portSeq (field t 24 5)) == s.blk.owner 64) = true) ∧
    (let w := par 0x39 1 3 3; Cores 0 w [] = true ∧ field (gRd (core 0 w id []).blk 0 (odrD w)) 0 4 = 0 ∧ odrA w % 2 = 1) ∧
    (let w := par 0x3B 1 2 3;
      let l := [(F.ODR_MAIN_G_VAL, 255, 0, 2), (F.EVF_CHCFG_OKIND, 1, 255, 0)];
      Cores 0 w l = true ∧ odrOp w = 0x3B ∧ (core 0 w id l).blk.rd F.EVF_CHCFG_OKIND 255 = 1 ∧
        (core 0 w id l).blk.rd F.EVF_CHCFG_OIDX 255 = 0 ∧ Cores 0 w [] = true ∧
        (core 0 w id []).blk.rd F.EVF_CHCFG_OKIND 0 ≠ 1) := by
  unfold AtCore
  and_intros <;> decide +kernel

/-- A core's own state changed, with registers set. -/
def odr_ (f : OdrSt → OdrSt) (l : List (Fld × Nat × Nat × Nat)) : State :=
  rs (fun b => (sets l b).setOdr 0 (f OdrSt.reset))

theorem wit_OdricCoreControl :
    State.reset.blk.coreState 0 = 0 ∧ (odr_ id [(F.ODR_STATUS_STATE, 3, 0, 0)]).blk.coreState 0 = 3 ∧
    (odr_ id [(F.ODR_STATUS_STATE, 1, 0, 0)]).blk.coreState 0 ≠ 0 ∧
    (let s := odr_ id [(F.ODR_STATUS_STATE, 1, 0, 0)];
      s.blk.coreState 0 = 1 ∧ boundary s.blk 0 = true ∧ (s.blk.odr 0).held = none ∧ (s.blk.odr 0).wait = none ∧
        (s.blk.odr 0).loads = []) ∧
    (let s := odr_ (fun o => { o with rep := some 2 }) [(F.ODR_STATUS_STATE, 1, 0, 0)];
      s.blk.coreState 0 = 1 ∧ boundary s.blk 0 = false) ∧
    (let s := odr_ id [(F.ODR_STATUS_STATE, 2, 0, 0), (F.ODR_STATUS_IE, 1, 0, 0), (F.ODR_IRQ_IPEND, 2 ^ 23, 0, 0),
        (F.ODR_IRQ_IEN, 2 ^ 23, 0, 0)];
      canTake s.blk 0 = true ∧ takeLine s.blk 0 = some 23) ∧
    canTake State.reset.blk 0 = false ∧
    ((odr_ (fun o => { o with timer := 1 }) []).blk.odr 0).timer = 1 ∧
    (let s := odr_ (fun o => { o with notices := List.replicate 63 ⟨0, 2, 0, false, false, 0⟩ })
        [(F.ODR_MBMASK_MASK, 2 ^ 63, 0, 11)];
      bit (s.blk.rd F.ODR_MBMASK_MASK 0 ((767 : Fin 768).val / 64)) ((767 : Fin 768).val % 64) = true ∧
        (s.blk.odr 0).notices.length < 64 ∧ ∀ i < 4, s.blk.on F.ODR_GRP_ARM 0 i = false) ∧
    (let s := odr_ (fun o => { o with notices := List.replicate 64 ⟨0, 2, 0, false, false, 0⟩ }) [];
      64 ≤ (s.blk.odr 0).notices.length) ∧
    (let s := odr_ id [(F.ODR_GRP_ARM, 1, 0, 3)]; s.blk.on F.ODR_GRP_ARM 0 3 = true ∧ groupDone s.blk 0 3 = true) ∧
    (∀ i < 12, State.reset.blk.rd F.ODR_GMASK_MASK 0 (12 * 3 + i) = 0) ∧
    (let s := odr_ (fun o => { o with held := some (5, dlMsg none), handq := List.replicate 15 (0, 0, dlMsg none) }) [];
      (s.blk.odr 0).held = some (5, dlMsg none) ∧ (s.blk.odr 0).handq.length < 16) ∧
    (let s := odr_ (fun o => { o with wait := some (15, scratchBase) }) [];
      (s.blk.odr 0).wait = some (15, scratchBase) ∧ s.mem.poisoned scratchBase = false) := by
  and_intros <;> decide +kernel

/-! ### Events, governor, bias -/

/-- The fabric's own state changed, with registers set. -/
def evf_ (f : EvfSt → EvfSt) (l : List (Fld × Nat × Nat × Nat)) : State :=
  rs (fun b => let b := sets l b; { b with evf := f b.evf })

theorem wit_EventsPublishAndDeliver :
    (∀ s ∈ [966, 975, 981, 991, 999, 1007], srcExists s = false) ∧
    (∀ s ∈ [0, 965, 976, 980, 992, 998, 1008, 1023], srcExists s = true) ∧
    (let s := rw_ [(F.EVF_SRCMAP_EN, 1, 1023, 0), (F.EVF_SRCMAP_CH, 255, 1023, 0), (F.EVF_CHCFG_EN, 1, 255, 0)];
      s.blk.on F.EVF_SRCMAP_EN 1023 = true ∧ s.blk.actOn F.EVF_CHCFG_EN (s.blk.rd F.EVF_SRCMAP_CH 1023) = true) ∧
    (let s := rw_ [(F.EVF_SRCMAP_EN, 1, 0, 0)];
      s.blk.on F.EVF_SRCMAP_EN 0 = true ∧ s.blk.actOn F.EVF_CHCFG_EN (s.blk.rd F.EVF_SRCMAP_CH 0) = false) ∧
    State.reset.blk.on F.EVF_SRCMAP_EN 0 = false ∧
    (let s := rw_ [(F.EVF_CHCFG_OIDX, 15, 255, 0), (F.EVF_CHCFG_EN, 1, 255, 0)];
      s.blk.rd F.EVF_CHCFG_OKIND 255 = 0 ∧ s.blk.rd F.EVF_CHCFG_OIDX 255 = (15 : Func) ∧
        s.blk.actOn F.EVF_CHCFG_EN 255 = true) ∧
    ((1 : Func) ≠ 0 ∧ State.reset.blk.rd F.EVF_CHCFG_OIDX 0 ≠ (1 : Func)) ∧
    (let s := evf_ (fun e => { e with flight := [(0, 0, ⟨5, 0, 3, 0, 0⟩)] })
        [(F.SEQ_CTRL_TRIG_EN, 1, 0, 0), (F.EVF_CHCFG_SEC, 0, 0, 0)];
      s.blk.on F.SEQ_CTRL_TRIG_EN 0 = true ∧
        s.blk.evf.flight.filter (fun e => decide (e.1 ≤ s.blk.elapsed) && e.2.1 == s.blk.rd F.SEQ_CTRL_START_CH 0) =
          [(s.blk.elapsed, s.blk.rd F.SEQ_CTRL_START_CH 0, ⟨5, 0, 3, 0, 0⟩)] ∧
        secOk s.blk (s.blk.rd F.SEQ_CTRL_START_CH 0) (s.blk.seqOwner 0) = true ∧ secOk s.blk 0 1 = false) := by
  and_intros <;> decide +kernel

theorem wit_EventConfigurationIsChecked :
    (field (3 * 2 ^ 20) 20 2 = 3 ∧ field (3 * 2 ^ 8) 8 2 = 3) ∧
    (let s := rw_ [(F.EVF_CHCFG_EN, 1, 0, 0)];
      field (2 ^ 16) 16 4 ≠ s.blk.rd F.EVF_CHCFG_OIDX 0 ∧ s.blk.rd F.EVF_CHCFG_EN 0 = 1) ∧
    (let s := State.reset;
      let v := s.blk.rd F.EVF_CHCFG_SEC 255 * 2 ^ 8 + 2 ^ 31;
      field v 20 2 = s.blk.rd F.EVF_CHCFG_OKIND 255 ∧ field v 16 4 = s.blk.rd F.EVF_CHCFG_OIDX 255 ∧
        field v 8 2 = s.blk.rd F.EVF_CHCFG_SEC 255 ∧ field v 20 2 ≠ 3 ∧ field v 8 2 ≠ 3 ∧
        s.blk.rd F.EVF_CHCFG_EN 255 = 0 ∧ field v 31 1 = 1) ∧
    (let s := rw_ [(F.EVF_CHCFG_EN, 1, 0, 0)]; s.blk.rd F.EVF_CHCFG_EN 0 = 1 ∧ field 0 31 1 = 0) ∧
    (srcFixed 928 = true ∧ srcFixed 943 = true ∧ srcFixed 927 = false ∧ srcFixed 944 = false) ∧
    ((1 : Func) ≠ 0 ∧ srcOwner State.reset.blk 0 ≠ (1 : Func)) ∧
    (let s := rw_ [(F.EVF_CHCFG_OIDX, 1, 0, 0)];
      let v := 2 ^ 31;
      bit v 31 = true ∧ mayCarry s.blk (field v 0 8) 0 = false ∧ mayCarry s.blk (field (2 ^ 31 + 255) 0 8) 0 = true) ∧
    (let s := rw_ [(F.EVF_LOGQ_QUOTA, 512, 0, 0)];
      let o := ((List.range 16).filter (fun g => g ≠ (1 : Func).val)).foldl (fun n g => n + s.blk.rd F.EVF_LOGQ_QUOTA g) 0;
      1024 < o + 513 % 2048 ∧ o + 512 % 2048 ≤ 1024) := by
  and_intros <;> decide +kernel

/-- A log record of function 0. -/
def aLog : Nat × LogRec := (0, ⟨5, 255, ⟨5, 255, 3, 0, 0⟩⟩)

theorem wit_LogAndCounters :
    (let s := evf_ (fun e => { e with logq := [aLog] }) [];
      s.blk.evf.logq = [aLog] ∧ logFill s.blk aLog.1 < s.blk.rd F.EVF_LOGQ_QUOTA aLog.1) ∧
    (let s := evf_ (fun e => { e with logq := [aLog] }) [(F.EVF_LOGQ_QUOTA, 0, 0, 0)];
      s.blk.evf.logq = [aLog] ∧ s.blk.rd F.EVF_LOGQ_QUOTA aLog.1 ≤ logFill s.blk aLog.1) ∧
    (let s := evf_ (fun e => { e with logbuf := [aLog] }) [(F.HIF_RCFG_EN, 1, 0, 4), (F.HIF_RCFG_LOG2N, 4, 0, 4)];
      ringRoom s.blk 0 4 = true ∧ s.blk.evf.logbuf.find? (fun e => e.1 == (0 : Func).val) = some aLog) ∧
    ringRoom State.reset.blk 0 4 = false ∧
    (selExists 0x40F = true ∧ selExists 0x410 = false ∧ selExists 0x4FF = false ∧ selExists 0x500 = true ∧
      selExists 0x608 = true ∧ selExists 0x609 = false ∧ field (3 * 2 ^ 16) 16 2 = 3) ∧
    ((1 : Func) ≠ 0 ∧ State.reset.blk.rd F.CNT_CFG_OWNER 127 ≠ (1 : Func)) ∧
    (selOk State.reset.blk 1 0x600 = false ∧ selOk State.reset.blk 0 0x600 = true ∧
      State.reset.blk.rd F.CNT_CFG_OWNER 127 = (0 : Func)) ∧
    (let s := evf_ (fun e => { e with snapAt := some 0 }) [];
      s.blk.evf.snapAt = some s.blk.elapsed ∧ (∃ j < 128, s.blk.rd F.CNT_CFG_OWNER j = 0) ∧
        s.blk.on F.HIF_RCFG_EN 0 5 = false) ∧
    (State.reset.blk.evf.snapAt = none ∧ State.reset.blk.on F.CNT_CTRL_DUMP_EN = false) := by
  and_intros <;> decide +kernel

theorem wit_GovernorCountsLocksAndMutes :
    (rw_ [(F.GOV_CTRL_LOCK, 1, 0, 0)]).blk.on F.GOV_CTRL_LOCK = true ∧
    (State.reset.blk.on F.GOV_CTRL_LOCK = false ∧ State.reset.blk.allDisabled = true) ∧
    (field 3 0 12 < 4 ∧ 4000 < field 4001 0 12 ∧ field (3999 * 2 ^ 32) 32 26 < 4000 ∧
      40000000 < field (40000001 * 2 ^ 32) 32 26) ∧
    (let v := 4 + 4000 * 2 ^ 32; 4 ≤ field v 0 12 ∧ field v 0 12 ≤ 4000 ∧ 4000 ≤ field v 32 26 ∧ field v 32 26 ≤ 40000000) ∧
    (let v := 4000 + 40000000 * 2 ^ 32;
      4 ≤ field v 0 12 ∧ field v 0 12 ≤ 4000 ∧ 4000 ≤ field v 32 26 ∧ field v 32 26 ≤ 40000000) ∧
    (7 % 4 = 3 ∧ (1 : Func) ≠ 0 ∧ 48 ≤ (48 : Fin 63).val) ∧
    (6 % 4 ≠ 3 ∧ (47 : Fin 63).val < 48 ∧ State.reset.blk.owner 47 = (0 : Func)) ∧
    (let s := rs (fun b => { sets [(F.GOV_CEILS_CEIL, 0, 47, 0)] b with
        gov := { b.gov with tal := [(4 * 47, { Tally.reset with cur := 1 })] } });
      above s.blk 47 0 = true ∧ s.blk.gov.isOver.get false (2 * 47 + 0) = false) ∧
    above State.reset.blk 62 1 = false ∧
    (let s := rs (fun b => { b with elapsed := 1000000, gov := { b.gov with peers := [(8 * 63 + 2 * 3 + 1, (9, 0, 3))] } });
      s.blk.gov.peers.find (8 * (63 : Fin 64).val + 2 * (3 : Fin 4).val + (1 : Fin 2).val) = some (9, 0, 3) ∧
        0 + tallyAge s.blk ≤ s.blk.elapsed) ∧
    (let s := rs (fun b => { b with gov := { b.gov with peers := [(0, (9, 0, 3))] } }); s.blk.elapsed < 0 + tallyAge s.blk) := by
  and_intros <;> decide +kernel

/-- A bias channel's own state changed, with registers set. -/
def bia_ (c : Nat) (f : BiaSt → BiaSt) (l : List (Fld × Nat × Nat × Nat)) : State :=
  rs (fun b => let b := sets l b; b.setBia c (f (b.bia c)))

/-- A channel that is not parked. -/
def inUse (x : BiaSt) : BiaSt := { x with parked := false, failed := false, chg := none, stay := false, o := 0 }

theorem wit_BiasMovesAtItsRate :
    (let s := bia_ 63 inUse [(F.BIA_GLB_PRESET_DONE, 1, 0, 0)];
      (s.blk.bia 63).parked = false ∧ (s.blk.bia 63).chg = none ∧ s.blk.on F.BIA_GLB_CLEAR_ACT = false ∧
        s.blk.on F.BIA_CFG_CLRMODE 63 = false ∧ ruleSays s.blk 63 = none ∧ (s.blk.bia 63).stay = false ∧
        biasCfgErr s.blk 63 (s.blk.rd F.BIA_ACT_RANGE_ACT 63) = false ∧
        (s.blk.bia 63).o = (energyClamp s.blk 63 (s.blk.rd F.BIA_ACT_RANGE_ACT 63) (hostGoal s.blk 63)).1) ∧
    (let s := bia_ 0 inUse [(F.GOV_BLOAD_L_NH, 5, 0, 0), (F.GOV_BLOAD_R_MOHM, 0, 0, 0)];
      (s.blk.bia 0).parked = false ∧ ruleSays s.blk 0 = none ∧
        biasCfgErr s.blk 0 (s.blk.rd F.BIA_ACT_RANGE_ACT 0) = true) := by
  and_intros <;> decide +kernel

theorem wit_BiasWritesAndClear :
    (rw_ [(F.BIA_GLB_CLEAR_ACT, 1, 0, 0)]).blk.on F.BIA_GLB_CLEAR_ACT = true ∧
    State.reset.blk.on F.BIA_GLB_CLEAR_ACT = false ∧
    ((bia_ 0 (fun x => { x with failed := true }) []).blk.bia 0).failed = true ∧
    (6 ≤ (6 : Fin 8).val ∧ (5 : Fin 8).val < 6) ∧
    (let s := bia_ 0 inUse [];
      (s.blk.bia 0).failed = false ∧ (s.blk.bia 0).chg = none ∧ (s.blk.bia 0).parked = false ∧
        s.blk.rd F.BIA_ACT_RANGE_ACT 0 ≠ (5 : Fin 8)) ∧
    (let s := bia_ 0 inUse [(F.BIA_ACT_RANGE_ACT, 5, 0, 0)]; s.blk.rd F.BIA_ACT_RANGE_ACT 0 = (5 : Fin 8)) ∧
    (let s := bia_ 0 (fun x => { inUse x with chg := some (2, 3) }) [(F.BIA_CFG_CLRMODE, 1, 0, 0), (F.GOV_BLOAD_L_NH, 1, 0, 0)];
      (s.blk.bia 0).chg = some (2, 3) ∧ s.blk.on F.BIA_CFG_CLRMODE 0 = true ∧ 0 < s.blk.rd F.GOV_BLOAD_L_NH 0 ∧
        (s.blk.bia 0).parked = false) := by
  and_intros <;> decide +kernel

theorem wit_BiasPresets :
    (rw_ [(F.BIA_PSTAT_BUSY, 1, 63, 0)]).blk.on F.BIA_PSTAT_BUSY 63 = true ∧
    (let s := rs (fun b => { b with mram := [(126, { b.preset 126 with writes := 10 ^ 9 })] });
      s.blk.on F.BIA_PSTAT_BUSY 63 = false ∧ 10 ^ 9 ≤ (s.blk.preset (2 * 63 + 0)).writes) ∧
    (State.reset.blk.on F.BIA_PSTAT_BUSY 63 = false ∧ (State.reset.blk.preset (2 * 63 + 1)).writes < 10 ^ 9) ∧
    (∀ y ∈ [(⟨1, true⟩ : PCmd), ⟨0, false⟩],
      ((bia_ 0 (fun x => { x with cmd := some y }) []).blk.bia 0).cmd = some y) ∧
    (let s := rs (fun b => { b with mram := [(0, ⟨[], false, 0⟩), (1, ⟨[], false, 0⟩)] }); inForce s.blk 0 = none) ∧
    State.reset.blk.on F.BIA_GLB_PRESET_DONE = false ∧
    (rw_ [(F.BIA_GLB_PRESET_DONE, 1, 0, 0)]).blk.on F.BIA_GLB_PRESET_DONE = true := by
  and_intros <;> decide +kernel

theorem wit_BiasPresets_inForce : inForce State.reset.blk 0 = some 0 := by decide +kernel

/-! ### The Firn island -/

/-- The Firn island's own state changed, with registers set. -/
def frn_ (f : FrnSt → FrnSt) (l : List (Fld × Nat × Nat × Nat)) : State :=
  rs (fun b => let b := sets l b; { b with frn := f b.frn })

theorem wit_FirnMeasures :
    (counting 5 none none []).blk.tim.running = true ∧ State.reset.blk.tim.running = false ∧
    (∀ n ∈ [0, 3], let x : FirnEv := ⟨816, 2, 77, 5⟩;
      let s := frn_ (fun f => { f with evq := [x], lost := n }) [];
      s.blk.frn.evq = x :: [] ∧ s.blk.pwr.off = false ∧ s.blk.frn.lost = n) ∧
    ((111 : Fin 128).val < 112 ∧ 112 ≤ (112 : Fin 128).val ∧ seqRefused (13 * 2 ^ 12) = true ∧
      seqRefused (12 * 2 ^ 12) = false) ∧
    (let s := frn_ (fun f => { f with cur := [(1, (111, false))] }) [];
      s.blk.frn.cur.find? (fun x => x.2.1 == (111 : Fin 128).val) = some (1, (111 : Fin 128).val, false) ∧
        entryOver s.blk 1 = true ∧ ([5] : List Int).length = 1 ∧ State.reset.blk.frn.cur.find? (fun x => x.2.1 == (0 : Fin 128).val) = none) ∧
    (let s := frn_ (fun f => { f with cur := [(1, (111, false))], ends := [(1, (0, 8000))] }) [];
      s.blk.frn.cur.find? (fun x => x.2.1 == (111 : Fin 128).val) = some (1, (111 : Fin 128).val, false) ∧
        entryOver s.blk 1 = false) ∧
    (let s := rw_ [(F.FRN_STATUS_TRIG_BUSY, 1, 0, 0), (F.FRN_STATUS_TQPEND, 1, 0, 0)];
      s.blk.on F.FRN_STATUS_TRIG_BUSY = true ∧ s.blk.on F.FRN_STATUS_TQPEND = true ∧ trigDone s.blk = true) ∧
    (let s := rw_ [(F.FRN_STATUS_TRIG_BUSY, 1, 0, 0)];
      s.blk.on F.FRN_STATUS_TRIG_BUSY = true ∧ s.blk.on F.FRN_STATUS_TQPEND = false ∧ trigDone s.blk = true) ∧
    (State.reset.blk.on F.FRN_STATUS_TRIG_BUSY = false ∧ State.reset.blk.on F.FRN_CTRL_TRIG_EN = false) ∧
    (rw_ [(F.FRN_CTRL_TRIG_EN, 1, 0, 0)]).blk.on F.FRN_CTRL_TRIG_EN = true := by
  and_intros <;> decide +kernel

theorem wit_FirnComparators :
    (rw_ [(F.FRN_CMP_MODE, 0, 0, 0)]).blk.rd F.FRN_CMP_MODE 0 = 0 ∧
    (let s := rw_ [(F.FRN_CMP_MODE, 1, 79, 0), (F.FRN_CMPS_STATE, 3, 79, 0)];
      s.blk.rd F.FRN_CMP_MODE 79 ≠ 0 ∧ s.blk.rd F.FRN_CMPS_STATE 79 = 3) ∧
    (let s := rw_ [(F.FRN_CMP_MODE, 1, 79, 0), (F.FRN_CMPS_STATE, 2, 79, 0)];
      s.blk.rd F.FRN_CMPS_STATE 79 = (2 : Fin 3)) ∧
    (∀ e ∈ [0, 7],
      let s := rw_ [(F.FRN_CMP_MODE, 1, 79, 0), (F.FRN_CMPS_STATE, 1, 79, 0), (F.FRN_CMP_EDGE, e, 79, 0),
        (F.FRN_CMP_WAKE_EN, 1, 79, 0)];
      s.blk.rd F.FRN_CMP_MODE 79 ≠ 0 ∧ s.blk.rd F.FRN_CMPS_STATE 79 ≠ 3 ∧ s.blk.rd F.FRN_CMPS_STATE 79 ≠ (2 : Fin 3) ∧
        bit (s.blk.rd F.FRN_CMP_EDGE 79) (2 : Fin 3) = (e == 7) ∧ s.blk.frn.evq.length < 64 ∧
        s.blk.on F.FRN_CMP_WAKE_EN 79 = true) ∧
    (field (7 + 6 * 2 ^ 16) 16 10 < field (7 + 6 * 2 ^ 16) 0 10 ∧
      field (7 + 7 * 2 ^ 16 + 3 * 2 ^ 30) 0 10 ≤ field (7 + 7 * 2 ^ 16 + 3 * 2 ^ 30) 16 10 ∧
      field (7 + 7 * 2 ^ 16 + 3 * 2 ^ 30) 30 2 = 3 ∧ field (2 * 2 ^ 30) 30 2 ≠ 3 ∧ field 0 30 2 = 0) ∧
    (let s := rw_ ((List.range 16).map (fun i => (F.FRN_CMP_MODE, 3, i, 0)));
      s.blk.rd F.FRN_CMP_MODE 79 ≠ 3 ∧
        16 ≤ ((List.range 80).filter (fun x => s.blk.rd F.FRN_CMP_MODE x == 3)).length) := by
  and_intros <;> decide +kernel

theorem wit_FirnRulesWakeAndSmbus :
    State.reset.blk.on F.FRN_RCFG_EN 31 = false ∧
    (∀ n ∈ [3, 4],
      let s := frn_ (fun f => { f with rules := [(31, (true, n))] })
        [(F.FRN_RCFG_EN, 1, 31, 0), (F.FRN_RCFG_PERSIST, 3, 31, 0), (F.FRN_RCFG_A_WAKE, 1, 31, 0),
          (F.FRN_RCFG_A_FAULT, 1, 31, 0)];
      s.blk.on F.FRN_RCFG_EN 31 = true ∧ s.blk.rd F.FRN_RCFG_SRCKIND 31 < 2 ∧ s.blk.on F.FRN_RSTAT_FIRED 31 = false ∧
        decide (s.blk.rd F.FRN_RCFG_PERSIST 31 + 1 ≤ (s.blk.frn.rules.get (false, 0) 31).2) = (n == 4)) ∧
    (let s := rw_ [(F.FRN_RCFG_EN, 1, 31, 0), (F.FRN_RCFG_AUTO, 1, 31, 0), (F.FRN_RSTAT_FIRED, 1, 31, 0)];
      s.blk.on F.FRN_RSTAT_FIRED 31 = true ∧ s.blk.on F.FRN_RCFG_AUTO 31 = true ∧
        (s.blk.frn.rules.get (false, 0) 31).2 = 0) ∧
    State.reset.blk.rd F.GLB_PWR_STATE = 0 ∧
    (let s := rw_ [(F.GLB_PWR_STATE, 1, 0, 0)]; s.blk.rd F.GLB_PWR_STATE = 1 ∧ hibernated s.blk = false) ∧
    (let s := rw_ [(F.GLB_PWR_STATE, 2, 0, 0)];
      2 ≤ s.blk.rd F.GLB_PWR_STATE ∧ s.blk.on F.FRN_THERM_SHDN = false ∧ s.blk.rd F.RCV_STATUS_TILE_OFF = 0) := by
  and_intros <;> decide +kernel

/-! ### Triggers, capture engines, markers -/

/-- A tone trigger, a unit and a capture engine set, with registers set. -/
def trg_ (q : Nat) (t : ToneSt) (u : Nat) (x : UnitSt) (e : Nat) (c : CapSt) (l : List (Fld × Nat × Nat × Nat)) : State :=
  rs (fun b => (((sets l b).setTone q t).setUnit u x).setCap e c)

/-- A tone trigger, a unit or a capture engine alone. -/
def tone_ (q : Nat) (t : ToneSt) (l : List (Fld × Nat × Nat × Nat)) : State :=
  trg_ q t 0 UnitSt.reset 0 CapSt.reset l
def unit_ (u : Nat) (x : UnitSt) (l : List (Fld × Nat × Nat × Nat)) : State :=
  trg_ 0 ToneSt.reset u x 0 CapSt.reset l
def cap_ (e : Nat) (c : CapSt) (l : List (Fld × Nat × Nat × Nat)) : State :=
  trg_ 0 ToneSt.reset 0 UnitSt.reset e c l

/-- Fields of a TRG_GCFG word: kind, qualifier, index. -/
def gcfg (k q i : Nat) : Nat := k * 2 ^ 12 + q * 2 ^ 16 + i

/-- A word of TRG_GCFG that R402 refuses. -/
def badCfg (v : Nat) : Bool :=
  ([1, 3, 4].contains (field v 12 3) && [4, 6, 7].contains (field v 16 3)) ||
    ([2, 3].contains (field v 12 3) && decide (16 ≤ field v 0 9)) || (field v 12 3 == 4 && decide (80 ≤ field v 0 9))

theorem wit_TonesAndUnitsQualify :
    (let s := tone_ 511 { ToneSt.reset with cond := true, run := 1 } [];
      (s.blk.tone 511).since = none ∧ (s.blk.tone 511).cond = true ∧
        max 1 (s.blk.act F.TRG_TCFG_WIDTH 511) ≤ (s.blk.tone 511).run) ∧
    ((State.reset.blk.tone 0).cond = false) ∧
    (∀ k ∈ [4, 5],
      let s := tone_ 0 { ToneSt.reset with since := some k } [(F.TRG_TCFG_HOLD, 5, 0, 0)];
      (s.blk.tone 0).since = some k ∧ (s.blk.tone 0).cond = false ∧
        decide (s.blk.act F.TRG_TCFG_HOLD 0 ≤ k) = (k == 5)) ∧
    State.reset.blk.actOn F.TRG_GCFG_EN 31 = false ∧
    (∀ n ∈ [0, 1],
      let s := unit_ 31 { UnitSt.reset with holdLeft := n, crossed := 160 }
        [(F.TRG_GCFG_EN, 1, 31, 0), (F.TRG_GCFG_HMODE, 2, 31, 0), (F.TRG_GCFG_QUAL, 5, 31, 0)];
      s.blk.actOn F.TRG_GCFG_EN 31 = true ∧ unitHeld s.blk 31 160 = (n == 1) ∧ s.blk.act F.TRG_GCFG_QUAL 31 = 5 ∧
        (s.blk.unit 31).crossed = 160 ∧ (s.blk.unit 31).crossed ≠ 161 ∧
        unitHeld s.blk 31 (160 + s.blk.act F.TRG_GTIME_T1 31) = (n == 1)) ∧
    (State.reset.blk.rd F.TRG_CCFG_TSELK 15 = 0 ∧ State.reset.blk.rd F.TRG_CCFG_TSELIDX 15 = (0 : Fin 32)) ∧
    (∀ v ∈ [gcfg 1 4 0, gcfg 3 6 0, gcfg 4 7 0, gcfg 2 0 16, gcfg 3 0 16, gcfg 4 0 80],
      badCfg v = true ∧ field v 12 3 < 5 ∧ field v 20 2 ≠ 3) ∧
    (∀ v ∈ [gcfg 0 7 511, gcfg 2 7 15, gcfg 3 5 15, gcfg 4 5 79],
      badCfg v = false ∧ field v 12 3 < 5 ∧ field v 20 2 ≠ 3) ∧
    (5 ≤ field (gcfg 5 0 0) 12 3 ∧ field (3 * 2 ^ 20) 20 2 = 3) ∧
    (toS 32 (2 ^ 32 + 0) < toS 32 ((2 ^ 32 + 0) / 2 ^ 32)) ∧
    (let s := rs (fun b => { b with now := 10, trg := { b.trg with lastEdge := [(15, 7)] } });
      (0 : Nat) < s.blk.rd F.TRG_XIN_DEB 15 + 1 ∧ s.blk.rd F.TRG_XIN_DEB 15 + 1 ≤ 2 ^ 16 ∧
        s.blk.on F.TRG_XIN_LEVEL 15 ≠ true ∧ s.blk.on F.TRG_XIN_LEVEL 15 = false ∧
        s.blk.trg.lastEdge.find 15 = some (s.blk.now - 3) ∧ State.reset.blk.trg.lastEdge.find 15 = none) ∧
    (let s := rw_ [(F.TRG_XIN_EDGES, 1, 15, 0)]; bit (s.blk.rd F.TRG_XIN_EDGES 15) 0 = true) := by
  and_intros <;> decide +kernel

/-- A capture engine in a state and mode, one-shot or continuous, with two segments of a page each. -/
def capIn (st mode cont : Nat) : List (Fld × Nat × Nat × Nat) :=
  [(F.TRG_CSTAT_STATE, st, 15, 0), (F.TRG_CCFG_MODE, mode, 15, 0), (F.TRG_CCFG_TMODE, cont, 15, 0),
    (F.TRG_CBUF_NPAGE, 1, 15, 0), (F.TRG_CBUF_NSEG, 0, 15, 0)]

theorem wit_CapturesAndMarkers :
    (let s := cap_ 15 CapSt.reset (capIn 1 1 0); s.blk.capState 15 ≠ 0 ∧ s.blk.capState 15 ≠ 4 ∧ s.blk.capState 15 = 1) ∧
    (let s := cap_ 15 CapSt.reset (capIn 4 1 0); s.blk.capState 15 = 4) ∧
    (capCheck State.reset.blk 15 ≠ 0 ∧ State.reset.blk.capState 15 = 0) ∧
    (let s := cap_ 15 CapSt.reset (capIn 0 1 0 ++ [(F.TRG_CWIN_POST, 4, 15, 0)]); capCheck s.blk 15 = 0) ∧
    (let s := cap_ 15 CapSt.reset (capIn 1 3 0); capCont s.blk 15 = true) ∧
    (let s := cap_ 15 CapSt.reset (capIn 1 1 0); capCont s.blk 15 = false ∧ s.blk.capState 15 = 1) ∧
    (let s := cap_ 15 { CapSt.reset with anchor := some (160, 0, 0) } (capIn 2 1 0);
      capCont s.blk 15 = false ∧ s.blk.capState 15 = 2 ∧ (s.blk.cap 15).anchor = some (160, 0, 0)) ∧
    (let s := cap_ 15 CapSt.reset (capIn 3 1 0); capCont s.blk 15 = false ∧ s.blk.capState 15 = 3) ∧
    capComplete State.reset.blk 15 = false ∧
    (let s := rs (fun b => { (sets (capIn 2 1 0) b).setCap 15 { CapSt.reset with anchor := some (160, 0, 0) } with
        now := 1000000 });
      capComplete s.blk 15 = true ∧ capExhausted s.blk 15 = false) ∧
    (let s := cap_ 15 { CapSt.reset with recs := List.replicate 4032 0 } (capIn 1 3 1);
      capComplete s.blk 15 = true ∧ capExhausted s.blk 15 = true) ∧
    (let s := cap_ 15 { CapSt.reset with recs := [0] } (capIn 1 3 0 ++ [(F.TRG_CWIN_FLUSH, 1, 15, 0), (F.TRG_CBUF_NSEG, 1, 15, 0)]);
      let t := { s with blk := { s.blk with elapsed := 800 } };
      t.blk.capState 15 = 1 ∧ capMode t.blk 15 = 3 ∧ (t.blk.cap 15).recs ≠ [] ∧ t.blk.rd F.TRG_CWIN_FLUSH 15 ≠ 0 ∧
        (t.blk.cap 15).begin_ + 800 * t.blk.rd F.TRG_CWIN_FLUSH 15 ≤ t.blk.elapsed ∧ capExhausted t.blk 15 = false) ∧
    capMode State.reset.blk 15 ≠ 3 ∧
    (let s := rw_ [(F.TRG_MCFG_EN, 1, 15, 0), (F.TRG_MCFG_SEQ, 63, 15, 0)];
      s.blk.actOn F.TRG_MCFG_EN 15 = true ∧ s.blk.rd F.TRG_MCFG_SEQ 15 = 64 - 1 ∧ s.blk.rd F.TRG_MCFG_SEQ 15 ≠ 63 - 1) ∧
    State.reset.blk.actOn F.TRG_MCFG_EN 15 = false := by
  and_intros <;> decide +kernel

/-! ### Accesses from outside -/

/-- Virtual function 1 is there, with registers set. -/
def vf1 (l : List (Fld × Nat × Nat × Nat)) : State :=
  rs (fun b => let b := sets ((F.HIF_GSTAT_NUMVF, 1, 0, 0) :: l) b; { b with hif := { b.hif with vfEn := true } })

/-- Function `f` is served. -/
def Up (b : Blk) (f : Nat) : Bool :=
  !b.pwr.off && b.rd F.GLB_PWR_STATE == 0 && !islBusy b 0 && !islBusy b 1 && !islBusy b 2 && present b f

theorem wit_HostAccessesReachTheirPlaces :
    (rs (fun b => { b with pwr := { b.pwr with off := true } })).blk.pwr.off = true ∧
    present State.reset.blk 1 = false ∧ Up State.reset.blk 0 = true ∧ Up (vf1 []).blk 1 = true ∧
    (blocksOf 0x30 4).all (fun y => wholeWords (enabled 0x30 4 7 y) == 0) = true ∧
    (let s := vf1 [(F.VIEW_ADDR_ADDR, 0x30, 1, 0)];
      let x : RegAt := ⟨.glbScratch, 0, 0, 0⟩;
      Up s.blk 1 = true ∧ locate s.blk (s.blk.rd F.VIEW_ADDR_ADDR 1 / 8 * 8) = some x ∧ regWidth x.reg = 64 ∧
        sees s.blk 1 x.reg x.i = false) ∧
    (0x7FF8 < 0x8000 ∧ 0x7FF8 % 8 = 0 ∧ (vf1 []).blk.on F.HIF_AP_EN 1 (0x7FF8 / 0x1000) = false) ∧
    (let s := vf1 [(F.HIF_AP_EN, 1, 1, 0), (F.HIF_AP_PAGE, 0, 1, 0)];
      let x : RegAt := ⟨.glbScratch, 0, 0, 0⟩;
      Up s.blk 1 = true ∧ s.blk.on F.HIF_AP_EN 1 (0x30 / 0x1000) = true ∧
        locate s.blk (0x1000 * s.blk.rd F.HIF_AP_PAGE 1 (0x30 / 0x1000) + 0x30 % 0x1000) = some x ∧
        sees s.blk 1 x.reg x.i = false) ∧
    (let s := { State.reset with blk := { State.reset.blk with ddr := { State.reset.blk.ddr with sram := false } } };
      Up s.blk 0 = true ∧ s.mem.poison = [] ∧ sweeping s.blk (scratchBase + 0xC00000 - 8) = false ∧
        scratchBase ≤ scratchBase + 0xC00000 - 8 ∧ scratchBase + 0xC00000 - 8 + 8 ≤ scratchBase + 0xC00000) ∧
    (let s := vf1 [(F.HIF_SPART_SIZE, 1, 1, 0)]; inSpart s.blk 1 0x10000 8 = false ∧ inSpart s.blk 1 (scratchBase + 0x10000) 8 = false) ∧
    (∀ st ∈ [2, 3],
      let s := rs (fun b => { sets [(F.SEQ_STATUS_STATE, st, 63, 0)] b with ddr := { b.ddr with sram := false } });
      Up s.blk 0 = true ∧ regionHeld s.blk (63 / 8) = false ∧ s.blk.seqState 63 = st ∧
        sweeping s.blk (pgmBase 63) = false) ∧
    (let s := rw_ [(F.RCV_STATUS_ISL_BUSY, 1, 0, 0)];
      s.blk.pwr.off = false ∧ present s.blk 0 = true ∧ islBusy s.blk 0 = true) := by
  and_intros <;> decide +kernel

/-! ### The host interface -/

/-- The 64 bytes of a descriptor: its opcode and fields `(first byte, bytes, value)`; DEADLINE is all ones. -/
def desc (op : Nat) (l : List (Nat × Nat × Nat)) : List Byte :=
  leBytes 64 (((0, 1, op) :: l).foldl (fun n x => n + x.2.2 * 256 ^ x.1) ((2 ^ 48 - 1) * 256 ^ 8))

/-- A waiting descriptor of function 0 with index 5. -/
def cmd5 (op : Nat) (l : List (Nat × Nat × Nat)) : Cmd := ⟨5, desc op l, false, 0, 0, 0⟩

/-- Function 0 has one descriptor. -/
def hs (c : Cmd) (r : List (Fld × Nat × Nat × Nat)) : State :=
  rs (fun b => let b := sets r b; { b with hif := { b.hif with cmds := [(0, [c])] } })

/-- Its command ring and completion ring are enabled with 16 entries. -/
def rings (p : Nat) : State :=
  rw_ [(F.HIF_RCFG_EN, 1, 0, 0), (F.HIF_RCFG_LOG2N, 4, 0, 0), (F.DB_CMD_PROD, p, 0, 0), (F.HIF_RCFG_EN, 1, 0, 1),
    (F.HIF_RCFG_LOG2N, 4, 0, 1), (F.HIF_RCFG_EN, 1, 0, 2), (F.HIF_RCFG_LOG2N, 4, 0, 2), (F.DB_RING_PRODUCED, 3, 0, 2)]

theorem wit_RingsCountAndAnnounce :
    (State.reset.blk.pwr.off = false) ∧ (State.reset.blk.on F.HIF_RCFG_EN 0 0 = false) ∧
    ((rings 0).blk.on F.HIF_RCFG_EN 0 0 = true ∧ sub32 16 0 ≤ ringSize (rings 0).blk 0 0) ∧
    (ringSize (rings 0).blk 0 0 < sub32 17 0 ∧ sub32 2 0 < sub32 ((rings 3).blk.rd F.DB_CMD_PROD 0) 0) ∧
    (ringUsed (rings 0).blk 0 2 < sub32 4 (ringCons (rings 0).blk 0 2) ∧
      sub32 3 (ringCons (rings 0).blk 0 2) ≤ ringUsed (rings 0).blk 0 2 ∧ ringUsed (rings 0).blk 0 1 = 0 ∧
      ringUsed (rings 0).blk 0 2 ≠ 0) ∧
    ((rw_ [(F.DB_RING_ARM, 1, 0, 5)]).blk.on F.DB_RING_ARM 0 5 = true) ∧ (State.reset.blk.on F.DB_RING_ARM 0 5 = false) ∧
    (field 0x30000 16 4 < 4 ∧ 4 ≤ field 0x80040000 16 4 ∧ bit 0x80040000 31 = true ∧
      (rings 0).blk.rd F.HIF_RCFG_LOG2N 0 0 ≠ field 0x80050000 16 4) ∧
    (let s := rings 1;
      serving s.blk 0 = true ∧ s.blk.on F.HIF_RCFG_EN 0 0 = true ∧ s.blk.rd F.DB_CMD_PROD 0 ≠ s.blk.rd F.DB_CMD_CONSUMED 0 ∧
        ringRoom s.blk 0 1 = true ∧ s.blk.hif.comps.get [] 0 = [] ∧ cmdsOf s.blk 0 = [] ∧ (desc 8 []).length = 64 ∧
        s.blk.rd F.GLB_PWR_STATE ≠ 1 ∧ (cmd5 8 []).opc < 9 ∧ 9 ≤ (cmd5 9 []).opc) ∧
    (ringRoom State.reset.blk 0 1 = false) ∧
    (let s : State := { rings 0 with blk := { (rings 0).blk with hif := { (rings 0).blk.hif with comps := [(0, [[1]])] } } };
      s.blk.hif.comps.get [] 0 = [[1]] ∧ ringRoom s.blk 0 1 = true) := by
  and_intros <;> decide +kernel

/-- The hypotheses of a clause about opcode `op`: the descriptor is about to start. -/
theorem starts (s : State) (c : Cmd) (op : Nat)
    (h : (serving s.blk 0 && decide (cmdAt s.blk 0 5 = some c) && c.opc == op &&
      (startable (cmdsOf s.blk 0)).any (fun x => x.idx == 5) && c.clean && s.blk.verdicts.isEmpty) = true) :
    AtCmd s.blk 0 5 op c := by
  simp only [Bool.and_eq_true, decide_eq_true_eq, beq_iff_eq, List.isEmpty_iff] at h
  obtain ⟨⟨⟨⟨⟨a, b⟩, c⟩, d⟩, e⟩, f⟩ := h
  exact ⟨a, b, c, d, e, f⟩

/-- A LOAD of `n` bytes to the module address `a`. -/
def moveCmd (op a n : Nat) : Cmd := cmd5 op [(24, 8, a), (32, 4, n)]

theorem wit_DescriptorsAreCheckedAndRun :
    (let c : Cmd := ⟨5, desc 0 [(8, 6, 2 ^ 48)], false, 0, 0, 0⟩; let s := hs c [];
      serving s.blk 0 = true ∧ cmdAt s.blk 0 5 = some c ∧ c.opc = 0 ∧ s.blk.verdicts = [] ∧ c.clean = false ∧
        (startable (cmdsOf s.blk 0)).any (fun y => y.idx == 5) = true ∧ cmdAt State.reset.blk 0 5 = none) ∧
    AtCmd (hs (cmd5 0 []) []).blk 0 5 0 (cmd5 0 []) ∧
    (let c := cmd5 1 [(36, 1, 255)]; AtCmd (hs c []).blk 0 5 1 c ∧ 2 ≤ c.kind) ∧
    (let c := moveCmd 1 0x2000000 0x10000; let s := hs c [];
      AtCmd s.blk 0 5 1 c ∧ c.kind = 0 ∧ moveRange s.blk 0 c = false) ∧
    (let c := moveCmd 1 0x2000000 0x8000; let s := hs c [(F.SEQ_STATUS_STATE, 2, 0, 0)];
      AtCmd s.blk 0 5 1 c ∧ moveRange s.blk 0 c = true ∧ pgmBusy s.blk c.modoff = true) ∧
    (let c := moveCmd 1 0x2000000 0x8000; let s := hs c [];
      AtCmd s.blk 0 5 1 c ∧ moveRange s.blk 0 c = true ∧ pgmBusy s.blk c.modoff = false) ∧
    (let c := cmd5 1 [(36, 1, 1), (24, 8, 15)]; let s := hs c [];
      AtCmd s.blk 0 5 1 c ∧ s.blk.owner 63 = 0 ∧ c.kind = 1) ∧
    (let c := cmd5 2 [(36, 1, 1)]; AtCmd (hs c []).blk 0 5 2 c ∧ c.kind ≠ 0) ∧
    (let c := moveCmd 2 0 0; AtCmd (hs c []).blk 0 5 2 c ∧ moveRange (hs c []).blk 0 c = false) ∧
    (let c := moveCmd 2 0 4; AtCmd (hs c []).blk 0 5 2 c ∧ moveRange (hs c []).blk 0 c = true) ∧
    (let c := cmd5 3 [(16, 8, 2 ^ 63)]; let s := hs c [(⟨.hifOwn, 60, 4⟩, 1, 3, 0)];
      AtCmd s.blk 0 5 3 c ∧ c.seqs.any (fun q => s.blk.seqOwner q != 0) = true) ∧
    (let c := cmd5 3 [(16, 8, 2 ^ 63 + 1), (28, 2, 4095)]; let s := hs c [];
      AtCmd s.blk 0 5 3 c ∧ c.seqs.any (fun q => s.blk.seqOwner q != 0) = false ∧ c.deadline = none ∧ c.status = 0 ∧
        c.detail = 0 ∧ (s.blk.queueOf 2).length + 64 ≤ 64) ∧
    (let c := cmd5 4 [(16, 4, 2 ^ 31 + 4)]; let s := hs c [];
      AtCmd s.blk 0 5 4 c ∧ (paramTarget s.blk 0 (c.le 16 4 % 2 ^ 31)).isNone = true) ∧
    (let c := cmd5 4 []; let s := hs c [];
      AtCmd s.blk 0 5 4 c ∧ [16, 32, 48].filter (fun i => bit (c.le i 4) 31) = [] ∧ c.deadline = none ∧ c.idx = 5 ∧
        (s.blk.queueOf 2).length ≤ dlCap 2) ∧
    (let c := cmd5 5 []; AtCmd (hs c []).blk 0 5 5 c ∧ fenceReady (hs c []).blk 0 c = true) ∧
    (let c := cmd5 5 [(16, 6, 1000), (22, 1, 1)]; AtCmd (hs c []).blk 0 5 5 c ∧ fenceReady (hs c []).blk 0 c = false) ∧
    (let c := { cmd5 5 [] with started := true }; let s := hs c [];
      cmdAt s.blk 0 5 = some c ∧ c.opc = 5 ∧ fenceReady s.blk 0 c = true) ∧
    (let c := cmd5 5 [(16, 6, 1000), (22, 1, 1)]; cmdAt (hs c []).blk 0 5 = some c ∧ fenceReady (hs c []).blk 0 c = false) ∧
    (let c := cmd5 6 [(16, 1, 16)]; AtCmd (hs c []).blk 0 5 6 c ∧ 16 ≤ c.le 16 1) ∧
    (let c := cmd5 6 [(16, 1, 15)]; AtCmd (hs c []).blk 0 5 6 c ∧ c.le 16 1 < 16 ∧ (hs c []).blk.owner (144 + c.le 16 1) = 0) ∧
    (let c := cmd5 7 [(16, 1, 0x80 + 63)]; let s := hs c [(⟨.hifOwn, 60, 4⟩, 1, 8, 0)];
      AtCmd s.blk 0 5 7 c ∧ c.biases.any (fun x => s.blk.owner (80 + x.1) != 0) = true) ∧
    (let c := cmd5 7 [(16, 1, 0x80 + 63)]; let s := hs c [];
      AtCmd s.blk 0 5 7 c ∧ c.biases = [(63, 0)] ∧ s.blk.owner (80 + 63) = 0) ∧
    (let c := cmd5 8 [(16, 8, 1)]; let s := hs c [(⟨.hifOwn, 0, 4⟩, 1, 0, 0)];
      AtCmd s.blk 0 5 8 c ∧ c.seqs.any (fun q => s.blk.seqOwner q != 0) = true) ∧
    (let c := cmd5 8 [(16, 8, 1)]; let s := hs c []; AtCmd s.blk 0 5 8 c ∧ c.seqs = [0] ∧ s.blk.seqState 0 = 0) ∧
    (let c := cmd5 8 [(16, 8, 1)]; let s := hs c [(F.SEQ_STATUS_STATE, 2, 0, 0)];
      AtCmd s.blk 0 5 8 c ∧ c.seqs = [0] ∧ s.blk.seqState 0 = 2) ∧
    (let c := { cmd5 1 [(36, 1, 1)] with started := true }; let s := hs c []; let s' := hs c [(F.ACQ_CFG_CTRL_STATUS, 1, 0, 0)];
      cmdAt s.blk 0 5 = some c ∧ c.left = 0 ∧ moveHeld s.blk c = none ∧ (List.range 32).any (slotBytesBad [3]) = true ∧
        (List.range 32).any (slotBytesBad []) = false ∧ s.blk.rd F.ACQ_CFG_CTRL_STATUS 0 ≠ 1 ∧ cmdAt s'.blk 0 5 = some c ∧
        moveHeld s'.blk c = none ∧ s'.blk.rd F.ACQ_CFG_CTRL_STATUS 0 = 1) ∧
    (let c := { moveCmd 1 0 4 with started := true };
      let b := Blk.reset;
      let b := { b with ddr := { b.ddr with sram := false }, hif := { b.hif with cmds := [(0, [c])] } };
      cmdAt b 0 5 = some c ∧ moveHeld b c = none ∧ ([1, 2, 3, 4] : List Byte).length = c.length ∧
        (storeAt b c.modoff != .none) = true ∧ sweeping b c.modoff = false ∧ pgmBusy b c.modoff = false ∧
        State.reset.mem.poison = []) ∧
    (let c := { moveCmd 2 0 4 with started := true }; let s := hs c [];
      cmdAt s.blk 0 5 = some c ∧ moveHeld s.blk c = none ∧ c.opc = 2 ∧ poisonIn s.mem c.modoff c.length = []) := by
  and_intros <;> first | exact starts _ _ _ (by decide +kernel) | decide +kernel
/-! ### Ownership and functions -/

/-- The functions to 15 exist and `f` is enabled; registers set. -/
def vfOn (f : Nat) (l : List (Fld × Nat × Nat × Nat)) : State :=
  rs (fun b => let b := sets ([(F.HIF_GSTAT_NUMVF, 15, 0, 0), (F.HIF_FCTRL_EN, 1, f, 0)] ++ l) b
               { b with hif := { b.hif with vfEn := true } })

theorem wit_FunctionsOwnAndFlush :
    (∀ x < 16, State.reset.blk.owner (16 * 13 + x) = field 0 (4 * x) 4) ∧
    (let s := rw_ [(F.SEQ_STATUS_STATE, 1, portSeq 0, 0)];
      (∀ x < 16, x ≠ 0 → s.blk.owner x = field 0xF (4 * x) 4) ∧ s.blk.owner 0 ≠ field 0xF 0 4 ∧ resIdle s.blk 0 = false) ∧
    (let s := State.reset;
      (∀ x < 16, x ≠ 15 → s.blk.owner (16 * 13 + x) = field (2 ^ 60) (4 * x) 4) ∧ s.blk.owner 223 ≠ field (2 ^ 60) 60 4 ∧
        resIdle s.blk 223 = true ∧ resTargeted s.blk 223 = false) ∧
    (192 < field 192 0 F.HIF_SPART_BASE.wid + field (2 ^ 32) 32 16 ∧
      partOverlaps (rw_ [(F.HIF_SPART_SIZE, 1, 2, 0)]).blk F.HIF_SPART_BASE F.HIF_SPART_SIZE 1 0 1 = true) ∧
    (isActive (vfOn 15 [(F.HIF_SPART_SIZE, 191, 0, 0)]).blk 15 = true ∧ 191 + 1 ≤ 192 ∧
      partOverlaps (vfOn 15 [(F.HIF_SPART_SIZE, 191, 0, 0)]).blk F.HIF_SPART_BASE F.HIF_SPART_SIZE 15 191 1 = false) ∧
    (isActive (rw_ [(F.HIF_SPART_SIZE, 191, 0, 0)]).blk 15 = false ∧
      partOverlaps (rw_ [(F.HIF_SPART_SIZE, 191, 0, 0)]).blk F.HIF_SPART_BASE F.HIF_SPART_SIZE 15 191 1 = false) ∧
    ((vfOn 15 [(F.HIF_FSTAT_FLUSHING, 1, 15, 0)]).blk.on F.HIF_FSTAT_FLUSHING 15 = true ∧
      flushDone (vfOn 15 [(F.HIF_FSTAT_FLUSHING, 1, 15, 0)]).blk 15 = true) ∧
    (State.reset.blk.on F.HIF_FSTAT_FLUSHING 15 = false ∧
      flushDone (rw_ [(F.SEQ_STATUS_STATE, 2, 0, 0)]).blk 0 = false) ∧
    (flrHeld (rw_ [(F.RCV_RSTAT_STATE, 1, 7, 0)]).blk 0 = some 7) ∧
    (flrHeld State.reset.blk 0 = none ∧ State.reset.blk.rd F.GLB_PWR_STATE ≠ 1) := by
  and_intros <;> decide +kernel
/-! ### Memory -/

/-- The DRAM's own state changed. -/
def ds (f : DdrSt → DdrSt) (l : List (Fld × Nat × Nat × Nat)) : State :=
  rs (fun b => let b := sets l b; { b with ddr := f b.ddr })

/-- One word of store 0 is poisoned. -/
def bad0 : State := { rw_ [] with mem := { State.reset.mem with poison := [0] } }

/-- A fetch of 256 bytes waits for port 0, whose channel is in service; `d` says it is denied. -/
def refill (d : Bool) (l : List (Fld × Nat × Nat × Nat)) : State :=
  rs (fun b => let b := sets (l ++ [(F.MEM_DSTAT_DRAM_READY, 1, 0, 0)]) b
               let q := portSeq 0
               { b with seqs := b.seqs.set q { b.seq q with fetchq := [⟨0, 256, 256, 192, false, d⟩] } })

theorem wit_DramIsTrainedSweptAndServed :
    (State.reset.blk.rd F.MEM_DCTRL_SCRUB_H = 24 ∧ (rw_ [(F.MEM_DCTRL_SCRUB_H, 0, 0, 0)]).blk.rd F.MEM_DCTRL_SCRUB_H = 0) ∧
    (bad0.mem.poisoned 7 = true ∧ bad0.blk.rd F.MEM_DCTRL_SCRUB_H ≠ 0 ∧ bad0.mem.poisoned 8 = false) ∧
    (State.reset.blk.ddr.corrAt.find 0 = none ∧
      (let s := ds (fun d => { d with corrAt := [(0, 0)] }) []; s.blk.ddr.corrAt.find 0 = some 0 ∧ s.blk.elapsed < 0 + 800)) ∧
    ((rw_ [(F.MEM_TRAIN_BUSY, 1, 0, 0)]).blk.on F.MEM_TRAIN_BUSY = true) ∧
    ((rw_ [(F.MEM_DCTRL_TRAINED, 1, 0, 0)]).blk.on F.MEM_TRAIN_BUSY = false ∧
      (rw_ [(F.MEM_DCTRL_TRAINED, 1, 0, 0)]).blk.on F.MEM_DCTRL_TRAINED = true) ∧
    (State.reset.blk.on F.MEM_TRAIN_BUSY = false ∧ State.reset.blk.on F.MEM_DCTRL_TRAINED = false ∧
      bit (2 ^ 31 + 3) 31 = true ∧ field (2 ^ 31 + 3) 0 3 < channels State.reset.blk) ∧
    ((rw_ [(F.MEM_TRAIN_BUSY, 1, 0, 0)]).blk.ddr.wait = false) ∧
    ((ds (fun d => { d with wait := true }) [(F.MEM_TRAIN_BUSY, 1, 0, 0)]).blk.ddr.wait = true ∧
      (ds (fun d => { d with wait := true }) [(F.MEM_TRAIN_BUSY, 1, 0, 0)]).blk.on F.MEM_TRAIN_BUSY = true) ∧
    ((rw_ [(F.MEM_TRAIN_BUSY, 1, 0, 0)]).blk.on F.MEM_DCTRL_TRAINED = false) ∧
    (State.reset.blk.ddr.sweeps.any (fun x => x.1 == 3) = false) ∧
    ((ds (fun d => { d with sweeps := [(3, 0, 64), (255, 0, 64)] }) []).blk.ddr.sweeps.any (fun x => x.1 == 3) = true ∧
      (ds (fun d => { d with sweeps := [(3, 0, 64), (255, 0, 64)] }) []).blk.ddr.sweeps.any (fun x => x.1 == 255) = true ∧
      (∀ x < channels State.reset.blk, bit 0 x = false) ∧ (∃ x < channels State.reset.blk, bit 1 x = true)) ∧
    ((channels State.reset.blk = 8 ∨ channels State.reset.blk = 4) ∧
      channels (rs (fun b => { b with is32 := true })).blk = 8 ∧ channels (rs (fun b => { b with is32 := false })).blk = 4) ∧
    (let s := rs (fun b => sets [(F.MEM_DCTRL_TRAINED, 1, 0, 0)] { b with is32 := true });
      s.blk.is32 = true ∧ s.blk.on F.MEM_DCTRL_TRAINED = true) ∧
    (islBusy State.reset.blk 1 = false ∧ refillPort State.reset.blk = none) ∧
    (let s := refill false [];
      islBusy s.blk 1 = false ∧ refillPort s.blk = some 0 ∧ fetching s.blk 0 = some ⟨0, 256, 256, 192, false, false⟩ ∧
        (s.blk.port 0).dropBytes = 0 ∧ s.mem.poison = []) ∧
    (let s := refill true [];
      islBusy s.blk 1 = false ∧ refillPort s.blk = some 0 ∧ fetching s.blk 0 = some ⟨0, 256, 256, 192, false, true⟩ ∧
        (s.blk.port 0).dropBytes = 0) ∧
    (panicking (refill false []).blk 0 = true ∧ (refill false []).blk.on F.MEM_PANIC_PANIC 0 = false) ∧
    (panicking State.reset.blk 0 = false ∧ (refill false [(F.MEM_PANIC_PANIC, 1, 0, 0)]).blk.on F.MEM_PANIC_PANIC 0 = true) ∧
    ((rw_ [(F.GLB_PWR_STATE, 1, 0, 0)]).blk.rd F.GLB_PWR_STATE = 1 ∧ 3 < channels State.reset.blk) ∧
    (State.reset.blk.rd F.GLB_PWR_STATE ≠ 1) := by
  and_intros <;> decide +kernel
/-! ### Habor -/

/-- A link's own state changed. -/
def ls (p st : Nat) (f : LnkSt → LnkSt) (l : List (Fld × Nat × Nat × Nat)) : State :=
  rs (fun b => let b := sets ((F.LNK_PSTAT_STATE, st, p, 0) :: l) b; b.setLink p (f (b.link p)))

/-- A port in FREE with both buffers of 4,096 bytes; the transmit buffer holds 16 bytes. -/
def free3 (l : List (Fld × Nat × Nat × Nat)) : State :=
  ls 3 4 id ([(F.LNK_FBUF_LOG2SZ, 12, 3, 0), (F.LNK_FBUF_LOG2SZ, 12, 3, 1), (F.LNK_FPTR_PROD, 16, 3, 0)] ++ l)

/-- Every condition of R507 holds on port 3. -/
def lockable (l : List (Fld × Nat × Nat × Nat)) : State :=
  ls 3 2 id ([(F.TIM_STATUS_ALIGNED, 1, 0, 0), (F.LNK_PSTAT_XVALID, 1, 3, 0), (F.LNK_LANE_FOM, 255, 3, 0),
    (F.LNK_LANE_FOM, 255, 3, 1)] ++ l)

theorem wit_LinkStatesAndPackets :
    (let s := ls 3 0 id [(F.LNK_PCFG_EN, 1, 3, 0)]; s.blk.lnkState 3 = 0 ∧ s.blk.on F.LNK_PCFG_EN 3 = true) ∧
    (State.reset.blk.on F.LNK_PCFG_EN 3 = false) ∧ (ls 3 1 id []).blk.lnkState 3 = 1 ∧ (ls 3 0 id []).blk.lnkState 3 ≠ 1 ∧
    (let s := lockable []; s.blk.lnkState 3 = 2 ∧ s.blk.now % 33 = 0 ∧ lockConds s.blk 3 = true ∧ ltOk s.blk 3 = true ∧
      fomOk s.blk 3 = true) ∧
    (let s := lockable [(F.LNK_XCH_DELAY, 4095, 3, 0)]; s.blk.lnkState 3 = 2 ∧ s.blk.now % 33 = 0 ∧ ltOk s.blk 3 = false) ∧
    (let s := lockable [(F.LNK_PSTAT_XVALID, 0, 3, 0)];
      s.blk.lnkState 3 = 2 ∧ s.blk.now % 33 = 0 ∧ ltOk s.blk 3 = true ∧ lockConds s.blk 3 = false) ∧
    (∀ x < 6, (ls 3 x id []).blk.lnkState 3 = x) ∧ (ls 3 5 id []).blk.on F.LNK_PCFG_RAWPAT 3 = false ∧
    ((ls 3 0 id [(F.LNK_PCFG_EN, 1, 3, 0)]).blk.on F.LNK_PCFG_EN 3 = true) ∧ bufUsed State.reset.blk 3 0 < 8 ∧
    (let s := free3 [(F.HIF_DPART_SIZE, 0, 0, 0)]; s.blk.lnkState 3 = 4 ∧ 8 ≤ bufUsed s.blk 3 0 ∧ bufOk s.blk 3 0 = false) ∧
    (let s := free3 [(F.LNK_FPTR_PROD, 15, 3, 0)]; s.blk.lnkState 3 = 4 ∧ 8 ≤ bufUsed s.blk 3 0 ∧ bufOk s.blk 3 0 = true ∧
      bufUsed s.blk 3 0 < 8 + 8 * (field (leNat (bufRead s.blk s.mem 3 0 0 8).1) 16 12 + 1)) ∧
    (let s := free3 []; s.blk.lnkState 3 = 4 ∧ 8 ≤ bufUsed s.blk 3 0 ∧ bufOk s.blk 3 0 = true ∧
      8 + 8 * (field (leNat (bufRead s.blk s.mem 3 0 0 8).1) 16 12 + 1) ≤ bufUsed s.blk 3 0) ∧
    (let s := free3 [(F.LNK_PCFG_RXPARAM_EN, 1, 3, 0)]; s.blk.lnkState 3 = 4 ∧ s.blk.on F.LNK_PCFG_RXPARAM_EN 3 = true ∧
      255 % 256 = 255 ∧ (List.replicate 16 (1 : Byte)).length / 8 = 2) ∧
    (let s := free3 [(F.HIF_DPART_SIZE, 0, 0, 0)]; s.blk.lnkState 3 = 4 ∧ s.blk.on F.LNK_PCFG_RXPARAM_EN 3 = false ∧
      bufOk s.blk 3 1 = false) ∧
    (let s := free3 [(F.LNK_FPTR_PROD, 4096, 3, 1)]; s.blk.lnkState 3 = 4 ∧ bufOk s.blk 3 1 = true ∧
      bufSize s.blk 3 1 < bufUsed s.blk 3 1 + 8 + 8 * 1) ∧
    (let s := free3 [(F.LNK_FPTR_PROD, 4080, 3, 1)]; s.blk.lnkState 3 = 4 ∧ bufOk s.blk 3 1 = true ∧
      bufUsed s.blk 3 1 + 8 + 8 * 1 ≤ bufSize s.blk 3 1 ∧ s.mem.poison = [] ∧
      s.blk.rd F.LNK_FPTR_PROD 3 1 % bufSize s.blk 3 1 + 8 + 8 * 1 ≤ bufSize s.blk 3 1) ∧
    (let s := free3 [(F.LNK_PCFG_RXPARAM_EN, 1, 3, 0)]; (paramTarget s.blk 0 (4 % 2 ^ 24)).isNone = true ∧
      (paramTarget s.blk 0 196864).isSome = true ∧ ∀ t < 3, (s.blk.queueOf t).length + 8 ≤ dlCap t) := by
  and_intros <;> decide +kernel

/-- A block of a kind with an origin. -/
def lblk (kind rest : Nat) : Nat := kind * 2 ^ 60 + rest

theorem wit_LinkBlocksAreSentAndTaken :
    (field (lblk 7 0) 60 4 = 7) ∧
    (let s := ls 3 3 id []; s.blk.lnkState 3 = 3 ∧ (s.blk.link 3).tallyQ = [] ∧ 0 < binLen s.blk 0) ∧
    (State.reset.blk.lnkState 3 ≠ 3) ∧
    (let s := ls 3 3 id [(F.LNK_PEERS_PEERS, 2 ^ 63, 0, 0)];
      s.blk.lnkState 3 = 3 ∧ field (lblk 2 (63 * 2 ^ 54)) 60 4 = 2 ∧ field (lblk 2 (63 * 2 ^ 54)) 54 6 = 63 ∧
        bit (s.blk.rd F.LNK_PEERS_PEERS) 63 = true ∧ bit (s.blk.rd F.LNK_PEERS_PEERS) 62 = false) ∧
    (field (lblk 3 0) 60 4 ≠ 2 ∧ field (lblk 3 0) 60 4 < 7) ∧
    (∀ x ∈ [2, 3], (ls 3 x id []).blk.lnkState 3 = x) ∧
    (let w := lblk 3 (0xFF * 2 ^ 48); field w 60 4 = 3 ∧ field w 48 8 = 255 % 256 ∧ field w 48 8 ≠ 254 % 256) ∧
    (let s := ls 3 2 id []; s.blk.lnkState 3 = 2 ∧ field (lblk 6 0) 60 4 = 6 ∧ field (lblk 6 0) 58 2 = 0 ∧
      field (lblk 6 (2 ^ 58)) 58 2 = 1) ∧
    (let s := ls 3 2 (fun x => { x with seq := 1, t1 := some 100, ans := some (110, 130) }) [];
      let w := lblk 6 (2 * 2 ^ 58 + 2 ^ 32 + 10);
      s.blk.lnkState 3 = 2 ∧ field w 58 2 = 2 ∧ field w 32 16 = (s.blk.link 3).seq ∧ (s.blk.link 3).t1 = some 100 ∧
        (s.blk.link 3).ans = some (110, 130) ∧ 0 ≤ xchDelay 100 130 (field w 0 32)) ∧
    (let s := ls 3 2 id []; field (lblk 6 (2 * 2 ^ 58 + 2 ^ 32)) 32 16 ≠ (s.blk.link 3).seq) ∧
    (State.reset.blk.link 3).t1 = none ∧
    (∀ x ∈ [2, 3], let s := ls 3 x (fun x => { x with t1 := some 0 }) []; (s.blk.link 3).t1 ≠ none ∧ s.blk.lnkState 3 = x) := by
  and_intros <;> decide +kernel
/-! ### The NET port -/

/-- The NET port is up, with one transmit and one receive descriptor at scratch offsets 0 and 0x400: buffer 0x1000,
length `len`, flags `fl`. -/
def netS (len fl : Nat) (f : NetSt → NetSt) (l : List (Fld × Nat × Nat × Nat)) : State :=
  let d := leBytes 4 0x1000 ++ leBytes 2 len ++ leBytes 1 fl
  let b := sets ([(F.NET_CFG_EN, 1, 0, 0), (F.NET_STAT_LINK, 1, 0, 0), (F.NET_TXQ_EN, 1, 0, 0), (F.NET_RXQ_EN, 1, 0, 0),
    (F.NET_RXQ_BASE, 0x400, 0, 0)] ++ l) Blk.reset
  { State.reset with
    blk := { b with ddr := { b.ddr with sram := false }, net := f b.net }
    mem := (State.reset.mem.put scratchBase d).put (scratchBase + 0x400) d }

/-- Both rings would be walked. -/
def netOn (s : State) : Bool :=
  s.blk.on F.NET_CFG_EN && s.blk.on F.NET_STAT_LINK && s.blk.on F.NET_TXQ_EN && s.blk.on F.NET_RXQ_EN &&
    !s.blk.net.tx.stopped && !s.blk.net.rx.stopped && inSpart0 s.blk (txDesc s.blk) 32 && inSpart0 s.blk (rxDesc s.blk) 32

theorem wit_NetworkPortAndClock :
    (State.reset.blk.on F.NET_STAT_LINK = false) ∧ (State.reset.blk.on F.NET_CFG_EN = false) ∧
    (let s := netS 64 1 id [(F.NET_RXQ_EN, 0, 0, 0), (F.NET_TXQ_EN, 0, 0, 0)];
      s.blk.on F.NET_CFG_EN = true ∧ s.blk.on F.NET_STAT_LINK = true ∧ s.blk.on F.NET_RXQ_EN = false ∧ s.blk.on F.NET_TXQ_EN = false) ∧
    (let s := netS 64 0 id []; netOn s = true ∧ bit (scratchLe s.blk s.mem (rxDesc s.blk + 6) 1) 0 = false ∧
      bit (scratchLe s.blk s.mem (txDesc s.blk + 6) 1) 0 = false) ∧
    (let s := netS 63 1 id []; netOn s = true ∧ bit (scratchLe s.blk s.mem (rxDesc s.blk + 6) 1) 0 = true ∧
      ¬ (64 ≤ scratchLe s.blk s.mem (rxDesc s.blk + 4) 2) ∧ ¬ (64 ≤ scratchLe s.blk s.mem (txDesc s.blk + 4) 2) ∧
      bit (scratchLe s.blk s.mem (txDesc s.blk + 6) 1) 0 = true ∧ s.mem.poison = []) ∧
    (let s := netS 64 3 id []; let buf := scratchLe s.blk s.mem (rxDesc s.blk) 4;
      netOn s = true ∧ bit (scratchLe s.blk s.mem (rxDesc s.blk + 6) 1) 0 = true ∧
      scratchLe s.blk s.mem (rxDesc s.blk + 4) 2 = 64 ∧ inSpart0 s.blk buf 64 = true ∧ s.mem.poison = [] ∧ buf = 0x1000) ∧
    (let s := netS 9216 3 id []; netOn s = true ∧ bit (scratchLe s.blk s.mem (txDesc s.blk + 6) 1) 0 = true ∧
      scratchLe s.blk s.mem (txDesc s.blk + 4) 2 = 9216 ∧ inSpart0 s.blk 0x1000 9216 = true ∧
      bit (scratchLe s.blk s.mem (txDesc s.blk + 6) 1) 1 = true ∧ s.blk.net.stamps.length < 16) ∧
    (let s := netS 64 3 (fun n => { n with stamps := List.replicate 16 ⟨0, 0, 0⟩ }) []; netOn s = true ∧ 16 ≤ s.blk.net.stamps.length) ∧
    ((rw_ [(F.NET_PTP_NS_NS, 999999999, 0, 0)]).blk.rd F.NET_PTP_NS_NS < 10 ^ 9 ∧
      10 ^ 9 ≤ (rw_ [(F.NET_PTP_NS_NS, 10 ^ 9, 0, 0)]).blk.rd F.NET_PTP_NS_NS) ∧
    (0x03FF7CED90 % 2 ^ 40 < 0x03FF7CED91 ∧ 0x040083126F < 0x0400831270 % 2 ^ 40 ∧ 0x03FF7CED91 ≤ 0x03FF7CED91 % 2 ^ 40 ∧
      0x040083126F % 2 ^ 40 ≤ 0x040083126F) ∧
    (let s := rw_ [(F.NET_STAT_UNSET, 0, 0, 0), (F.NET_PTP_CTRL_JUMP_THR, 1000, 0, 0)];
      s.blk.on F.NET_STAT_UNSET = false ∧ (toS 64 (2 ^ 64 - 1000)).natAbs ≤ s.blk.rd F.NET_PTP_CTRL_JUMP_THR ∧
        ¬ ((toS 64 (2 ^ 64 - 1001)).natAbs ≤ s.blk.rd F.NET_PTP_CTRL_JUMP_THR)) ∧
    (State.reset.blk.on F.NET_STAT_UNSET = true) ∧
    ((netS 64 1 (fun n => { n with held := some 5 }) []).blk.net.held = some 5 ∧ State.reset.blk.net.held = none) ∧
    (let s := netS 64 1 (fun n => { n with pair := true }) []; pairTick s.blk = true ∧ s.blk.net.pair = true) ∧
    (State.reset.blk.net.pair = false ∧ State.reset.blk.net.auto = false) := by
  and_intros <;> decide +kernel
/-! ### Self-calibration -/

/-- Region 7 in a phase, its time over at tick `t`. -/
def rs7 (ph t : Nat) (f : RotSt → RotSt) (l : List (Fld × Nat × Nat × Nat)) : State :=
  rs (fun b => let b := sets ((F.CAL_ROT_PHASE, ph, 7, 0) :: l) b
               let b := b.setRot 7 (f { b.rot 7 with due := t, left := none })
               { b with elapsed := 100, now := 100 })

/-- Its port in cycle waits at a silent granule with its sequencer long idle. -/
def handS (ph : Nat) : State := rs7 ph 800000000 (fun x => { x with silent := true, idle := some 0 }) []

/-- Its port plays a segment committed after the wait's second was up. -/
def forceS (ph : Nat) : State :=
  let s := rs7 ph 80 id []
  let q := portSeq (rotPort s.blk 7)
  { s with blk := s.blk.setSeq q { s.blk.seq q with line := [{ cent .seg none true with start := 100 }] } }

/-- An acquisition port's calibration enabled, in a crevasse or not. -/
def acal (cr : Option (Option Nat)) (f : AdcCal → AdcCal) (l : List (Fld × Nat × Nat × Nat)) : State :=
  rs (fun b => let b := sets ([(F.CAL_ACTL_EN, 1, 15, 0), (F.CAL_CTRL_ADC_EN, 1, 0, 0)] ++ l) b
               (b.setAcq 15 { b.acq 15 with crev := cr }).setAdcCal 15 (f (b.adcCal 15)))

/-- A modulator's calibration. -/
def fcal (f : FmodCal → FmodCal) : State :=
  rs (fun b => let b := sets [(F.CAL_CTRL_FMOD_EN, 1, 0, 0)] b; { b.setFmodCal 1 (f (b.fmodCal 1)) with elapsed := 100, now := 100 })

theorem wit_CalibrationRunsInItsPhases :
    (cycleDue (rw_ [(F.CAL_CTRL_DAC_EN, 1, 0, 0)]).blk 7 = true ∧ cycleDue (rs7 1 0 id []).blk 7 = false) ∧
    (phaseOver (rs7 6 100 id []).blk 7 6 = true ∧ phaseOver (rs7 6 101 id []).blk 7 6 = false) ∧
    (phaseOver (rs7 1 100 id []).blk 7 1 = true ∧ phaseOver (rs7 4 100 id []).blk 7 4 = true ∧
      phaseOver (rs7 2 100 id []).blk 7 1 = false ∧ phaseOver (rs7 2 100 id []).blk 7 4 = false) ∧
    (phaseOver (rs7 3 100 id []).blk 7 3 = true ∧ phaseOver (rs7 3 101 id []).blk 7 3 = false) ∧
    (Machine.waiting (rs7 3 100 id []).blk 7 = false) ∧
    (Machine.waiting (handS 2).blk 7 = true ∧ handoverInstant (handS 2).blk 7 = true ∧ (handS 2).blk.phase 7 = 2) ∧
    (Machine.waiting (handS 5).blk 7 = true ∧ handoverInstant (handS 5).blk 7 = true ∧ (handS 5).blk.phase 7 = 5) ∧
    (forcedInstant (handS 5).blk 7 = false) ∧
    (∀ ph ∈ [2, 5], Machine.waiting (forceS ph).blk 7 = true ∧ forcedInstant (forceS ph).blk 7 = true ∧ (forceS ph).blk.phase 7 = ph) ∧
    (adcEnabled (rw_ [(F.CAL_ACTL_EN, 0, 15, 0)]).blk 15 = false) ∧
    (let s := acal (some (some 1360)) id []; (s.blk.adcCal 15).stop = none ∧ adcEnabled s.blk 15 = true ∧ s.blk.now % 4 = 0 ∧
      crevStep s.blk 15 = true) ∧
    (let s := acal (some (some 1359)) (fun a => { a with starved := true }) [(F.CAL_ACTL_FORCE_EN, 1, 15, 0)];
      (s.blk.adcCal 15).stop = none ∧ adcEnabled s.blk 15 = true ∧ s.blk.now % 4 = 0 ∧ crevStep s.blk 15 = false ∧
      forceStep s.blk 15 = true) ∧
    (let s := acal none id []; (s.blk.adcCal 15).stop = none ∧ adcEnabled s.blk 15 = true ∧ crevStep s.blk 15 = false ∧
      forceStep s.blk 15 = false) ∧
    (32 ≤ (rw_ [(F.CAL_ACTL_STEPS, 32, 15, 0)]).blk.rd F.CAL_ACTL_STEPS 15 ∧
      (rw_ [(F.CAL_ACTL_STEPS, 31, 15, 0)]).blk.rd F.CAL_ACTL_STEPS 15 < 32) ∧
    (let s := rs (fun b => { b with elapsed := aperTicks b }); (s.blk.adcCal 15).starved = false ∧
      (s.blk.adcCal 15).since + aperTicks s.blk ≤ s.blk.elapsed) ∧
    (State.reset.blk.elapsed < (State.reset.blk.adcCal 15).since + aperTicks State.reset.blk) ∧
    (let s := rs (fun b => { b with elapsed := fperTicks b }); (s.blk.fmodCal 1).starved = false ∧
      (s.blk.fmodCal 1).since + fperTicks s.blk ≤ s.blk.elapsed) ∧
    (State.reset.blk.elapsed < (State.reset.blk.fmodCal 1).since + fperTicks State.reset.blk) ∧
    (let s := fcal (fun x => { x with stop := none }); (s.blk.fmodCal 1).stop = none ∧ s.blk.frn.cur.find 1 = none ∧
      s.blk.on F.CAL_CTRL_FMOD_EN = true) ∧
    ((fcal (fun x => { x with stop := some 101 })).blk.elapsed < 101 ∧ 100 ≤ (fcal (fun x => { x with stop := some 100 })).blk.elapsed ∧
      ((fcal (fun x => { x with stop := some 100 })).blk.fmodCal 1).stop = some 100) ∧
    (let s := rw_ [(F.CAL_CTRL_BIAS_EN, 1, 0, 0), (F.CAL_BIAS_AUTO, 2 ^ 63, 0, 0), (F.BIA_STAT_STATE, 2, 63, 0)];
      s.blk.on F.CAL_CTRL_BIAS_EN = true ∧ bit (s.blk.rd F.CAL_BIAS_AUTO) 63 = true ∧ s.blk.rd F.BIA_STAT_STATE 63 = 2 ∧
      s.blk.rdS F.BIA_ACT_TRIM_ACT 63 + rndShift (32767 * 256) 8 = 32767) ∧
    ((rw_ [(F.CAL_CTRL_BIAS_EN, 0, 0, 0)]).blk.on F.CAL_CTRL_BIAS_EN = false ∧
      State.reset.blk.frn.cur.find 1 ≠ some (runTrim, false)) := by
  and_intros <;> decide +kernel
/-! ### Faults and recovery -/

/-- A region's recovery state. -/
def rv (r : Nat) (f : RegRcv → RegRcv) (l : List (Fld × Nat × Nat × Nat)) : State :=
  rs (fun b => let b := sets l b; { b.setRegRcv r (f (b.regRcv r)) with elapsed := 18000, now := 18000 })

theorem wit_FaultsAreContainedAndRecovered :
    ((0 : Nat) = 0 ∧ 14 < 15) ∧
    (∀ c ∈ [1, 3, 4, 6, 7, 8, 12, 13, 14], 1 ≤ c ∧ c ≤ 14) ∧
    (faultRegions 3 7 = [7] ∧ regionHeld State.reset.blk 7 = false ∧ (State.reset.blk.regRcv 7).never = false ∧
      (State.reset.blk.regRcv 7).unlocked = false ∧ State.reset.blk.pwr.off = false) ∧
    (let s := rv 7 (fun x => { x with unlocked := true }) []; (s.blk.regRcv 7).unlocked = true ∧
      (s.blk.regRcv 7).failed = false ∧ (s.blk.regRcv 7).never = false ∧ 7 / 4 = 1) ∧
    (∀ g ∈ tileRegions 1, (State.reset.blk.regRcv g).unlocked = false) ∧
    (let s := rs (fun b => { b.setRegRcv 7 { b.regRcv 7 with unlocked := true, times := [1] } with elapsed := 4000001 });
      (s.blk.regRcv 7).unlocked = true ∧ (s.blk.regRcv 7).failed = false ∧ (s.blk.regRcv 7).times = 1 :: [] ∧
        1 + 4000000 ≤ s.blk.elapsed) ∧
    ((State.reset.blk.regRcv 7).start = none) ∧
    (let s := rv 7 (fun x => { x with start := some 0 }) [];
      (s.blk.regRcv 7).start = some 0 ∧ 0 + 18000 ≤ s.blk.elapsed ∧ (s.blk.regRcv 7).force = false ∧
        s.blk.on F.RCV_RCTL_HOLD 7 = false ∧ persists s.blk 7 = false) ∧
    (let s := rv 7 (fun x => { x with start := some 0 }) [(F.RCV_RCTL_HOLD, 1, 7, 0)]; s.blk.on F.RCV_RCTL_HOLD 7 = true) ∧
    (let s := rv 7 (fun x => { x with start := some 0, times := List.replicate 16 0 }) []; persists s.blk 7 = true) ∧
    ((State.reset.blk.regRcv 7).go = false) ∧
    (let s := rv 7 (fun x => { x with go := true, held := [.presetCheck] }) []; (s.blk.regRcv 7).go = true ∧
      (s.blk.regRcv 7).never = false ∧ s.blk.now % 4 = 0) ∧
    (let s := rs (fun b => (sets [(F.RCV_RESUME_VALID, 1, 0, 0), (F.SEQ_CTRL_EN, 1, 0, 0), (F.SEQ_STATUS_STATE, 1, 0, 0)] b).setSeq 0
        { b.seq 0 with resume := some (5, [], []) });
      s.blk.rd F.RCV_RSTAT_STATE 0 = 0 ∧ 0 ∈ regionSeqs 0 ∧ (s.blk.seq 0).resume = some (5, [], []) ∧
        s.blk.on F.RCV_RESUME_VALID 0 = true ∧ s.blk.actOn F.SEQ_CTRL_EN 0 = true ∧ s.blk.seqState 0 = 1 ∧
        (s.blk.seq 0).pendStart = none ∧ (s.blk.seq 0).stopAt = none) ∧
    ((rv 7 id [(F.RCV_RSTAT_STATE, 3, 7, 0)]).blk.rd F.RCV_RSTAT_STATE 7 ≠ 0) ∧
    (let s := rv 7 (fun x => { x with failed := true }) [(F.RCV_RSTAT_STATE, 3, 7, 0)]; s.blk.rd F.RCV_RSTAT_STATE 7 = 3 ∧
      (s.blk.regRcv 7).never = false ∧ (s.blk.regRcv 7).unlocked = false ∧ (s.blk.regRcv 7).failed = true ∧ (s.blk.regRcv 7).done = false) ∧
    (let s := rv 7 id [(F.RCV_RSTAT_STATE, 3, 7, 0)]; s.blk.rd F.RCV_RSTAT_STATE 7 = 3 ∧ (s.blk.regRcv 7).failed = false) ∧
    (State.reset.blk.rd F.RCV_RSTAT_STATE 7 ≠ 3) ∧
    (State.reset.blk.rcv.isl.find (8 * 11 + 3) = none) ∧
    (let s := rs (fun b => { b with rcv := { b.rcv with isl := [(8 * 11 + 3, 18000)] }, elapsed := 18000 });
      s.blk.rcv.isl.find (8 * 11 + 3) = some 18000 ∧ 18000 ≤ s.blk.elapsed ∧
        s.blk.rcv.isl.all (fun e => e.1 / 8 != 11 || e.1 == 8 * 11 + 3) = true) ∧
    ((rs (fun b => { b with pwr := { b.pwr with safe := true } })).blk.pwr.safe = true) ∧
    (State.reset.blk.pwr.safe = false ∧ State.reset.blk.pwr.off = false) := by
  and_intros <;> decide +kernel
/-! ### Supply, resets, power states -/

/-- The power state changed. -/
def ps (f : PwrSt → PwrSt) (l : List (Fld × Nat × Nat × Nat)) : State :=
  rs (fun b => let b := sets l b; { b with pwr := f b.pwr })

/-- Held in reset with the supply good. -/
def offS (l : List (Fld × Nat × Nat × Nat)) : State := ps (fun p => { p with off := true, vin := 0 }) l

theorem wit_SupplyAndResets :
    ((ps (fun p => { p with vin := 2 }) []).blk.pwr.vin = 2 ∧ State.reset.blk.pwr.vin ≠ 2) ∧
    (State.reset.blk.pwr.off = false) ∧
    (let s := offS [(F.GLB_LC_SWEEP_PEND, 1, 0, 0)]; s.blk.pwr.off = true ∧ s.blk.pwr.vin = 0 ∧
      s.blk.on F.FRN_THERM_SHDN = false ∧ s.blk.rd F.GLB_PWR_STATE = 0 ∧ s.blk.on F.GLB_LC_SWEEP_PEND = true) ∧
    (let s := offS []; s.blk.pwr.off = true ∧ s.blk.pwr.vin = 0 ∧
      s.blk.on F.FRN_THERM_SHDN = false ∧ s.blk.rd F.GLB_PWR_STATE = 0 ∧ s.blk.on F.GLB_LC_SWEEP_PEND = false) ∧
    ((rw_ [(F.GLB_BRST_BUSY, 1, 0, 0)]).blk.on F.GLB_BRST_BUSY = true ∧ State.reset.blk.on F.GLB_BRST_BUSY = false) ∧
    (State.reset.blk.regionIdle 7 = true ∧ (rw_ [(F.SEQ_STATUS_STATE, 2, portSeq 31, 0)]).blk.regionIdle (portRegion 31) = false) ∧
    (State.reset.blk.pwr.brst = none) ∧
    (let s := rs (fun b => { (b.setPort 31 { b.port 31 with mute := some .brst }) with pwr := { b.pwr with brst := some (0, 31) } });
      s.blk.pwr.brst = some (0, 31) ∧ (s.blk.port 31).mute = some .brst ∧ regionHeld s.blk (portRegion 31) = false) ∧
    (let s := rs (fun b => { ((sets [(F.RCV_RSTAT_STATE, 1, portRegion 31, 0)] b).setPort 31 { b.port 31 with mute := some .brst })
        with pwr := { b.pwr with brst := some (0, 31) } });
      (s.blk.port 31).mute = some .brst ∧ regionHeld s.blk (portRegion 31) = true) := by
  and_intros <;> decide +kernel

/-- Quiet: nothing runs and no sweep. -/
def quietS (st : Nat) : State :=
  rs (fun b => let b := sets [(F.GLB_PWR_STATE, st, 0, 0)] b; { b with ddr := { b.ddr with sram := false } })

theorem wit_PowerStatesAndLifeCycle :
    (∀ x < 3, (rw_ [(F.GLB_PWR_STATE, x, 0, 0)]).blk.rd F.GLB_PWR_STATE = x) ∧
    (let s := rw_ [(F.SEQ_STATUS_STATE, 2, 0, 0)]; s.blk.rd F.GLB_PWR_STATE = 0 ∧ quiet s.blk = false) ∧
    (∀ x ∈ [0, 1], (quietS x).blk.rd F.GLB_PWR_STATE = x ∧ quiet (quietS x).blk = true) ∧
    (hibReady State.reset.blk = false) ∧
    (let s := ps (fun p => { p with hib := some 0 }) [(F.GLB_PWR_STATE, 2, 0, 0)]; s.blk.rd F.GLB_PWR_STATE = 2 ∧
      s.blk.pwr.off = false ∧ hibReady s.blk = true) ∧
    (let s := ps (fun p => { p with off := true, retain := [(F.GOV_STATUS_LOCKED.key 0 0, 1)] }) [(F.GLB_PWR_STATE, 2, 0, 0)];
      s.blk.rd F.GLB_PWR_STATE = 2 ∧ s.blk.pwr.off = true ∧ retained (F.GOV_STATUS_LOCKED.key 0 0) = true ∧
        s.blk.regs.find (F.GOV_STATUS_LOCKED.key 0 0) = none ∧
        s.blk.pwr.retain.find (F.GOV_STATUS_LOCKED.key 0 0) = some 1) ∧
    (lcCauses State.reset.blk 1 0xC5 = [] ∧ lcCauses State.reset.blk 2 0xC5 = [1] ∧
      lcCauses (rw_ [(F.GLB_LC_STATE, 2, 0, 0)]).blk 3 0 = [3, 4]) ∧
    (State.reset.blk.on F.GLB_LC_SWEEP_PEND = false ∧ (rw_ [(F.GLB_LC_SWEEP_PEND, 1, 0, 0)]).blk.on F.GLB_LC_SWEEP_PEND = true) := by
  and_intros <;> decide +kernel
/-! ### The whole -/

theorem wit_StepTakesTheFront :
    ((⟨Blk.reset, State.reset.mem, [.presetCheck, .pair]⟩ : State).pending = .presetCheck :: [.pair]) ∧
    (State.reset.pending = []) ∧ (dueNow State.reset.blk ≠ []) ∧
    (let b := { Blk.reset with agenda := [], tickStage := stages.length }; dueNow b = [] ∧ stages.length ≤ b.tickStage) := by
  and_intros <;> decide +kernel

theorem wit_EveryStepKeepsTheStoresFormed :
    Inv { State.reset with pending := [.pair] } ∧
      ∃ t, step { State.reset with pending := [.pair] } = .next t ∧ t.blk.net.pair = true :=
  ⟨by unfold Machine.Inv; decide +kernel, _, rfl, rfl⟩
/-! ### The spec's own numbers -/

/-- The worked examples under R282. -/
theorem test_cmul_example : cProd false 0x20004000 0xC0004000 = (402653184, -134217728) := by decide

theorem test_sacc16_example :
    ofS 16 (satS 16 (rndShift (-134217728) 15)) * 65536 + ofS 16 (satS 16 (rndShift 402653184 15)) = 0xF0003000 ∧
      rndShift 49152 15 = 2 ∧ rndShift (-49152) 15 = -1 ∧ satS 16 (rndShift (2 ^ 32) 15) = 32767 := by decide

theorem test_sacc32r_example : satS 32 (rnd32 (2 ^ 32) 0) = 0x7FFFFFFF ∧ satS 32 (rnd32 (2 ^ 32) 2) = 0x40000000 := by decide

/-- The example under R511. -/
theorem test_exchange_example :
    xchOfs 1600003 2200411 1601331 (2201051 - 2200411) = 600064 ∧ xchDelay 1600003 1601331 (2201051 - 2200411) = 344 := by
  decide

theorem test_exchange_answer :
    (match exec (.exchangeAnswerReceive 3 0 (6 * 2 ^ 60 + 2 * 2 ^ 58 + 2 ^ 32 + 640) true 0)
        (ls 3 2 (fun x => { x with seq := 1, t1 := some 1600003, ans := some (2200411, 1601331) }) []) with
     | .next t => t.blk.rdS F.LNK_XCH_OFS 3 == 600064 && t.blk.rd F.LNK_XCH_DELAY 3 == 344 && ltMin t.blk 3 == 24
     | _ => false) = true := by decide +kernel

/-- Module B of the alignment example: an edge 6/16 of a tick after 77,718 with COMP 176 has MARGIN 54 and the load
comes at 77,728. -/
theorem test_msync_example :
    (match exec (.msyncEdge 6 16) (rs (fun b => { sets [(F.TIM_MSYNC_CTRL_ARM, 1, 0, 0), (F.TIM_MSYNC_CTRL_COMP, 176, 0, 0)] b with
        now := 77718 })) with
     | .next t => t.blk.rd F.TIM_MSYNC_CAPI_MARGIN == 54 && t.blk.tim.loadAt == some 77728
     | _ => false) = true := by decide +kernel

/-- Module A of it. -/
theorem test_msync_example_a :
    (match exec (.msyncEdge 6 16) (rs (fun b => { sets [(F.TIM_MSYNC_CTRL_ARM, 1, 0, 0)] b with now := 40203 })) with
     | .next t => t.blk.rd F.TIM_MSYNC_CAPI_MARGIN == 54 && t.blk.tim.loadAt == some 40224
     | _ => false) = true := by decide +kernel

/-- The pattern of the example under R413. -/
theorem test_pattern_example :
    let b := (rw_ [(F.TRG_PAT_BITS, 0x333300, 9, 0)]).blk
    patTick b 9 1 = (false, 0) ∧ patTick b 9 2 = (true, 1) ∧ patTick b 9 5 = (true, 1) ∧ patTick b 9 6 = (false, 0) := by
  decide +kernel

/-- The generation word and the phase of R457. -/
theorem test_ring_marks : generation 0 = 1 ∧ generation (2 ^ 32 - 1) = 1 ∧ phaseBit 0 16 = 1 ∧ phaseBit 16 16 = 0 ∧
    phaseBit 32 16 = 1 := by decide

/-- R113: silent at 0, half at 400, full at 800; R85: the quarter sine ends at 131,071. -/
theorem test_mute_gain : muteGain 0 = 0 ∧ muteGain 400 = 2 ^ 59 ∧ muteGain 800 = 2 ^ 60 := by decide +kernel
theorem test_sine_ends : sinTab 0 = 0 ∧ sinTab 4096 = 131071 := by decide +kernel

/-- R583: an attempt whose CONFIRM is wrong is refused and changes no state. -/
theorem test_lc_confirm :
    (match exec (.lcTransition 1 0xC4) State.reset with
     | .next t => t.blk.rd F.GLB_LC_REFUSED == 1 && t.blk.rd F.GLB_LC_STATE == 0
     | _ => false) = true := by decide +kernel

end Sys2Proof.Tests
end

section
/-!
PROOFS. O1: APPLY of a channel map, its check, and the map that comes in force (R28 to R30, R34, R35).
-/

namespace Sys2Proof.Machine

/-! ### Commands on the block, and frames -/

/-- A command whose meaning lies in the block alone completes with what that meaning makes of the block. -/
theorem Completes.of_onBlk {c : Instr} {s : State} {f : Mem → Blk → Blk} {P : Blk → Prop}
    (hexec : exec c s = onBlk f s) (hP : P (f s.mem s.blk)) : Completes c s P :=
  ⟨_, hexec.trans (onBlk_eq f s), rfl, rfl, hP⟩

theorem Keeps.rd {ks : List Key} {a b : Blk} (h : Keeps ks a b) (f : Fld) (i j : Nat) (hk : f.key i j ∉ ks) :
    b.rd f i j = a.rd f i j :=
  congrArg (· % 2 ^ f.wid) (h _ hk).1

theorem OnlyRegs.refl (ks : List Key) (b : Blk) : OnlyRegs ks b b := ⟨Keeps.refl ks b, rfl⟩

theorem OnlyRegs.wr {ks : List Key} {a b : Blk} (h : OnlyRegs ks a b) (f : Fld) (v i j : Nat)
    (hk : f.key i j ∈ ks) : OnlyRegs ks a (b.wr f v i j) :=
  ⟨h.1.wr f v i j hk, h.2⟩

theorem OnlyRegs.sched {ks : List Key} {a b : Blk} (h : OnlyRegs ks a b) (dt : Nat) (c : Instr) :
    OnlyRegs ks a (b.sched dt c) :=
  ⟨h.1.of_eq rfl rfl rfl, h.2⟩

theorem Follows.of_sched (b : Blk) (dt : Nat) (c : Instr) : Follows (b.sched dt c) dt c := by
  simp [Follows]

theorem Blk.rd_wr_of_reg_ne (b : Blk) (f g : Fld) (v i j i' j' : Nat) (h : f.reg ≠ g.reg) :
    (b.wr f v i j).rd g i' j' = b.rd g i' j' :=
  Blk.rd_wr_ne b f g v i j i' j' fun he => h (congrArg Key.reg he)

theorem Blk.rd_bump_self (b : Blk) (f : Fld) (i j : Nat) :
    (b.bump f i j).rd f i j = (b.rd f i j + 1) % 2 ^ f.wid :=
  Blk.rd_wr_self b f _ i j

theorem Blk.rd_bump_ne (b : Blk) (f g : Fld) (i j i' j' : Nat) (h : f.key i j ≠ g.key i' j') :
    (b.bump f i j).rd g i' j' = b.rd g i' j' :=
  Blk.rd_wr_ne b f g _ i j i' j' h

/-! ### APPLY (R29) -/

/-- Idleness is read off the sequencers' states alone. -/
theorem Blk.regionIdle_wr (b : Blk) (f : Fld) (v i j r : Nat) (h : f.reg ≠ .seqStatus) :
    (b.wr f v i j).regionIdle r = b.regionIdle r := by
  have hstate : ∀ q, (b.wr f v i j).seqState q = b.seqState q := fun q =>
    Blk.rd_wr_of_reg_ne b f F.SEQ_STATUS_STATE v i j q 0 h
  simp only [Blk.regionIdle, hstate]

theorem chmapApply_of_idle {r : Nat} {b : Blk} (hbusy : chmapBusy b r = false) (hidle : b.regionIdle r = true) :
    chmapApply r b = ((b.wr F.GLB_CHMAP_CTRL_DUP_ENTRY 0 r).wr F.GLB_CHMAP_CTRL_STATUS 1 r).sched 51
      (.chmapCheckDone (Fin.ofNat 8 r)) := by
  simp [chmapApply, hbusy, Blk.regionIdle_wr, hidle]

theorem chmapApply_of_not_idle {r : Nat} {b : Blk} (hbusy : chmapBusy b r = false)
    (hidle : b.regionIdle r = false) :
    chmapApply r b = (b.wr F.GLB_CHMAP_CTRL_DUP_ENTRY 0 r).wr F.GLB_CHMAP_CTRL_STATUS 4 r := by
  simp [chmapApply, hbusy, Blk.regionIdle_wr, hidle]

/-- What an APPLY writes: DUP_ENTRY 0 and the STATUS it answers, and no other register. -/
theorem onlyRegs_applyAnswer (b : Blk) (r st : Nat) :
    OnlyRegs [F.GLB_CHMAP_CTRL_STATUS.key r 0, F.GLB_CHMAP_CTRL_DUP_ENTRY.key r 0] b
      ((b.wr F.GLB_CHMAP_CTRL_DUP_ENTRY 0 r).wr F.GLB_CHMAP_CTRL_STATUS st r) :=
  ((OnlyRegs.refl _ b).wr F.GLB_CHMAP_CTRL_DUP_ENTRY 0 r 0 (by simp)).wr F.GLB_CHMAP_CTRL_STATUS st r 0 (by simp)

/-! ### A held EN is let go (R29) -/

/-- Letting a held EN go only adds commands that are to follow: no register changes. -/
theorem Keeps.releaseEn {ks : List Key} {a b : Blk} (h : Keeps ks a b) (r : Nat) :
    Keeps ks a (releaseEn b r) := by
  refine List.foldlRecOn (regionSeqs r) _ (motive := Keeps ks a) h fun b' ih q _ => ?_
  split
  · exact ih.of_eq rfl rfl rfl
  · exact ih

@[simp] theorem rd_releaseEn (b : Blk) (r : Nat) (f : Fld) (i j : Nat) :
    (releaseEn b r).rd f i j = b.rd f i j :=
  ((Keeps.refl [] b).releaseEn r).rd f i j (by simp)

/-! ### The check finds a repeated index (R28, R35) -/

theorem chmapDup_lt {b : Blk} {f : Fld} {r i : Nat} (h : chmapDup b f r = some i) : i < 64 :=
  List.mem_range.mp (List.mem_of_find?_eq_some h)

/-- The block after a check that refuses a map with STATUS `st`, for a repeat at entry `i`. -/
def chmapRefused (b : Blk) (r st i : Nat) : Blk :=
  releaseEn ((b.wr F.GLB_CHMAP_CTRL_STATUS st r).wr F.GLB_CHMAP_CTRL_DUP_ENTRY i r) r

theorem chmapCheckDone_of_drvDup {r i : Nat} {b : Blk} (hbusy : chmapBusy b r = true)
    (hdrv : chmapDup b F.GLB_CHMAP_STAGE_DRV_IDX r = some i) : chmapCheckDone r b = chmapRefused b r 2 i := by
  simp [chmapCheckDone, hbusy, hdrv, chmapRefused]

theorem chmapCheckDone_of_rdDup {r i : Nat} {b : Blk} (hbusy : chmapBusy b r = true)
    (hdrv : chmapDup b F.GLB_CHMAP_STAGE_DRV_IDX r = none)
    (hrd : chmapDup b F.GLB_CHMAP_STAGE_RD_IDX r = some i) : chmapCheckDone r b = chmapRefused b r 3 i := by
  simp [chmapCheckDone, hbusy, hdrv, hrd, chmapRefused]

/-- A refusal shows its STATUS and the entry that repeats, and leaves every other register: the map in force
among them. -/
theorem chmapRefused_spec (b : Blk) {r st i : Nat} (hst : st < 16) (hi : i < 64) :
    (chmapRefused b r st i).rd F.GLB_CHMAP_CTRL_STATUS r = st ∧
      (chmapRefused b r st i).rd F.GLB_CHMAP_CTRL_DUP_ENTRY r = i ∧
      Keeps [F.GLB_CHMAP_CTRL_STATUS.key r 0, F.GLB_CHMAP_CTRL_DUP_ENTRY.key r 0] b (chmapRefused b r st i) := by
  refine ⟨?_, ?_, ?_⟩
  · simp [chmapRefused, Blk.rd_wr, Nat.mod_eq_of_lt hst]
  · simp [chmapRefused, Nat.mod_eq_of_lt hi]
  · exact (((Keeps.refl _ b).wr F.GLB_CHMAP_CTRL_STATUS st r 0 (by simp)).wr F.GLB_CHMAP_CTRL_DUP_ENTRY i r 0
      (by simp)).releaseEn r

/-! ### The staged map comes in force (R28, R30) -/

/-- Entry `i` of region `r`'s staged map copied into the map in force. -/
def takeStaged (r : Nat) (b : Blk) (i : Nat) : Blk :=
  (b.wr F.GLB_CHMAP_ACT_DRV_IDX (b.rd F.GLB_CHMAP_STAGE_DRV_IDX r i) r i).wr
    F.GLB_CHMAP_ACT_RD_IDX (b.rd F.GLB_CHMAP_STAGE_RD_IDX r i) r i

/-- The first `n` entries of region `r`'s staged map copied into the map in force. -/
def takeStagedTo (r n : Nat) (b : Blk) : Blk := (List.range n).foldl (takeStaged r) b

theorem takeStagedTo_succ (r n : Nat) (b : Blk) :
    takeStagedTo r (n + 1) b = takeStaged r (takeStagedTo r n b) n := by
  simp [takeStagedTo, List.range_succ]

/-- The copy of entry `k` changes nothing but entry `k` of the map in force. -/
theorem rd_takeStaged_of_ne (r : Nat) (b : Blk) (k : Nat) (f : Fld) (i j : Nat)
    (h : f.reg ≠ .glbChmapAct ∨ j ≠ k) : (takeStaged r b k).rd f i j = b.rd f i j := by
  have hkey : ∀ g : Fld, g.reg = .glbChmapAct → g.key r k ≠ f.key i j := fun g hg he =>
    h.elim (fun hf => hf ((congrArg Key.reg he).symm.trans hg)) fun hj => hj (congrArg Key.j he).symm
  rw [takeStaged, Blk.rd_wr_ne _ _ _ _ _ _ _ _ (hkey _ rfl), Blk.rd_wr_ne _ _ _ _ _ _ _ _ (hkey _ rfl)]

theorem rd_takeStaged_self (r : Nat) (b : Blk) (k : Nat) :
    (takeStaged r b k).rd F.GLB_CHMAP_ACT_DRV_IDX r k = b.rd F.GLB_CHMAP_STAGE_DRV_IDX r k ∧
      (takeStaged r b k).rd F.GLB_CHMAP_ACT_RD_IDX r k = b.rd F.GLB_CHMAP_STAGE_RD_IDX r k := by
  refine ⟨?_, ?_⟩
  · rw [takeStaged, Blk.rd_wr_ne _ _ _ _ _ _ _ _ (by simp), Blk.rd_wr_self]
    exact Blk.rd_mod b F.GLB_CHMAP_STAGE_DRV_IDX r k
  · rw [takeStaged, Blk.rd_wr_self]
    exact Blk.rd_mod b F.GLB_CHMAP_STAGE_RD_IDX r k

theorem rd_takeStagedTo_of_ne (r n : Nat) (b : Blk) (f : Fld) (i j : Nat) (hf : f.reg ≠ .glbChmapAct) :
    (takeStagedTo r n b).rd f i j = b.rd f i j := by
  induction n with
  | zero => rfl
  | succ n ih => rw [takeStagedTo_succ, rd_takeStaged_of_ne r _ n f i j (.inl hf), ih]

/-- Of the entries copied so far the map in force is the staged map: a later entry's copy leaves them. -/
theorem takeStagedTo_spec (r n : Nat) (b : Blk) : ∀ i < n,
    (takeStagedTo r n b).rd F.GLB_CHMAP_ACT_DRV_IDX r i = b.rd F.GLB_CHMAP_STAGE_DRV_IDX r i ∧
      (takeStagedTo r n b).rd F.GLB_CHMAP_ACT_RD_IDX r i = b.rd F.GLB_CHMAP_STAGE_RD_IDX r i := by
  induction n with
  | zero => intro i hi; omega
  | succ n ih =>
    intro i hi
    rw [takeStagedTo_succ]
    by_cases h : i = n
    · subst h
      rw [← rd_takeStagedTo_of_ne r i b F.GLB_CHMAP_STAGE_DRV_IDX r i (by decide),
        ← rd_takeStagedTo_of_ne r i b F.GLB_CHMAP_STAGE_RD_IDX r i (by decide)]
      exact rd_takeStaged_self r _ i
    · rw [rd_takeStaged_of_ne _ _ _ _ _ _ (.inr h), rd_takeStaged_of_ne _ _ _ _ _ _ (.inr h)]
      exact ih i (by omega)

/-- A success shown in STATUS and counted. -/
def countApply (r : Nat) (b : Blk) : Blk :=
  (b.wr F.GLB_CHMAP_CTRL_STATUS 0 r).bump F.GLB_CHMAP_CTRL_APPLY_COUNT r

theorem rd_countApply_of_ne (r : Nat) (b : Blk) (f : Fld) (i j : Nat) (hf : f.reg ≠ .glbChmapCtrl) :
    (countApply r b).rd f i j = b.rd f i j := by
  rw [countApply, Blk.bump, Blk.rd_wr_of_reg_ne _ _ _ _ _ _ _ _ hf.symm,
    Blk.rd_wr_of_reg_ne _ _ _ _ _ _ _ _ hf.symm]

theorem rd_countApply_status (r : Nat) (b : Blk) : (countApply r b).rd F.GLB_CHMAP_CTRL_STATUS r = 0 := by
  rw [countApply, Blk.rd_bump_ne _ _ _ _ _ _ _ (by simp), Blk.rd_wr_self]
  rfl

theorem rd_countApply_count (r : Nat) (b : Blk) :
    (countApply r b).rd F.GLB_CHMAP_CTRL_APPLY_COUNT r =
      (b.rd F.GLB_CHMAP_CTRL_APPLY_COUNT r + 1) % 2 ^ F.GLB_CHMAP_CTRL_APPLY_COUNT.wid := by
  rw [countApply, Blk.rd_bump_self, Blk.rd_wr_ne _ _ _ _ _ _ _ _ (by simp)]

theorem chmapCheckDone_of_permutation {r : Nat} {b : Blk} (hbusy : chmapBusy b r = true)
    (hdrv : chmapDup b F.GLB_CHMAP_STAGE_DRV_IDX r = none)
    (hrd : chmapDup b F.GLB_CHMAP_STAGE_RD_IDX r = none) :
    chmapCheckDone r b = releaseEn (takeStagedTo r 64 (countApply r b)) r := by
  simp only [chmapCheckDone, hbusy, hdrv, hrd, Bool.not_true, Bool.false_eq_true, if_false]
  rfl

/-! ### The four outcomes -/

/-- R29, R30: APPLY on an idle region starts the check. -/
theorem apply_idle_starts_check (r : Region) (s : State) (hbusy : chmapBusy s.blk r = false)
    (hidle : s.blk.regionIdle r = true) :
    Completes (.apply r) s fun b => b.rd F.GLB_CHMAP_CTRL_STATUS r = 1 ∧
      (∃ d, d ≤ 51 ∧ Follows b d (.chmapCheckDone r)) ∧
      OnlyRegs [F.GLB_CHMAP_CTRL_STATUS.key r 0, F.GLB_CHMAP_CTRL_DUP_ENTRY.key r 0] s.blk b := by
  refine Completes.of_onBlk (f := fun _ => chmapApply r) rfl ?_
  rw [chmapApply_of_idle hbusy hidle, Fin.ofNat_val_eq_self]
  refine ⟨?_, ⟨51, Nat.le_refl 51, Follows.of_sched _ _ _⟩, (onlyRegs_applyAnswer s.blk r 1).sched _ _⟩
  rw [Blk.rd_sched, Blk.rd_wr_self]
  rfl

/-- R29: APPLY on a region that is not idle is refused with REFUSED_NOT_IDLE. -/
theorem apply_not_idle_refused (r : Region) (s : State) (hbusy : chmapBusy s.blk r = false)
    (hidle : s.blk.regionIdle r = false) :
    Completes (.apply r) s fun b => b.rd F.GLB_CHMAP_CTRL_STATUS r = 4 ∧
      OnlyRegs [F.GLB_CHMAP_CTRL_STATUS.key r 0, F.GLB_CHMAP_CTRL_DUP_ENTRY.key r 0] s.blk b := by
  refine Completes.of_onBlk (f := fun _ => chmapApply r) rfl ?_
  rw [chmapApply_of_not_idle hbusy hidle]
  exact ⟨Blk.rd_wr_self _ _ _ _ _, onlyRegs_applyAnswer s.blk r 4⟩

/-- R28, R30, R34: a map without a repeat comes in force whole and is counted. -/
theorem chmapCheckDone_applies (r : Region) (s : State) (hbusy : chmapBusy s.blk r = true)
    (hdrv : chmapDup s.blk F.GLB_CHMAP_STAGE_DRV_IDX r = none)
    (hrd : chmapDup s.blk F.GLB_CHMAP_STAGE_RD_IDX r = none) :
    Completes (.chmapCheckDone r) s fun b => b.rd F.GLB_CHMAP_CTRL_STATUS r = 0 ∧
      b.rd F.GLB_CHMAP_CTRL_APPLY_COUNT r =
        (s.blk.rd F.GLB_CHMAP_CTRL_APPLY_COUNT r + 1) % 2 ^ F.GLB_CHMAP_CTRL_APPLY_COUNT.wid ∧
      ∀ i < 64, b.rd F.GLB_CHMAP_ACT_DRV_IDX r i = s.blk.rd F.GLB_CHMAP_STAGE_DRV_IDX r i ∧
        b.rd F.GLB_CHMAP_ACT_RD_IDX r i = s.blk.rd F.GLB_CHMAP_STAGE_RD_IDX r i := by
  refine Completes.of_onBlk (f := fun _ => chmapCheckDone r) rfl ?_
  rw [chmapCheckDone_of_permutation hbusy hdrv hrd]
  simp only [rd_releaseEn]
  refine ⟨?_, ?_, fun i hi => ?_⟩
  · rw [rd_takeStagedTo_of_ne _ _ _ _ _ _ (by decide), rd_countApply_status]
  · rw [rd_takeStagedTo_of_ne _ _ _ _ _ _ (by decide), rd_countApply_count]
  · rw [← rd_countApply_of_ne r s.blk F.GLB_CHMAP_STAGE_DRV_IDX r i (by decide),
      ← rd_countApply_of_ne r s.blk F.GLB_CHMAP_STAGE_RD_IDX r i (by decide)]
    exact takeStagedTo_spec r 64 (countApply r s.blk) i hi

/-- R28, R35: a map whose check finds a repeat is refused as a whole. -/
theorem chmapCheckDone_refuses (r : Region) (s : State) {st i : Nat} (hst : st < 16) (hi : i < 64)
    (hrefused : chmapCheckDone r s.blk = chmapRefused s.blk r st i) :
    Completes (.chmapCheckDone r) s fun b => b.rd F.GLB_CHMAP_CTRL_STATUS r = st ∧
      b.rd F.GLB_CHMAP_CTRL_DUP_ENTRY r = i ∧
      Keeps [F.GLB_CHMAP_CTRL_STATUS.key r 0, F.GLB_CHMAP_CTRL_DUP_ENTRY.key r 0] s.blk b := by
  refine Completes.of_onBlk (f := fun _ => chmapCheckDone r) rfl ?_
  rw [hrefused]
  exact chmapRefused_spec s.blk hst hi

/-- Settles O1: APPLY by whether the region is idle, then its check by the first repeat it finds. -/
theorem channelMapIsCheckedAndApplied : Obligations.ChannelMapIsCheckedAndApplied := by
  unfold Obligations.ChannelMapIsCheckedAndApplied
  intro r s
  refine ⟨apply_idle_starts_check r s, apply_not_idle_refused r s, chmapCheckDone_applies r s, ?_, ?_⟩
  · intro i hbusy hdrv
    exact chmapCheckDone_refuses r s (by decide) (chmapDup_lt hdrv) (chmapCheckDone_of_drvDup hbusy hdrv)
  · intro i hbusy hdrv hrd
    exact chmapCheckDone_refuses r s (by decide) (chmapDup_lt hrd) (chmapCheckDone_of_rdDup hbusy hdrv hrd)

end Sys2Proof.Machine
end
